-- ==== Sys2Proof/Word.lean ====
section
/-! DEFINITION. The bit-vector types of the SKE288 (spec/09 section 9.1, spec/02 R40, spec/14 R142) and the plain enumerations
that the commands and the state share. -/

namespace Sys2Proof

/-- One store byte, or one byte on the set-up port (R13, R86). -/
abbrev Byte := BitVec 8

/-- A 36-bit word, bit 0 least significant: a register or a word of a store structure (Table 0.1, R181). -/
abbrev Word := BitVec 36

/-- A 12-bit two's complement temperature in 0.125 degC units (R142). -/
abbrev Temp := BitVec 12

/-- A ring number, 0 to 3 (R132). -/
abbrev RingNo := Fin 4

/-- An output number: Sn as n, TPm as 288 + m (Table 7.25). -/
abbrev OutNo := Fin 292

/-- The level of an output (Table 13.1), with the VCOM node of Table 3.6 for the time in which the rails do not hold it. -/
inductive Level where
  | node   -- switched to the internal VCOM node, rails not holding it (Table 3.6)
  | vcom
  | vpos
  | vneg
  | vmid   -- on the VMID node, during a reversal dwell only (R282)
  | float
  | testHigh -- to VIO through 2 kohm (SEGTEST, R375)
  | testLow  -- to VSS through 20 kohm
deriving DecidableEq, Repr

end Sys2Proof
end

