-- ==== Sys2Proof/Syntax.lean ====
section
/-! DEFINITION. The commands of the block: one constructor for each row of spec/opcode_table.json, in the table's order. Every
command carries dt, the number of HCK rising edges since the command before it (0: the same edge; DESIGN CHOICE, log 2). The
other operands are what the sender alone can know: levels at pins, bytes on a bus, outputs of analog comparators. -/

namespace Sys2Proof

/-- The levels of SCL and SDA that every other device leaves on the lines, one pair for each HCK edge (R97; log 50). -/
abbrev BusLevels : Type := List (Bool × Bool)

/-- Edges, then levels of the set-up bus. -/
structure BusSpan where
  dt : Nat
  lines : BusLevels
deriving DecidableEq, Repr

/-- Edges, and the levels of TMS on the TCK rising edges since the command before it on the test access port, its own edge the last
(R368; log 37). -/
structure TapSpan where
  dt : Nat
  tms : List Bool
deriving DecidableEq, Repr

/-- Edges, then levels of MRDY, one for each HCK edge from the next one on (R153; log 53). -/
structure StretchSpan where
  dt : Nat
  mrdy : List Bool
deriving DecidableEq, Repr

/-- What makes a transaction longer than its MSCK cycles: the levels of MRDY as above, and wait, the hc from the end of the last cycle to
the last MDQS edge (R159). -/
structure BusDelay where
  mrdy : List Bool
  wait : Nat
deriving DecidableEq, Repr

/-- Edges, then BAR_N as sampled: high from the 17th consecutive edge on, or (high = false) no longer (R345). -/
structure BarSample where
  dt : Nat
  high : Bool
deriving DecidableEq, Repr

/-- An output that has been limited for 2,048 hc; both: the output that it is tied to reaches that condition too (R297). -/
structure LongLimit where
  out : OutNo
  both : Bool
deriving DecidableEq, Repr

/-- The segment-test comparators; near: both rails lie within 1 V of ground (R375). -/
structure Observation where
  bits : BitVec 292
  near : Bool
deriving DecidableEq, Repr

/-- A command to the SKE288 (spec/opcode_table.json). -/
inductive Instr where
  /-- POWER_ON_RESET. R68: VDDC or VIO falls below its threshold. -/
  | powerOnReset (dt : Nat)
  /-- POR_RELEASE. R67: the supplies have stayed above their release thresholds for t_POR. -/
  | porRelease (dt : Nat)
  /-- RSTN_ASSERT. R69: RSTN goes low for long enough to reset. -/
  | rstnAssert (dt : Nat)
  /-- RSTN_RELEASE. R70: the first HCK rising edge that samples RSTN high is edge 1 of the first clocking. -/
  | rstnRelease (dt : Nat)
  /-- STRAP_FIRST_SAMPLE. R58: edge 24, the levels of ADR0 and ADR1 with no pull. -/
  | strapFirstSample (dt : Nat) (adr0 adr1 : Bool)
  /-- STRAP_SECOND_SAMPLE. R58: edge 56, the levels with the opposing pulls. -/
  | strapSecondSample (dt : Nat) (adr0 adr1 : Bool)
  /-- ADDRESS_LATCH. R76: edge 64 of the first clocking. -/
  | addressLatch (dt : Nat)
  /-- HCK_START. R48: the first rising edge of HCK after DORMANT. -/
  | hckStart (dt : Nat)
  /-- WAKE_QUALIFIER_END. R36: edge 64 of a wake. -/
  | wakeQualifierEnd (dt : Nat)
  /-- REPLAY_END. R336: the last record of the replay is complete. -/
  | replayEnd (dt : Nat)
  /-- CLOCK_LOSS. R45: no HCK edge within t_CLD. -/
  | clockLoss (dt : Nat)
  /-- SHUTDOWN_TRIP. R318: the analog comparator trips. -/
  | shutdownTrip (dt : Nat)
  /-- SHUTDOWN_RELEASE. R317: the analog comparator releases. -/
  | shutdownRelease (dt : Nat)
  /-- SHUTDOWN_EXIT. R319: 64 hc after the first edge on which THM_STATUS.sd reads 0. -/
  | shutdownExit (dt : Nat)
  /-- UVLO_ASSERT. R75: VIN falls below the falling threshold. -/
  | uvloAssert (dt : Nat)
  /-- UVLO_RELEASE. R75: VIN rises above the rising threshold. -/
  | uvloRelease (dt : Nat)
  /-- I2C_START. R84: a START or repeated START with its address byte. -/
  | i2cStart (dt : Nat) (lines : BusLevels)
  /-- SLOT_COMMIT. R91: the end of byte 4 of a slot. -/
  | slotCommit (dt : Nat) (lines : BusLevels)
  /-- READ_CAPTURE. R95: the first byte of a slot is about to be read; barIn is BAR_N as sampled on the edge before (R345). -/
  | readCapture (bus : BusSpan) (barIn : Bool)
  /-- SCL_STRETCH_RELEASE. R100: the fourth edge after recognition. -/
  | sclStretchRelease (bus : BusSpan)
  /-- I2C_STOP. R102: a STOP. -/
  | i2cStop (bus : BusSpan)
  /-- FRAMING_ABORT. R103: a START or STOP in mid-byte; lines: the levels up to it; after: those that follow. -/
  | framingAbort (dt : Nat) (lines after : BusLevels)
  /-- DRIVE_GROUP_APPLY. R113: the safe point of the drive group. -/
  | driveGroupApply (dt : Nat)
  /-- SUPPLY_GROUP_APPLY. R288: the supply group completes. -/
  | supplyGroupApply (dt : Nat)
  /-- WINDOW_GROUP_APPLY. R176: the safe point of the window group. -/
  | windowGroupApply (dt : Nat)
  /-- RESET_DRAIN_END. R72, step 2 ends and step 3 begins. -/
  | resetDrainEnd (dt : Nat)
  /-- RESET_BUSY_END. R72, step 4. -/
  | resetBusyEnd (dt : Nat)
  /-- MEM_ARBITRATE. R173: the arbitration edge. -/
  | memArbitrate (dt : Nat)
  /-- MEM_TRANSACTION_END. R150: MCS_N rises; delay: what makes it longer than its cycles (R153, R159); bytes: what the target returned in bus order. -/
  | memTransactionEnd (dt : Nat) (delay : BusDelay) (bytes : List Byte)
  /-- STATUS_POLL. R169: the poll gap has passed. -/
  | statusPoll (dt : Nat)
  /-- MRDY_STRETCH_TIMEOUT. R155: MRDY stays low after the levels given, and a stretch reaches its bound. -/
  | mrdyStretchTimeout (at_ : StretchSpan)
  /-- MDQS_TIMEOUT. R159: the MDQS edges are missing. -/
  | mdqsTimeout (at_ : StretchSpan)
  /-- POLL_TIMER_EXPIRY. R209: the poll interval of a phase-mode ring expires. -/
  | pollTimerExpiry (dt : Nat) (ring : RingNo)
  /-- UPDATE. R262: the ring's oldest fetched entry is an UPDATE and is admitted. -/
  | update (dt : Nat) (ring : RingNo)
  /-- CLEAR. R236: as UPDATE, for a CLEAR. -/
  | clear (dt : Nat) (ring : RingNo)
  /-- CFG. R242: a CFG is admitted. -/
  | cfg (dt : Nat) (ring : RingNo)
  /-- TEMP. R244: a TEMP is admitted. -/
  | temp (dt : Nat) (ring : RingNo)
  /-- SYNC. R245: a SYNC is admitted. -/
  | sync (dt : Nat) (ring : RingNo)
  /-- PARK. R247: a PARK is admitted. -/
  | park (dt : Nat) (ring : RingNo)
  /-- MARK. R248: a MARK is admitted. -/
  | mark (dt : Nat) (ring : RingNo)
  /-- NOP. R249: a NOP, or an entry that does not run here, is admitted. -/
  | nop (dt : Nat) (ring : RingNo)
  /-- INTENT_WRITE. R330: the intent record of the ring's update is requested. -/
  | intentWrite (dt : Nat) (ring : RingNo)
  /-- UPDATE_START. R266: frame 1 of the ring's update starts. -/
  | updateStart (dt : Nat) (ring : RingNo)
  /-- FRAME_END. R252: a frame length expires; qpos, qneg: the charge of the frame in nC (R290); bad: the outputs the level comparators show off their level (R297); vmid: VMID lies in its window (R284). -/
  | frameEnd (dt : Nat) (qpos qneg : Nat) (bad : BitVec 292) (vmid : Bool)
  /-- DWELL_END. R282: the VMID dwell ends. -/
  | dwellEnd (dt : Nat)
  /-- OUTPUT_LIMITED. R296: output m becomes limited after held hc in limit, with the current direction sink; ok: vpos_ok, vneg_ok, vcom_ok as sensed (R299). -/
  | outputLimited (dt : Nat) (m : OutNo) (held : Nat) (sink : Bool) (ok : BitVec 3)
  /-- OUTPUT_LIMIT_RELEASE. R296: output m leaves current limit. -/
  | outputLimitRelease (dt : Nat) (m : OutNo) (ok : BitVec 3)
  /-- OUTPUT_FAULT. R297: an output has been limited for 2,048 hc. -/
  | outputFault (dt : Nat) (limit : LongLimit)
  /-- PAIR_CONTENTION. R297: the outputs of ganged pair p carry opposite currents for 512 hc. -/
  | pairContention (dt : Nat) (p : Fin 144)
  /-- SEQUENCING_START. R286: the 16 hc of sequencing begin. -/
  | sequencingStart (dt : Nat)
  /-- RAMP_START. R286: the ramp starts. -/
  | rampStart (dt : Nat)
  /-- RAMP_STEP. R286: a step of the VPOS and VNEG targets, or (dac) of the VCOM DAC; ok: the rail status bits as sensed (R285). -/
  | rampStep (dt : Nat) (dac : Bool) (ok : BitVec 3)
  /-- SET_POINT_SLEW_STEP. R288: a slew interval expires; ok: the rail status bits as sensed against the moved set-points. -/
  | setPointSlewStep (dt : Nat) (ok : BitVec 3)
  /-- RAILS_IN_REGULATION. R286: the rails reach regulation. -/
  | railsInRegulation (dt : Nat)
  /-- RAMP_TIMEOUT. R287: t_RTO has passed; ok: the rail status bits as sensed. -/
  | rampTimeout (dt : Nat) (ok : BitVec 3)
  /-- DISCHARGE_VCOM_STEP. R294: a VCOM step of a controlled discharge, or the end of switching. -/
  | dischargeVcomStep (dt : Nat)
  /-- DISCHARGE_END. R294: both rails are within 0.5 V of ground. -/
  | dischargeEnd (dt : Nat)
  /-- PARKING_EXIT. R36: 16 hc after the rails are off. -/
  | parkingExit (dt : Nat)
  /-- ARMED_TIMEOUT. R36: the ARMED timeout count reaches its limit. -/
  | armedTimeout (dt : Nat)
  /-- HELD_EXIT. R36: the engine leaves HELD for IDLE. -/
  | heldExit (dt : Nat)
  /-- CONVERSION_RESULT. R306: mean: the mean Tdie of the window in 0.0001 degC; charge: for each switching period of the window the edge of the window on which it ended, the net pC into VPOS and the net pC from VNEG (R307); pj: energy drawn by the converter since the last report, in pJ (R291). -/
  | conversionResult (dt : Nat) (mean : Int) (charge : List (Nat × Int × Int)) (pj : Nat)
  /-- BAR_N_RECOGNISED. R345: the 17th consecutive edge with BAR_N sampled high, or (high = false) the first edge that ends the run. -/
  | barNRecognised (bar : BarSample)
  /-- BARRIER_START. R346: 4 hc after recognition. -/
  | barrierStart (dt : Nat) (ring : RingNo)
  /-- BARRIER_TIMEOUT. R348: the ring's barrier times out. -/
  | barrierTimeout (dt : Nat) (ring : RingNo)
  /-- TEST_LOGIC_RESET. R369: the TAP enters Test-Logic-Reset. -/
  | testLogicReset (dt : Nat)
  /-- EXTEST. R372: Update-IR loads EXTEST. -/
  | extest (tap : TapSpan)
  /-- SAMPLE_PRELOAD. R372: Update-IR loads SAMPLE/PRELOAD. -/
  | samplePreload (tap : TapSpan)
  /-- IDCODE. R373: Update-IR loads IDCODE. -/
  | idcode (tap : TapSpan)
  /-- CLAMP. R372: Update-IR loads CLAMP. -/
  | clamp (tap : TapSpan)
  /-- HIGHZ. R372: Update-IR loads HIGHZ. -/
  | highz (tap : TapSpan)
  /-- SEGTEST. R375: Update-IR loads SEGTEST. -/
  | segtest (tap : TapSpan)
  /-- BYPASS. R370: Update-IR loads BYPASS, 0xF, or an opcode that Table 18.1 does not list. -/
  | bypass (tap : TapSpan) (op : BitVec 4)
  /-- CAPTURE_DR. R374: pins: the level at the pin of each boundary input cell; observe: the segment-test comparators (R375). -/
  | captureDr (tap : TapSpan) (pins : BitVec 44) (observe : Observation)
  /-- UPDATE_DR. R374: the shift stage goes to the outputs. -/
  | updateDr (tap : TapSpan)
  /-- I2C_DATA_BYTE. R90: a pointer or data byte, and its acknowledge bit. -/
  | i2cDataByte (dt : Nat) (lines ack : BusLevels)
  /-- TAP_SHIFT. R368: a TCK cycle in Shift-IR (ir) or Shift-DR. -/
  | tapShift (tap : TapSpan) (ir : Bool) (tdi : Bool)
  /-- CAPTURE_IR. R370: the instruction shift stage takes 0b0001. -/
  | captureIr (tap : TapSpan)
  /-- ENERGY_WRAP. R141: SUP_ENERGY wraps; pj: energy drawn by the converter since the last report, in pJ (R291). -/
  | energyWrap (dt : Nat) (pj : Nat)
deriving DecidableEq, Repr

end Sys2Proof
end

