-- ==== Sys2Proof/Decode.lean ====
section
/-! DEFINITION. The decoder of table words. The rows of spec/opcode_table.json carry no bits: commands reach the block on its bus,
its pins and its clock, not as words. -/

namespace Sys2Proof

/-- No word spells a command: the opcode table gives no row any bits. -/
def decodeTableWord (_nbits _w : Nat) : Option Instr := none

end Sys2Proof
end

