-- ==== Sys2Proof/Machine/State.lean ====
section
/-! DEFINITION. The state of the SKE288: every register, buffer, queue, mode and pin that the spec names, as plain data, and the
state after reset. INVENTORY.md lists each piece with its rule. Log numbers refer to notes/assumptions. -/

namespace Sys2Proof.Machine

/-- A host error of Table 17.3 that the engine itself can meet; the spec calls its result unpredictable (R7, R8, R365). What the
engine does from then on is `State.disturb` (log 5). After `busTiming` the transaction on the set-up bus is unpredictable
too: `SetupPort.broken` (log 59). -/
inductive HostError where
  | windowsOverlap       -- R165
  | windowField          -- R125: a reserved profile or alen
  | zeroLatency          -- R159
  | ringSize             -- R125: a reserved size_exp
  | tailSpan             -- R199, R204
  | reservedOpcode       -- R231
  | segmentRange         -- R250: first > last or last > 287
  | stateRange           -- R190
  | cfgTarget            -- R242
  | syncOrder            -- R246
  | journalRegion        -- R321
  | structuresOverlap    -- Table 10.3: rings, tail and head words, images, atlas or journal share bytes
  | journalGeometry      -- Table 15.7: sector_exp or erase changed while a slot is open
  | busTiming            -- R99
deriving DecidableEq, Repr, Inhabited

/-- Why a step stops with a fault: no command does (log 5), so there is no reason. -/
inductive Fault
deriving DecidableEq, Repr

/-- Why a command has no meaning. -/
inductive Refusal where
  /-- The command has no meaning yet. Raised by no meaning; safe. -/
  | notModelled (mnemonic : String)
deriving DecidableEq, Repr

/-- The engine's states (Table 2.3). -/
inductive EngState where
  | dormant | idle | armed | driving | parking | held | recovery | shutdown
deriving DecidableEq, Repr, Inhabited

/-- What interrupted an update (R46, R75, R72), which fixes the log code of an abandonment (Table 7.25). -/
inductive Cut where
  | clockLoss | shutdown | uvlo | functionReset
deriving DecidableEq, Repr, Inhabited

/-- Clock, reset and power state (spec/02, spec/04). -/
structure Power where
  st : EngState
  por : Bool             -- power-on reset asserted (R67)
  rstn : Bool            -- level of RSTN (R69)
  hck : Bool             -- HCK runs
  first : Bool           -- the clocking is, or the next one will be, a first clocking (R76)
  qual : Bool            -- in edges 1 to 63 of a clocking
  clk0 : Nat             -- edge count on edge 0 of the present clocking
  trim : Bool            -- fuse trim loaded (Table 4.3)
  strap1 : Option (Bool × Bool)  -- first sample of ADR0, ADR1 (R58)
  strap2 : Option (Bool × Bool)  -- second sample
  addr : BitVec 7        -- ID_ADDR.addr (R59)
  l0 : BitVec 2
  l1 : BitVec 2
  jopen : Bool           -- the retained journal-open flag (R39)
  sd : Bool              -- shutdown comparator output (R317)
  sdClear : Nat          -- edge count of the last release of the comparator
  uvlo : Bool            -- SUP_STATUS.uvlo (R75)
  status : Word          -- PWR_STATUS
  ctl : Word             -- PWR_CTL
  hccnt : Word           -- PWR_HCCNT
  busy : Bool            -- PWR_RESET.busy (R71)
  drain : Option Nat     -- edge count of the end of step 2 of R72
  shut : Bool            -- SHUTDOWN has been entered, or was the state, within this function-wide reset (R72)
  armed0 : Nat           -- edge count from which the ARMED timeout counts (Table 2.4)
  off0 : Nat             -- edge count on which the rails were last off (PARKING exit, R72)
deriving DecidableEq, Repr, Inhabited

/-- Where the set-up port stands in a transaction (R86, R88). -/
inductive PortPhase where
  | idle                  -- no transaction
  | away                  -- not addressed, or left: waits for START or STOP
  | address               -- the address byte
  | ptrHigh
  | ptrLow (hi : Byte)
  | write
  | read
deriving DecidableEq, Repr, Inhabited

/-- The holding buffer of the current slot (R91): `good` bytes 0.. have come in order; `bad`: bytes 0 to 4 came out of order. -/
structure HoldBuf where
  slot : BitVec 13
  good : Nat
  bad : Bool
  bytes : List Byte
deriving DecidableEq, Repr, Inhabited

/-- A line of the set-up bus as the engine sees it: synchroniser and spike filter (R97). -/
structure Line where
  first : Bool             -- first stage of the synchroniser
  second : Bool            -- the synchronised level
  level : Bool             -- the filtered level
  run : Nat                -- consecutive edges on which the synchronised level has differed from it
deriving DecidableEq, Repr, Inhabited

/-- The set-up port (spec/05). -/
structure SetupPort where
  pinScl : Bool                     -- level of SCL as every other device leaves it (R97; log 50)
  pinSda : Bool                     -- level of SDA, likewise
  scl : Line
  sda : Line
  sda1 : Bool                       -- the filtered SDA level one edge ago: first stage of the delay of R386
  sda2 : Bool                       -- the filtered SDA level two edges ago: what START and STOP are detected from (R386)
  rose : Bool                       -- an SCL rising edge was recognised on the last edge (R98)
  sclAt : Nat                       -- edge count of the last recognised SCL edge, or of the SDA edge of a START since it (R99)
  fallAt : Option Nat               -- edge count of the last recognised SCL falling edge of the transaction (R99)
  broken : Bool                     -- R99 has been broken in this transaction: what its set-up traffic does is unpredictable (log 59)
  bits : Nat                        -- bits taken of the present byte, its acknowledge bit the ninth
  atEnd : Bool                      -- an acknowledge bit has ended and no bit since (R103)
  shift : Byte                      -- the bits taken
  drive : Option Bool               -- what SDA does on the next edge; true: pulled low (R98)
  sdaLow : Bool                     -- the engine pulls SDA low
  sdaWas : Bool                     -- it did so up to the present edge, which samples the line as it was
  phase : PortPhase
  ptr : BitVec 16
  buf : Option HoldBuf
  cap : Option (BitVec 13 × Word)   -- slot captured in this read (R95)
  ack : Bool                        -- the engine acknowledges the byte just received
  tx : Byte                         -- the byte it transmits, or transmitted last
  hold : Option Nat                 -- the edge count of the recognition that a stretch answers (R100)
  setup : Word                      -- PWR_SETUP
  inForce : Word                    -- PWR_SETUP as it is in force (R102)
  setupst : Word                    -- PWR_SETUPST
deriving DecidableEq, Repr, Inhabited

/-- The four registers of a window (R130). -/
structure Win where
  base : Word
  size : Word
  tgt : Word
  cfg : Word
deriving DecidableEq, Repr, Inhabited

/-- The drive group (Table 6.2, R136, R138). -/
structure DriveGroup where
  frameLen : Word
  atlas : Word
  ctl : Word
  throttle : Word
  tp : Word
  gang : Vector Word 4
deriving DecidableEq, Repr, Inhabited

/-- The supply group (R138). -/
structure SupplyGroup where
  vpos : Word
  vneg : Word
  vcom : Word
  conv : Word
  ctl : Word
deriving DecidableEq, Repr, Inhabited

/-- The window group (R130). -/
structure WindowGroup where
  ctl : Word
  win : Vector Win 8
deriving DecidableEq, Repr, Inhabited

/-- The thermal group (R142). -/
structure ThermalGroup where
  warn : Word
  throt : Word
  wrange : Word
  model : Word
  ctl : Word
deriving DecidableEq, Repr, Inhabited

/-- One copy of every staged register: the applied copy or the shadow copy (R110). -/
structure Staged where
  drive : DriveGroup
  supply : SupplyGroup
  window : WindowGroup
  thermal : ThermalGroup
deriving DecidableEq, Repr, Inhabited

/-- A pending copy with the edge count of its commit (R113). -/
structure Pending (α : Type) where
  val : α
  at0 : Nat
deriving DecidableEq, Repr, Inhabited

/-- The pending copies; a group's bit of ID_CFG_PENDING is 1 while its copy is there (R113). -/
structure PendingCopies where
  drive : Option (Pending DriveGroup)
  supply : Option (Pending SupplyGroup)
  window : Option (Pending WindowGroup)
  thermal : Option (Pending ThermalGroup)
deriving DecidableEq, Repr, Inhabited

/-- The staged registers, one name each (Table 7.8, 7.13, 7.15, 7.17). -/
inductive StReg where
  | memCtl | winBase (n : Fin 8) | winSize (n : Fin 8) | winTgt (n : Fin 8) | winCfg (n : Fin 8)
  | frameLen | atlas | drvCtl | throttle | tp | gang (j : Fin 4)
  | vpos | vneg | vcom | conv | supCtl
  | warn | throt | wrange | model | thmCtl
deriving DecidableEq, Repr, Inhabited

/-- The saturating counters of section 7.13. -/
inductive Cnt where
  | lockViol | updates | frames | replays | memFail | outFault | throttle | held | wake | tomb
deriving DecidableEq, Repr, Inhabited

/-- Every register of the map (spec/07), one name each. -/
inductive Reg where
  | ident | addr | tileId | lock | commit | cfgPending
  | pwrState | pwrStatus | pwrCtl | hccnt | pwrReset | pwrSetup | pwrSetupst
  | atnCause | atnEnable
  | memFail | memFailAddr
  | st (r : StReg)
  | ringCtl (n : RingNo) | ringBase (n : RingNo) | ringTail (n : RingNo) | ringHeadAddr (n : RingNo)
  | ringPoll (n : RingNo) | ringDoor (n : RingNo) | ringHead (n : RingNo) | ringStatus (n : RingNo)
  | dcbSel | dcbVal | dcbClr | active
  | vlim | fault (j : Fin 9) | energy | energyWrap | charge | supStatus
  | tdie | tpan | thmHost | thmStatus
  | jnlCtl | jnlBase | jnlSize | jnlStatus | jnlSeq | jnlWpos
  | cnvCtl | epoch | cnvStatus | barto
  | cnt (c : Cnt) | logStat | logClr | logA (n : Fin 16) | logB (n : Fin 16)
deriving DecidableEq, Repr, Inhabited

/-- The counts (R146). -/
structure Counters where
  lockViol : Word
  updates : Word
  frames : Word
  replays : Word
  memFail : Word
  outFault : Word
  throttle : Word
  held : Word
  wake : Word
  tomb : Word
deriving DecidableEq, Repr, Inhabited

/-- One entry of the fault log (Table 7.24). -/
structure LogEntry where
  a : Word
  b : Word
deriving DecidableEq, Repr, Inhabited

/-- What the hardware has done on the present edge, for the same-edge rules (R118, R119, R137, R147, R243). -/
structure EdgeRec where
  cause : Word             -- ATN_CAUSE bits set
  status : Word            -- PWR_STATUS bits set
  setupst : Word           -- PWR_SETUPST bits set
  fault : BitVec 292       -- SUP_FAULT bits set
  cnts : List Cnt          -- counter events
  sats : List Cnt          -- counters whose event of this edge has set cnt_sat, which was 0 (R119, R146)
  epochs : Nat             -- CNV_EPOCH events
  energy : Nat             -- whole microjoules added to SUP_ENERGY
  wraps : Nat              -- wraps of SUP_ENERGY
  wraps0 : Option Word     -- SUP_ENERGY_WRAP before the first of them
  wrapCause : Bool         -- energy_wrap was 0 and this edge's wrap has set it
  enableCleared : BitVec 4 -- RINGn_CTL.enable cleared on a fault
  headTaken : BitVec 4     -- RINGn_HEAD written by a completed head write
  shadow0 : Option Staged  -- the shadow copies before the first set-up write of this edge
  shadowWrites : List (StReg × Word)  -- set-up writes to shadow copies, oldest first
  windowApplied : Bool     -- the window group applied (R176)
  arbitrated : Bool        -- the port has arbitrated (R173)
  dcbCleared : Bool        -- the accumulators were cleared on this edge (R137)
  thermal : Bool           -- a conversion result, or THM_TPAN changed (R263)
  admitted : Bool          -- an entry was admitted (R218)
  noAdmit : BitVec 4       -- rings whose entry was fetched, or finished, on this edge (R235)
  fold : Option Nat        -- the fault log entry of a foldback that has begun on this edge (R299)
  ran : BitVec 4           -- rings whose entry finished on its admission edge: running for that edge (R235)
  committed : Bool         -- a slot has committed (R109)
  sampled : Bool           -- the set-up port has sampled its lines (R97)
deriving DecidableEq, Repr, Inhabited

/-- Effects that the spec puts one edge later. -/
inductive Deferred where
  | enterArmed       -- Table 2.4: the edge after regulation
  | enterParking     -- +1 hc
  | endRecovery      -- +1 hc after the last replay record
  | openGate         -- R78: the next edge
  | forgetSlots      -- R80: on the edge the gate opens
  | dropSequencing   -- R286: rails_up and ramping clear on the next edge
  | clearDcb         -- R137: edge E + 1
  | clearLog         -- R147: edge E + 1
  | tempCurrent      -- R309: the edge after admission
  | floatFaulted     -- R298: from the next edge
  | dropLimited      -- R296: the edge after an output floats
  | leaveHeld        -- HELD to IDLE
  | railsEnd         -- R25: the rails went off without a clock; what follows in the synchronous logic
  | uvloSeen (hit : Bool)  -- R25, R75: VIN undervoltage met without a clock
  | replayFrame      -- R336: the edge after the rails reach regulation
deriving DecidableEq, Repr, Inhabited

/-- The four words of a ring entry (R196, R230). -/
structure Entry where
  w0 : Word
  w1 : Word
  w2 : Word
  w3 : Word
deriving DecidableEq, Repr, Inhabited

/-- Atlas records read ahead for a fetched entry (R210, R258). -/
structure Ahead where
  legend : Option (List Byte)
  index : Option (List Byte)
  atlas : Word               -- DRV_ATLAS.base on the fetch edge
  tpan : Temp                -- Tpan on the fetch edge
  dead : Bool                -- failed (R213), moved atlas (R258), or none wanted
deriving DecidableEq, Repr, Inhabited

/-- A fetched entry that is not admitted (R210). -/
structure Fetched where
  index : BitVec 16
  entry : Entry
  table : List Byte
  runsHere : Bool            -- R234, taken on the fetch edge
  ahead : Ahead
deriving DecidableEq, Repr, Inhabited

/-- What the fetch of the next entry still needs (R208, R210). -/
inductive Fetching where
  | none
  | entry                    -- phase mode: the whole entry after a good probe
  | table (e : Entry)        -- the fragment table
deriving DecidableEq, Repr, Inhabited

/-- A phase of a waveform (Table 12.3). -/
structure Phase where
  seg : BitVec 2
  tp : BitVec 2
  frames : Nat
deriving DecidableEq, Repr, Inhabited

/-- A fragment's range and mask (Table 11.5). -/
structure Frag where
  first : Nat
  last : Nat
  mask : Option (BitVec 32)
deriving DecidableEq, Repr, Inhabited

/-- The drive of an update, fixed once its reads are complete (R268, R269). -/
structure Plan where
  waves : List (List Phase)
  seg : List (Option Nat)    -- for each segment, the wave that drives it
  lead : Nat                 -- the lead waveform
  len : Nat                  -- T_lead
deriving DecidableEq, Repr, Inhabited

/-- Where a running update stands: waveform frame, sub-frame, and the slices of this waveform frame (R277). -/
structure Run where
  frame : Nat
  sub : Nat
  slices : Nat               -- 1: not sliced
  top : Bool                 -- some top plane was in mode 0b01 on the start edge of this waveform frame (R275)
deriving DecidableEq, Repr, Inhabited

/-- What runs on the frame clock: an update of a ring, or the slot in replay (R252). -/
structure Runner where
  plan : Plan
  run : Run
deriving DecidableEq, Repr, Inhabited

/-- The life of an admitted UPDATE or CLEAR. -/
inductive Stage where
  | reads                    -- R264
  | waitIntent               -- reads complete, journaled, intent not yet requested (R324, R330)
  | intent                   -- intent access in progress
  | ready                    -- frame 1 may start when R266 holds
  | running (r : Run)
  | closing                  -- last frame ended, close mark not complete
  | cut (c : Cut)            -- interrupted (R396); a journaled one is replayed
deriving DecidableEq, Repr, Inhabited

/-- An admitted UPDATE or CLEAR (R262 to R269). -/
structure Update where
  clear : Bool
  force : Bool
  journaled : Bool
  gated : Bool               -- gated by a SYNC whose barrier still holds (R245)
  preRamp : Bool             -- it was imminent with pre-ramp requested when it was admitted (R292; log 25)
  old : BitVec 32
  new_ : BitVec 32
  state : BitVec 4           -- CLEAR's state
  frags : List Frag
  claim : BitVec 288
  gangs : BitVec 144         -- pairs applied on the admission edge (R267)
  tpan : Temp                -- R261
  aheadTpan : Option Temp    -- Tpan on the fetch edge while a read-ahead may still be used (R258, R394)
  atlas : Word
  frameLen : Nat
  tp : BitVec 8
  vpos : BitVec 9
  vneg : BitVec 9
  vcom : BitVec 10
  stage : Stage
  oldImg : Option (List Byte)
  newImg : Option (List Byte)
  masks : List (List Byte)
  legend : Option (List Byte)
  index : Option (List Byte)
  records : List (Nat × List Byte × Bool)  -- index word, bytes read, complete
  plan : Option Plan
  slot : Option Nat          -- its journal slot
deriving DecidableEq, Repr, Inhabited

/-- What a ring's admitted entry is. Entries that finish on their admission edge leave no trace here. -/
inductive Work where
  | update (u : Update)
  | cfg (groups : BitVec 4)
  | park
deriving DecidableEq, Repr, Inhabited

/-- An armed barrier (R245, R348). -/
structure Barrier where
  at0 : Nat
  limit : Nat                -- CNV_BARTO latched
  eload : Bool
  epoch : BitVec 32
  go : Option Nat            -- edge count of the recognition by a ready engine (R346)
deriving DecidableEq, Repr, Inhabited

/-- Who asked for an access (Table 8.5). -/
inductive Asker where
  | tail | probe | entry | table
  | aheadLegend (index : BitVec 16) | aheadIndex (index : BitVec 16)
  | oldImage | newImage | mask | legend | index | record (w : Nat) | recordRest (w : Nat)
  | head (value : BitVec 16)
  | scan
  | erase | intent | progress (done : Nat) | close | tomb
  | replayIntent | replayLegend | replayIndex | replayRecord (w : Nat) | replayRest (w : Nat)
deriving DecidableEq, Repr, Inhabited

/-- One ring (spec/10). -/
structure Ring where
  ctl : Word
  base : Word
  tailAddr : Word
  headAddr : Word
  poll : Word
  head : BitVec 16
  fetch : BitVec 16
  tail : BitVec 16
  comp : BitVec 16           -- the completion point (R198)
  bell : Bool
  stalled : Bool
  fetched : List Fetched     -- oldest first
  fetching : Fetching
  issued : List Asker        -- its requests for run-ahead reads in order of issue (R173)
  probe : Bool               -- phase mode: a probe is due (R209)
  timer : Option Nat         -- phase mode: edge count at which the poll timer started
  work : Option (BitVec 16 × Work)   -- the admitted entry with its index
  barrier : Option Barrier
  headDue : Bool             -- a head write is requested (R221)
  stale : Bool               -- RINGn_HEAD stands at the 0 that RSTN has put there, and no tail read has shown a tail within its span (R228, Table 20.5)
  tailRead : Bool            -- a tail read has been answered since the ring was enabled (R204)
  hole : Bool                -- an admitted entry was discarded unfinished: no head passes it (R198, R265)
  syncNext : Bool            -- the ring's next entry that runs here is the one that its SYNC gates (R245, R246)
  marks : List (BitVec 16)   -- MARK entries not yet passed by a head write (R248)
  parkHead : Option (BitVec 16)  -- the PARK that has finished and that no head write has passed (R356)
deriving DecidableEq, Repr, Inhabited

/-- A memory access of a unit (section 8.1). -/
structure Access where
  asker : Asker
  user : BitVec 3            -- MEM_FAIL.user
  ring : RingNo
  prio : Nat
  addr : Nat
  len : Nat
  write : Bool
  data : List Byte           -- the bytes of a write
  index : BitVec 16          -- the ring index that the access serves (Table 7.25)
  slot : Nat                 -- the journal slot of a journal record
deriving DecidableEq, Repr, Inhabited

/-- An access that has started: its window is resolved (R166). -/
structure OpenAccess where
  acc : Access
  win : Win
  wix : Nat                  -- its number
  target : Nat               -- target address of the next piece
  left : Nat                 -- bytes still to transfer
  got : List Byte
  polls : Nat
  fill : List Byte           -- D8 edge-fill bytes of the present piece (R170)
  drop : Bool                -- its data are to be discarded (R225)
deriving DecidableEq, Repr, Inhabited

/-- The transactions of Table 8.2. -/
inductive TxKind where
  | read | edgeFill | writeEnable | program | status | erase | h8write
deriving DecidableEq, Repr, Inhabited

/-- The open transaction (R150). -/
structure Txn where
  kind : TxKind
  piece : Nat                -- bytes of the access that it carries
  lo : Nat                   -- target address on the bus
  count : Nat                -- data bytes on the bus
  sent : List Byte           -- the bytes the engine sends, in order
  cycles : Nat               -- C of Table 8.2
  ready : List Nat           -- the cycles before which MRDY is tested (Table 8.2)
  stretch : List Nat         -- the stretch at each of these ready points that is passed, in hc (R153)
  sel : BitVec 3             -- the window's select code
  idle : Bool                -- idle level of MSCK in the frame (R151)
  serial : Bool              -- profile S1
  early : Bool               -- s1_edge = 0: the first bit is valid from F (R156)
  fall : Nat                 -- edge F
deriving DecidableEq, Repr, Inhabited

/-- The memory port (spec/08). -/
structure MemPort where
  mrdy : Bool                -- level of MRDY at the pin
  mrdy1 : Bool               -- first stage of its synchroniser (R153)
  mrdy2 : Bool               -- the synchronised level
  cur : Option OpenAccess    -- the access whose transaction or write sequence is open
  txn : Option Txn           -- chosen; MCS_N is low from its edge F
  parked : List OpenAccess   -- read accesses between their transactions (R174)
  rise : Nat                 -- edge of the last MCS_N rise
  sel : BitVec 3             -- MCSA2 to MCSA0 outside the transaction's own frame
  lastIdle : Bool            -- idle level of MSCK in the last frame (R151)
  fail : Word                -- MEM_FAIL
  failAddr : Word            -- MEM_FAIL_ADDR
deriving DecidableEq, Repr, Inhabited

/-- The phase of the rails. -/
inductive RailPhase where
  | off
  | sequencing (start : Nat)
  | ramp (start : Nat) (c : Nat)
  | up
  | discharge (p : Nat) (n : Nat) (j : Nat)   -- R294: first edge, VCOM steps in all, steps done
  | bleed                                     -- R294 step 3: switching stopped
  | fast                                      -- R295: the immediate discharge
deriving DecidableEq, Repr, Inhabited

/-- A limited output (R296). -/
structure Lim where
  out : OutNo
  entered : Nat              -- edge count on which it entered limit
  since : Nat                -- edge count on which it became limited
  sink : Bool
  tied : Bool                -- counted in a tie contention already (Table 13.3)
deriving DecidableEq, Repr, Inhabited

/-- Supply and outputs (spec/13). -/
structure Supply where
  vlim : Word
  phase : RailPhase
  railsUp : Bool             -- PWR_STATE.rails_up
  toHeld : Bool              -- the discharge began for HELD (Table 2.4)
  started : Bool             -- a frame has started since the rails last reached regulation, or the ramp began (R293)
  noPreRamp : Bool           -- R287: after a timeout
  vpos : Nat                 -- VPOS set-point in effect, a code (R288)
  vneg : Nat
  vcom : Int                 -- VCOM set-point in effect, 5 mV steps
  slew0 : Nat                -- edge count of the last slew interval
  tpos : Nat                 -- ramp target of VPOS in 50 mV
  tneg : Nat
  rail0 : Nat                -- edge count of the last 128 hc ramp step
  dac : Int                  -- VCOM DAC in 5 mV
  dac0 : Nat                 -- edge count of the last 8 hc DAC step
  vposOk : Bool
  vnegOk : Bool
  vcomOk : Bool
  foldback : Bool
  limited : List Lim
  noCheck : Bool             -- level check suppressed (R299)
  fault : BitVec 292         -- SUP_FAULT0 to SUP_FAULT8
  floats : BitVec 292        -- outputs that float for a fault (R298, R140)
  near : Bool                -- in an immediate discharge: both rails have been found within 1 V of ground (R375)
  energy : Word
  energyRem : Nat            -- pJ below 1 uJ (R291)
  wraps : Word               -- SUP_ENERGY_WRAP
  qpos : BitVec 18
  qneg : BitVec 18
  vmid : Bool                -- VMID ready (R284)
  lfsr : BitVec 7            -- dither (R289)
  divider : Nat              -- N of the switching period in progress
  swLeft : Nat               -- hc left of it
deriving DecidableEq, Repr, Inhabited

/-- The frame clock and the outputs of the present frame (R252, R269, R282). -/
structure Frames where
  start : Nat                -- start edge of the frame in progress
  len : Nat                  -- its length, latched (R252)
  prev : List Level          -- levels of the frame before
  target : List Level        -- levels of this frame
  dwell : List OutNo         -- outputs on VMID now
  dwell0 : Nat
  dwellLen : Nat
deriving DecidableEq, Repr, Inhabited

/-- Drive registers that are not staged, and the sequencer's frame state. -/
structure Drive where
  dcbSel : Word
  dcb : List (BitVec 16)     -- 288 accumulators
  frames : Option Frames     -- none: the frame clock stands
  stopped : Nat              -- edge count on which the frame clock last stopped, every output going to VCOM
  last : List Level          -- levels before that
  changed : List Nat         -- for each output the edge count of its last level change; a reversal's change ends with its dwell (R296)
  changed0 : List Nat        -- the same before the changes of the last edge that changed levels
  sliced : Bool              -- DRV_ACTIVE.throttled (R278)
deriving DecidableEq, Repr, Inhabited

/-- The thermal unit (spec/14). -/
structure Thermal where
  tdie : Temp
  valid : Bool               -- THM_TDIE.valid = THM_TPAN.valid
  tpan : Temp
  source : Bool
  host : Temp                -- THM_HOST.t
  arriving : Temp            -- the TEMP value that THM_HOST takes on the next edge (R244, R305)
  current : Bool             -- a TEMP value is current (R309)
  age : Nat                  -- result edges since its admission
  warn : Bool
  throttle : Bool
  wrangeOut : Bool
  cold : Bool
  rise : Int                 -- dT in 2^-11 degC (R307)
  window0 : Nat              -- edge count on which the conversion window began
  points : List (Nat × Nat × Nat)  -- set-points of VPOS and VNEG in this window, newest first, with the edge count of each change (R307)
deriving DecidableEq, Repr, Inhabited

/-- An open journal slot (R324). -/
structure OpenSlot where
  q : Nat
  seq : BitVec 24
  ring : RingNo
  index : BitVec 16
  force : Bool
  base : Nat                 -- store address of the slot: the region it was opened in (R144)
  pos : Nat                  -- next mark position (R331)
  done : Nat                 -- waveform frames of the newest complete progress mark
  chip : Bool                -- retained on chip (Table 15.5): its head is published
  wantTomb : Bool            -- a tombstone follows the intent access (R332)
  retry : Option Asker       -- a close mark or tombstone that failed (R333)
  retryPos : Nat
  cut : Option Cut           -- what interrupted its update
  replayed : Bool            -- its replay has run; the close that follows ends it
deriving DecidableEq, Repr, Inhabited

/-- The intent record of the slot being replayed, as read back (Table 15.2). -/
structure Intent where
  oldImg : List Byte
  newImg : List Byte
  sel : List Byte            -- the selection block (force = 1)
  seq : BitVec 24
  ring : RingNo
  index : BitVec 16
  force : Bool
  band : Nat
  atlas : BitVec 32
  frameLen : Nat
  tp : BitVec 8
  vpos : BitVec 9
  vneg : BitVec 9
  vcom : BitVec 10
deriving DecidableEq, Repr, Inhabited

/-- The slot that the replay works on (R336). -/
structure ReplaySlot where
  q : Nat
  intent : Option Intent
  legend : Option (List Byte)
  index : Option (List Byte)
  records : List (Nat × List Byte × Bool)
  plan : Option Plan
  run : Option Run
deriving DecidableEq, Repr, Inhabited

/-- The stages of a replay. -/
inductive ReplayStage where
  | run          -- slots one at a time
  | discharge    -- the controlled discharge after the last slot, or after a failure
  | close        -- close marks requested
deriving DecidableEq, Repr, Inhabited

/-- The replay in progress (R336). -/
structure Replay where
  todo : List Nat            -- open slots still to replay, oldest first
  cur : Option ReplaySlot
  last : Option Intent       -- the newest intent record read: its codes and modes hold between the slots (R336)
  ran : List Nat             -- slots replayed, oldest first
  stage : ReplayStage
  failed : Bool              -- R337: ends without close marks
deriving DecidableEq, Repr, Inhabited

/-- The scan in progress (R334). -/
structure Scan where
  gateOpen : Bool            -- the gate was open when it began (R78)
  bytes : List Byte          -- what it has read
deriving DecidableEq, Repr, Inhabited

/-- The journal unit (spec/15). -/
structure Journal where
  ctl : Word                 -- JNL_CTL without check
  base : Word
  size : Word
  gate : Bool                -- JNL_STATUS.checked
  scanFail : Bool
  seq : BitVec 24
  wpos : Nat
  slots : List OpenSlot
  queue : List Access        -- journal accesses in order of issue (R175)
  scan : Option Scan
  replay : Option Replay
  gateAfter : Bool           -- the gate opens when the replay is complete (R78)
  owed : Bool                -- a replay was stopped with only its closes to come: they complete it (R336)
deriving DecidableEq, Repr, Inhabited

/-- The convoy unit (spec/16). -/
structure Convoy where
  ctl : Word
  epoch : BitVec 32
  barto : Word
  barIn : Bool
  drv : Bool                 -- BAR_N held low by the engine
  voted : Bool
  wake : Bool                -- wake_latched
  high : Bool                -- BAR_N is recognised high (R345)
  lowAt : Nat                -- edge count of the last edge reported to have sampled the line low (R345)
  rel : Nat                  -- edge count of the engine's last release of BAR_N
deriving DecidableEq, Repr, Inhabited

/-- The data register that an instruction selects (Table 18.1). -/
inductive DataReg where
  | boundary | ident | bypass | segment
deriving DecidableEq, Repr, Inhabited

/-- The states of the TAP controller (R368, IEEE 1149.1). -/
inductive TapCtl where
  | testLogicReset | runTestIdle
  | selectDr | captureDr | shiftDr | exit1Dr | pauseDr | exit2Dr | updateDr
  | selectIr | captureIr | shiftIr | exit1Ir | pauseIr | exit2Ir | updateIr
deriving DecidableEq, Repr, Inhabited

/-- The test access port (spec/18). -/
structure Tap where
  ctl : TapCtl
  ir : BitVec 4
  irShift : BitVec 4
  bnd : BitVec 44            -- boundary shift stage
  bndOut : BitVec 44         -- what Update-DR has set
  byp : Bool
  id : BitVec 32
  seg : BitVec 584           -- segment-test shift stage
  drive : BitVec 292         -- segment-test drive bits
  tdo : Option Bool          -- TDO, driven only in the shift states (R368)
deriving DecidableEq, Repr, Inhabited

/-- The state of one engine and the queue of waiting commands. -/
structure State where
  pending : List Instr
  now : Nat                  -- HCK edges seen by the synchronous logic
  free : Nat                 -- free values used so far (log 10)
  wild : Option HostError    -- the host error under which the engine is unpredictable until the recovery of R7
  edge : EdgeRec
  later : List Deferred
  scNext : Word              -- SC bits that read 1 on the next edge (Table 6.1)
  scNow : Word               -- SC bits that read 1 on this edge
  pw : Power
  port : SetupPort
  tile : BitVec 16
  tileWritten : Bool
  lock : BitVec 5
  applied : Staged
  shadow : Staged
  pend : PendingCopies
  cause : Word               -- ATN_CAUSE
  enable : Word              -- ATN_ENABLE
  attn : Bool                -- ATTN_N driven low
  mem : MemPort
  rings : Vector Ring 4
  drv : Drive
  sup : Supply
  thm : Thermal
  jnl : Journal
  cnv : Convoy
  cnt : Counters
  log : List LogEntry
  overflow : BitVec 16
  tap : Tap
deriving DecidableEq, Repr, Inhabited

/-- No hardware event on this edge yet. -/
def EdgeRec.none : EdgeRec where
  cause := 0
  status := 0
  setupst := 0
  fault := 0
  cnts := []
  sats := []
  epochs := 0
  energy := 0
  wraps := 0
  wraps0 := .none
  wrapCause := false
  enableCleared := 0
  headTaken := 0
  shadow0 := .none
  shadowWrites := []
  windowApplied := false
  arbitrated := false
  dcbCleared := false
  thermal := false
  admitted := false
  noAdmit := 0
  fold := .none
  ran := 0
  committed := false
  sampled := false

/-- A window register set after power-on reset (Table 7.8). -/
def Win.reset : Win := ⟨0, 0, 0, 0⟩

/-- The staged registers after power-on reset (Tables 7.8, 7.13, 7.15, 7.17). -/
def Staged.reset : Staged where
  drive := ⟨0x30D40, 0, 1, 2, 0, Vector.replicate 4 0⟩
  supply := ⟨0x8C, 0x8C, 0, 0xF14, 0x140⟩
  window := ⟨0x28, Vector.replicate 8 Win.reset⟩
  thermal := ⟨0x283C0, 0x28410, 0x230F60, 0x40140, 0⟩

/-- A ring after reset (Table 7.11). -/
def Ring.reset : Ring where
  ctl := 0x20
  base := 0
  tailAddr := 0
  headAddr := 0
  poll := 0x10000
  head := 0
  fetch := 0
  tail := 0
  comp := 0
  bell := false
  stalled := false
  fetched := []
  fetching := .none
  issued := []
  probe := false
  timer := .none
  work := .none
  barrier := .none
  headDue := false
  stale := false
  tailRead := false
  hole := false
  syncNext := false
  marks := []
  parkHead := .none

/-- Every counter at 0 (Table 7.23). -/
def Counters.reset : Counters := ⟨0, 0, 0, 0, 0, 0, 0, 0, 0, 0⟩

/-- Clock and power state right after power-on reset is released: DORMANT, HCK stopped, RSTN high (R68). -/
def Power.reset : Power where
  st := .dormant
  por := false
  rstn := true
  hck := false
  first := true
  qual := false
  clk0 := 0
  trim := false
  strap1 := .none
  strap2 := .none
  addr := 0
  l0 := 0
  l1 := 0
  jopen := false
  sd := false
  sdClear := 0
  uvlo := false
  status := 0
  ctl := 0x10
  hccnt := 0
  busy := false
  drain := .none
  shut := false
  armed0 := 0
  off0 := 0

/-- A line at rest: released, both bus lines are high (log 49). -/
def Line.high : Line := ⟨true, true, true, 0⟩

/-- The set-up port after reset (R89, Tables 5.4, 5.5). -/
def SetupPort.reset : SetupPort where
  pinScl := true
  pinSda := true
  scl := Line.high
  sda := Line.high
  sda1 := true
  sda2 := true
  rose := false
  sclAt := 0
  fallAt := .none
  broken := false
  bits := 0
  atEnd := false
  shift := 0
  drive := .none
  sdaLow := false
  sdaWas := false
  phase := .idle
  ptr := 0
  buf := .none
  cap := .none
  ack := false
  tx := 0
  hold := .none
  setup := 0x12
  inForce := 0x12
  setupst := 0

/-- The memory port after reset (Table 7.8, Table 3.6). -/
def MemPort.reset : MemPort where
  mrdy := true
  mrdy1 := true
  mrdy2 := true
  cur := .none
  txn := .none
  parked := []
  rise := 0
  sel := 0
  lastIdle := false
  fail := 0
  failAddr := 0

/-- Supply and outputs after power-on reset (Table 7.15). -/
def Supply.reset : Supply where
  vlim := 0x7D140A0
  phase := .off
  railsUp := false
  toHeld := false
  started := false
  noPreRamp := false
  vpos := 140
  vneg := 140
  vcom := 0
  slew0 := 0
  tpos := 0
  tneg := 0
  rail0 := 0
  dac := 0
  dac0 := 0
  vposOk := false
  vnegOk := false
  vcomOk := false
  foldback := false
  limited := []
  noCheck := false
  fault := 0
  floats := 0
  near := false
  energy := 0
  energyRem := 0
  wraps := 0
  qpos := 0
  qneg := 0
  vmid := false
  lfsr := 1
  divider := 20
  swLeft := 0

/-- The sequencer after reset (Table 7.13). -/
def Drive.reset : Drive where
  dcbSel := 0
  dcb := List.replicate 288 0
  frames := .none
  stopped := 0
  last := []
  changed := List.replicate 292 0
  changed0 := List.replicate 292 0
  sliced := false

/-- The thermal unit after reset (Table 7.17). -/
def Thermal.reset : Thermal where
  tdie := 0
  valid := false
  tpan := 0
  source := false
  host := 0
  arriving := 0
  current := false
  age := 0
  warn := false
  throttle := false
  wrangeOut := false
  cold := false
  rise := 0
  window0 := 0
  points := [(0, 140, 140)]

/-- The journal unit after power-on reset (Table 7.19). -/
def Journal.reset : Journal where
  ctl := 0x20
  base := 0
  size := 1
  gate := false
  scanFail := false
  seq := 0
  wpos := 0
  slots := []
  queue := []
  scan := .none
  replay := .none
  gateAfter := false
  owed := false

/-- The convoy unit after reset (Table 7.21). -/
def Convoy.reset : Convoy where
  ctl := 1
  epoch := 0
  barto := 0
  barIn := false
  drv := false
  voted := false
  wake := false
  high := false
  lowAt := 0
  rel := 0

/-- The TAP in Test-Logic-Reset (R369). -/
def Tap.reset : Tap where
  ctl := .testLogicReset
  ir := 2
  irShift := 0
  bnd := 0
  bndOut := 0
  byp := false
  id := 0
  seg := 0
  drive := 0
  tdo := .none

/-- The machine right after power-on reset has been released (R68, Table 4.2), nothing queued. -/
def State.reset : State where
  pending := []
  now := 0
  free := 0
  wild := .none
  edge := EdgeRec.none
  later := []
  scNext := 0
  scNow := 0
  pw := Power.reset
  port := SetupPort.reset
  tile := 0
  tileWritten := false
  lock := 0
  applied := Staged.reset
  shadow := Staged.reset
  pend := ⟨.none, .none, .none, .none⟩
  cause := 0
  enable := 0x1000000
  attn := false
  mem := MemPort.reset
  rings := Vector.replicate 4 Ring.reset
  drv := Drive.reset
  sup := Supply.reset
  thm := Thermal.reset
  jnl := Journal.reset
  cnv := Convoy.reset
  cnt := Counters.reset
  log := []
  overflow := 0
  tap := Tap.reset

end Sys2Proof.Machine
end

