-- ==== Sys2Proof/Config.lean ====
section
/-! DEFINITION. What one part fixes (a constant without a value) and the free values that the spec leaves open. Nothing here has
a body, so no proof can rest on a value. -/

namespace Sys2Proof.Config

/-- The delivery: true for SKE288-FA, false for SKE288-DA (R1, R127, R373). Log 3. -/
opaque filmDelivery : Bool

/-- Energy in pJ of the logic and I/O part per hc, fixed by the trim of each part and not readable (R291). Log 8. -/
opaque logicEnergy : Nat

/-- Byte k that the bus keepers hold where no target drives the data lines (R397). Log 9. -/
opaque keeperByte : Nat → Byte

/-- The k-th free bit of a captured boundary cell (R374). Log 11. -/
opaque freeBit : Nat → Bool

/-- The status bit of rail r (0: VPOS, 1: VNEG, 2: VCOM) on the edge of count k, while the rails bleed (R285, R294). Log 10. -/
opaque bleedBit : Nat → Nat → Bool

/-- The k-th state that the engine may be found in after a host error, before the bounds of R7 are put on it. Log 5. -/
opaque anyState : Nat → Machine.State

end Sys2Proof.Config
end

