-- ==== Sys2Proof/Machine/Operands.lean ====
section
/-! DEFINITION. What the bytes and words that the engine receives and sends mean: words and doublets (spec/09), ring entries
(spec/11), atlas records (spec/12), journal records (spec/15), register addresses and the effective value of every field that
has an "acts as" rule (spec/07). Pure functions; no state. -/

namespace Sys2Proof.Machine

/-! ### Fields, words and doublets -/

/-- Field of n bits at bit lo (R10). -/
def fld (w : Word) (lo n : Nat) : Nat := (w.toNat >>> lo) % 2 ^ n

/-- Bit i (R10). -/
def bitOf (w : Word) (i : Nat) : Bool := w.getLsbD i

/-- A word with only bit i set. -/
def bitMask (i : Nat) : Word := BitVec.ofNat 36 (2 ^ i)

/-- One bit of a word from a condition. -/
def bitIf (c : Bool) (i : Nat) : Word := if c then bitMask i else 0

/-- A field value placed at bit lo. -/
def put (v : Nat) (lo : Nat) : Word := BitVec.ofNat 36 (v * 2 ^ lo)

/-- Two's complement value of an n-bit field. -/
def signed (n v : Nat) : Int := if v < 2 ^ (n - 1) then (v : Int) else (v : Int) - (2 ^ n : Nat)

/-- The little-endian number of a run of store bytes (R182). -/
def leNat : List Byte → Nat
  | [] => 0
  | b :: t => b.toNat + 256 * leNat t

/-- n store bytes of a number, little-endian (R182). -/
def bytesLE : Nat → Nat → List Byte
  | 0, _ => []
  | n + 1, v => BitVec.ofNat 8 v :: bytesLE n (v / 256)

/-- Word i of a structure: word A or B of doublet i / 2 (R182, R183). -/
def wordAt (bs : List Byte) (i : Nat) : Word :=
  BitVec.ofNat 36 (leNat ((bs.drop (9 * (i / 2))).take 9) >>> (36 * (i % 2)))

/-- The store bytes of a sequence of words; the padding word is 0 (R182 to R184). -/
def packWords : List Word → List Byte
  | [] => []
  | [a] => bytesLE 9 a.toNat
  | a :: b :: t => bytesLE 9 (a.toNat + b.toNat * 2 ^ 36) ++ packWords t

/-- Bytes that a structure of w words occupies (R183). -/
def structBytes (w : Nat) : Nat := 9 * ((w + 1) / 2)

/-- State of segment n in a state image (R189). -/
def stateOf (img : List Byte) (n : Nat) : Nat :=
  ((img.getD (n / 2) 0).toNat >>> (4 * (n % 2))) % 16

/-- Segment n in a mask image (R192). -/
def maskBit (img : List Byte) (n : Nat) : Bool := (img.getD (n / 8) 0).getLsbD (n % 8)

/-- A state image from the states of the segments (R188, R189). -/
def imageOf (st : List Nat) : List Byte :=
  (List.range 144).map fun i => BitVec.ofNat 8 (st.getD (2 * i) 0 % 16 + 16 * (st.getD (2 * i + 1) 0 % 16))

/-- A mask image from a segment set (R191, R192). -/
def maskOf (sel : List Bool) : List Byte :=
  (List.range 36).map fun i =>
    BitVec.ofNat 8 ((List.range 8).foldl (fun a k => a + (if sel.getD (8 * i + k) false then 2 ^ k else 0)) 0)

/-- Big-endian bytes of an address (R157, R158, R162). -/
def bytesBE (n v : Nat) : List Byte := (bytesLE n v).reverse

/-! ### Register addresses (spec/07) -/

/-- Register of a ring by its offset (Table 7.11). -/
def ringReg (n : RingNo) (off : Nat) : Option Reg :=
  if off = 0 then some (.ringCtl n)
  else if off = 8 then some (.ringBase n)
  else if off = 0x10 then some (.ringTail n)
  else if off = 0x18 then some (.ringHeadAddr n)
  else if off = 0x20 then some (.ringPoll n)
  else if off = 0x28 then some (.ringDoor n)
  else if off = 0x30 then some (.ringHead n)
  else if off = 0x38 then some (.ringStatus n)
  else none

/-- Register of a window by its offset (Table 7.8). -/
def winReg (n : Fin 8) (k : Nat) : Reg :=
  if k = 0 then .st (.winBase n) else if k = 1 then .st (.winSize n) else if k = 2 then .st (.winTgt n) else .st (.winCfg n)

/-- Counter by its address (Table 7.23). -/
def cntReg (a : Nat) : Option Reg :=
  if a = 0x2000 then some (.cnt .lockViol)
  else if a = 0x2008 then some (.cnt .updates)
  else if a = 0x2010 then some (.cnt .frames)
  else if a = 0x2018 then some (.cnt .replays)
  else if a = 0x2020 then some (.cnt .memFail)
  else if a = 0x2028 then some (.cnt .outFault)
  else if a = 0x2030 then some (.cnt .throttle)
  else if a = 0x2038 then some (.cnt .held)
  else if a = 0x2040 then some (.cnt .wake)
  else if a = 0x2048 then some (.cnt .tomb)
  else if a = 0x2080 then some .logStat
  else if a = 0x2088 then some .logClr
  else none

/-- Registers of the identity, power, attention and memory-port blocks (Tables 7.2 to 7.8). -/
def lowRegs : List (Nat × Reg) :=
  [(0x0000, .ident), (0x0008, .addr), (0x0010, .tileId), (0x0018, .lock), (0x0020, .commit), (0x0028, .cfgPending),
   (0x0100, .pwrState), (0x0108, .pwrStatus), (0x0110, .pwrCtl), (0x0118, .hccnt), (0x0120, .pwrReset),
   (0x0128, .pwrSetup), (0x0130, .pwrSetupst), (0x0200, .atnCause), (0x0208, .atnEnable),
   (0x0400, .st .memCtl), (0x0408, .memFail), (0x0410, .memFailAddr)]

/-- Registers of the drive and supply blocks (Tables 7.13, 7.15). -/
def midRegs : List (Nat × Reg) :=
  [(0x0C00, .st .frameLen), (0x0C08, .st .atlas), (0x0C10, .st .drvCtl), (0x0C18, .st .throttle), (0x0C20, .st .tp),
   (0x0C28, .dcbSel), (0x0C30, .dcbVal), (0x0C38, .dcbClr), (0x0C40, .active),
   (0x1000, .st .vpos), (0x1008, .st .vneg), (0x1010, .st .vcom), (0x1018, .vlim), (0x1020, .st .conv),
   (0x1028, .st .supCtl), (0x1030, .st (.gang 0)), (0x1038, .st (.gang 1)), (0x1040, .st (.gang 2)),
   (0x1048, .st (.gang 3)), (0x10A0, .energy), (0x10A8, .energyWrap), (0x10B0, .charge), (0x10B8, .supStatus)]

/-- Registers of the thermal, journal and convoy blocks (Tables 7.17, 7.19, 7.21). -/
def highRegs : List (Nat × Reg) :=
  [(0x1400, .tdie), (0x1408, .tpan), (0x1410, .st .warn), (0x1418, .st .throt), (0x1420, .st .wrange),
   (0x1428, .st .model), (0x1430, .st .thmCtl), (0x1438, .thmHost), (0x1440, .thmStatus),
   (0x1800, .jnlCtl), (0x1808, .jnlBase), (0x1810, .jnlSize), (0x1818, .jnlStatus), (0x1820, .jnlSeq), (0x1828, .jnlWpos),
   (0x1C00, .cnvCtl), (0x1C08, .epoch), (0x1C10, .cnvStatus), (0x1C18, .barto)]

/-- The registers at fixed addresses outside the rings, windows, counters, fault map and log. -/
def plainRegs : List (Nat × Reg) := lowRegs ++ midRegs ++ highRegs

/-- The register of a byte address that is a multiple of 8; none: unimplemented (R124). -/
def regAt (a : Nat) : Option Reg :=
  if 0x0500 ≤ a ∧ a < 0x0600 then some (winReg (Fin.ofNat 8 ((a - 0x0500) / 0x20)) (a % 0x20 / 8))
  else if 0x0800 ≤ a ∧ a < 0x0A00 then ringReg (Fin.ofNat 4 ((a - 0x0800) / 0x80)) (a % 0x80)
  else if 0x1050 ≤ a ∧ a ≤ 0x1090 then some (.fault (Fin.ofNat 9 ((a - 0x1050) / 8)))
  else if 0x2100 ≤ a ∧ a < 0x2200 then
    some (if a % 0x10 = 0 then .logA (Fin.ofNat 16 ((a - 0x2100) / 0x10)) else .logB (Fin.ofNat 16 ((a - 0x2100) / 0x10)))
  else if 0x2000 ≤ a then cntReg a
  else (plainRegs.find? fun p => p.1 == a).map (·.2)

/-- The register that a slot number addresses (R89). -/
def regOfSlot (slot : BitVec 13) : Option Reg := regAt (8 * slot.toNat)

/-! ### Staged registers: writable bits, group, lock -/

/-- Bits of a staged register that hold a field; the others read 0 (R16). -/
def stMask : StReg → Word
  | .memCtl => 0x3F
  | .winBase _ => 0xFFFFF000
  | .winSize _ => 0x1FFFFF
  | .winTgt _ => 0xFFFFFFFF
  | .winCfg _ => 0x7FFFFFFFF
  | .frameLen => 0xFFFFFF
  | .atlas => 0xFFFFFFFF
  | .drvCtl => 1
  | .throttle => 0xF
  | .tp => 0xFF
  | .gang _ => 0xFFFFFFFFF
  | .vpos => 0x1FF
  | .vneg => 0x1FF
  | .vcom => 0x3FF
  | .conv => 0xFFFF
  | .supCtl => 0x1F1
  | .warn => 0xFFFFF
  | .throt => 0xFFFFF
  | .wrange => 0xFFFFFF
  | .model => 0xFFFFFF
  | .thmCtl => 0xFF01

/-- The bit of ID_LOCK that locks a staged register (Tables 6.6, 7.8, 7.17). -/
def stLock : StReg → Option Nat
  | .winBase _ => some 3
  | .winSize _ => some 3
  | .winTgt _ => some 3
  | .winCfg _ => some 3
  | .wrange => some 0
  | .warn => some 1
  | .throt => some 1
  | _ => none

/-- One staged register of a copy. -/
def Staged.get (g : Staged) : StReg → Word
  | .memCtl => g.window.ctl
  | .winBase n => g.window.win[n].base
  | .winSize n => g.window.win[n].size
  | .winTgt n => g.window.win[n].tgt
  | .winCfg n => g.window.win[n].cfg
  | .frameLen => g.drive.frameLen
  | .atlas => g.drive.atlas
  | .drvCtl => g.drive.ctl
  | .throttle => g.drive.throttle
  | .tp => g.drive.tp
  | .gang j => g.drive.gang[j]
  | .vpos => g.supply.vpos
  | .vneg => g.supply.vneg
  | .vcom => g.supply.vcom
  | .conv => g.supply.conv
  | .supCtl => g.supply.ctl
  | .warn => g.thermal.warn
  | .throt => g.thermal.throt
  | .wrange => g.thermal.wrange
  | .model => g.thermal.model
  | .thmCtl => g.thermal.ctl

/-- A window of a copy changed. -/
def Staged.setWin (g : Staged) (n : Fin 8) (f : Win → Win) : Staged :=
  { g with window := { g.window with win := g.window.win.set n (f g.window.win[n]) } }

/-- One staged register of a copy written; the reserved bits read 0 (R16). -/
def Staged.put (g : Staged) (r : StReg) (value : Word) : Staged :=
  let v := value &&& stMask r
  match r with
  | .memCtl => { g with window := { g.window with ctl := v } }
  | .winBase n => g.setWin n fun w => { w with base := v }
  | .winSize n => g.setWin n fun w => { w with size := v }
  | .winTgt n => g.setWin n fun w => { w with tgt := v }
  | .winCfg n => g.setWin n fun w => { w with cfg := v }
  | .frameLen => { g with drive := { g.drive with frameLen := v } }
  | .atlas => { g with drive := { g.drive with atlas := v } }
  | .drvCtl => { g with drive := { g.drive with ctl := v } }
  | .throttle => { g with drive := { g.drive with throttle := v } }
  | .tp => { g with drive := { g.drive with tp := v } }
  | .gang j => { g with drive := { g.drive with gang := g.drive.gang.set j v } }
  | .vpos => { g with supply := { g.supply with vpos := v } }
  | .vneg => { g with supply := { g.supply with vneg := v } }
  | .vcom => { g with supply := { g.supply with vcom := v } }
  | .conv => { g with supply := { g.supply with conv := v } }
  | .supCtl => { g with supply := { g.supply with ctl := v } }
  | .warn => { g with thermal := { g.thermal with warn := v } }
  | .throt => { g with thermal := { g.thermal with throt := v } }
  | .wrange => { g with thermal := { g.thermal with wrange := v } }
  | .model => { g with thermal := { g.thermal with model := v } }
  | .thmCtl => { g with thermal := { g.thermal with ctl := v } }

/-! ### Effective values: the "acts as" rules (R125) -/

/-- A value clamped to lo..hi. -/
def clampN (lo hi v : Nat) : Nat := max lo (min hi v)

/-- A signed value clamped to lo..hi. -/
def clampZ (lo hi v : Int) : Int := max lo (min hi v)

/-- DRV_FRAME_LEN.frame_len in effect (Table 7.14). -/
def effFrameLen (w : Word) : Nat := max 1024 (fld w 0 24)

/-- DRV_THROTTLE.slices in effect. -/
def effSlices (w : Word) : Nat := clampN 2 8 (fld w 0 4)

/-- MRDY stretch bound in hc (Table 7.9). -/
def mrdyBound (ctl : Word) : Nat := 2 ^ clampN 4 20 (fld ctl 1 5)

/-- d of R149: hc in one MSCK cycle. -/
def msckDiv (ctl : Word) : Nat := if bitOf ctl 0 then 2 else 1

/-- d of R149 in effect. -/
def State.d (s : State) : Nat := msckDiv s.applied.window.ctl

/-- Window size in pages (Table 7.9). -/
def Win.pages (w : Win) : Nat := min 0x100000 (fld w.size 0 21)

/-- First store address of a window (R165). -/
def Win.first (w : Win) : Nat := fld w.base 12 20 * 4096

/-- Last store address of a window (R165). -/
def Win.last (w : Win) : Nat := min (w.first + 4096 * w.pages - 1) 0xFFFFFFFF

/-- A window matches a store address (R165). -/
def Win.hits (w : Win) (a : Nat) : Bool :=
  bitOf w.cfg 0 && decide (w.pages ≠ 0) && decide (w.first ≤ a) && decide (a ≤ w.last)

/-- The window is enabled and has pages. -/
def Win.on (w : Win) : Bool := bitOf w.cfg 0 && decide (w.pages ≠ 0)

/-- Two enabled windows overlap (R165). -/
def Win.overlaps (w v : Win) : Bool := w.on && v.on && decide (w.first ≤ v.last) && decide (v.first ≤ w.last)

/-- Target address of a store address (R165). -/
def Win.target (w : Win) (a : Nat) : Nat := (a - w.first + fld w.tgt 0 32) % 2 ^ 32

/-- Profile code: 0 S1, 1 D8, 2 H8 (Table 7.9). -/
def Win.profile (w : Win) : Nat := fld w.cfg 4 2
def Win.selCode (w : Win) : BitVec 3 := BitVec.ofNat 3 (fld w.cfg 1 3)
def Win.writable (w : Win) : Bool := bitOf w.cfg 8

/-- Write split size in bytes. -/
def Win.pageBytes (w : Win) : Nat := 2 ^ (min 8 (fld w.cfg 9 4) + 4)

/-- Status polls before failure. -/
def Win.pollMax (w : Win) : Nat := if fld w.cfg 13 8 = 0 then 256 else fld w.cfg 13 8

/-- Interval between polls of a program, in hc. -/
def Win.pollGap (w : Win) : Nat := 16 * (fld w.cfg 21 6 + 1)

/-- Address bytes in S1. -/
def Win.alen (w : Win) : Nat := fld w.cfg 27 2 + 2
def Win.latency (w : Win) : Nat := fld w.cfg 29 6

/-- A window whose profile or alen is a reserved value (R125). -/
def Win.reservedField (cfg : Word) : Bool := fld cfg 4 2 == 3 || fld cfg 27 2 == 3

/-- RINGn_CTL.size_exp. -/
def ringExp (ctl : Word) : Nat := fld ctl 4 4

/-- RINGn_POLL.interval in effect. -/
def pollInterval (w : Word) : Nat := max 256 (fld w 0 24)

/-- Effective VPOS or VNEG code: the clamp of Table 7.16 and the limit of R139. -/
def railCode (code limit : Nat) : Nat := min (min code 160) limit

/-- Effective VCOM code (Table 7.16, R139). -/
def vcomCode (raw limit : Nat) : Int :=
  clampZ (-(limit : Int)) limit (clampZ (-500) 500 (signed 10 raw))

/-- Effective swdiv. -/
def effSwdiv (conv : Word) : Nat := max 2 (fld conv 0 7)

/-- hc of one slew step (Table 7.16). -/
def slewStep (conv : Word) : Nat := 64 * (fld conv 8 8 + 1)

/-- D of R282. -/
def dwellLen (ctl : Word) : Nat := 8 * (fld ctl 4 4 + 1)

/-- A temperature field as a number of 0.125 degC. -/
def tempZ (w : Word) (lo : Nat) : Int := signed 12 (fld w lo 12)

/-- Tpan or Tdie as a number of 0.125 degC. -/
def tempInt (t : Temp) : Int := t.toInt

/-- Warning threshold in effect, 90 to 130 degC. -/
def warnT (w : Word) : Int := clampZ 720 1040 (tempZ w 0)

/-- Throttle threshold in effect, 100 to 145 degC. -/
def throtT (w : Word) : Int := clampZ 800 1160 (tempZ w 0)

/-- Hysteresis of THM_WARN and THM_THROT. -/
def hyst (w : Word) : Int := fld w 12 8

/-- Tpan lies in the write-permission range (R314). -/
def inRange (wrange : Word) (t : Temp) : Bool :=
  decide (clampZ (-320) 680 (tempZ wrange 0) ≤ tempInt t) && decide (tempInt t ≤ clampZ (-320) 680 (tempZ wrange 12))

/-- Sector size S in bytes (R321). -/
def sectorBytes (ctl : Word) : Nat := 2 ^ (min 8 (fld ctl 3 4) + 8)

/-- Region size Z in bytes (Table 7.20). -/
def regionBytes (size : Word) : Nat := 4096 * clampN 1 64 (fld size 0 7)

/-! ### Ring entries (spec/11) -/

/-- The four words of an 18-byte entry (R196). -/
def entryOf (bs : List Byte) : Entry := ⟨wordAt bs 0, wordAt bs 1, wordAt bs 2, wordAt bs 3⟩

def Entry.op (e : Entry) : Nat := fld e.w0 0 4
def Entry.tile (e : Entry) : BitVec 16 := BitVec.ofNat 16 (fld e.w0 4 16)
def Entry.all (e : Entry) : Bool := bitOf e.w0 20
def Entry.ind (e : Entry) : Bool := bitOf e.w0 21
def Entry.count (e : Entry) : Nat := fld e.w0 22 6 + 1
def Entry.flag (e : Entry) : Bool := bitOf e.w0 28
def Entry.groups (e : Entry) : BitVec 4 := BitVec.ofNat 4 (fld e.w0 28 4)
def Entry.table (e : Entry) : Nat := fld e.w3 0 32
def Entry.isUpdate (e : Entry) : Bool := e.op == 1 || e.op == 2

/-- The entry names a fragment table (R233). -/
def Entry.namesTable (e : Entry) : Bool := e.ind && (e.op == 1 || e.op == 2 || e.op == 3)

/-- The entry runs here (R234). -/
def Entry.runsHere (e : Entry) (tile : BitVec 16) : Bool := e.all || e.tile == tile

/-- The phase bit of doublet 1 of an entry, bit 7 of its last byte (R206). -/
def phaseBit (doublet : List Byte) : Bool := (doublet.getD 8 0).getLsbD 7

/-- A fragment record of an UPDATE or CLEAR (Table 11.5). -/
def fragOf (bs : List Byte) (i : Nat) : Frag :=
  let a := wordAt bs (2 * i)
  let b := wordAt bs (2 * i + 1)
  ⟨fld a 0 9, fld a 9 9, if bitOf a 18 then some (BitVec.ofNat 32 (fld b 0 32)) else none⟩

/-- The fragments of an UPDATE or CLEAR: its table's records, or its one range (R237, Table 11.4). -/
def Entry.frags (e : Entry) (table : List Byte) : List Frag :=
  if e.ind then (List.range e.count).map (fragOf table) else [⟨fld e.w3 0 9, fld e.w3 9 9, none⟩]

/-- A range that the engine trusts (R250). -/
def Frag.trusted (f : Frag) : Bool := decide (f.first ≤ f.last) && decide (f.last ≤ 287)

/-- The segments first to last. -/
def segRange (first last : Nat) : BitVec 288 := BitVec.ofNat 288 (2 ^ (last + 1) - 2 ^ first)

/-- The segments of the ganged pairs of which set holds one segment, with the set (R238). -/
def withPartners (gangs : BitVec 144) (set : BitVec 288) : BitVec 288 :=
  (List.range 144).foldl
    (fun acc p =>
      if gangs.getLsbD p && (set.getLsbD (2 * p) || set.getLsbD (2 * p + 1)) then acc ||| segRange (2 * p) (2 * p + 1) else acc)
    set

/-- The claim of an UPDATE or CLEAR (R238). -/
def claimOf (gangs : BitVec 144) (fs : List Frag) : BitVec 288 :=
  withPartners gangs (fs.foldl (fun acc f => acc ||| segRange f.first f.last) 0)

/-- The pairs that SUP_GANG0 to SUP_GANG3 declare (Table 7.16). -/
def gangsOf (g : Vector Word 4) : BitVec 144 := g[3] ++ g[2] ++ g[1] ++ g[0]

/-- The register records of a CFG (R241). -/
def Entry.records (e : Entry) (table : List Byte) : List (Nat × Word) :=
  if e.ind then (List.range e.count).map fun i => (fld (wordAt table (2 * i)) 0 16, wordAt table (2 * i + 1))
  else [(fld e.w1 0 16, e.w2)]

/-- The staged register that a CFG record names; none is a host error (R242). -/
def recordReg (a : Nat) : Option StReg :=
  if a % 8 = 0 then (match regAt a with | some (.st r) => some r | _ => none) else none

/-! ### The atlas (spec/12) -/

def legendNb (lg : List Byte) : Nat := fld (wordAt lg 0) 0 4
def legendNs (lg : List Byte) : Nat := fld (wordAt lg 0) 4 4 + 1
def legendIdent (lg : List Byte) : Nat := fld (wordAt lg 0) 8 24
def legendIndex (lg : List Byte) : Nat := fld (wordAt lg 6) 0 32

/-- Boundary j of the legend (Table 12.1). -/
def legendBound (lg : List Byte) (j : Nat) : Int := tempZ (wordAt lg (1 + j / 3)) (12 * (j % 3))

/-- The contour band of a temperature (R260). -/
def bandOf (lg : List Byte) (t : Temp) : Nat :=
  ((List.range (legendNb lg)).filter fun j => decide (legendBound lg j ≤ tempInt t)).length

/-- First doublet of the index block of a band (R255, R185). -/
def blockFirst (ns b : Nat) : Nat := b * ns * ns / 2

/-- Store address and length of the index block of a band: whole doublets (R255, R185). -/
def blockSpan (lg : List Byte) (b : Nat) : Nat × Nat :=
  let ns := legendNs lg
  let lo := blockFirst ns b
  let hi := (b * ns * ns + ns * ns - 1) / 2
  (legendIndex lg + 9 * lo, 9 * (hi + 1 - lo))

/-- Index word (b * NS + o) * NS + n (R255). -/
def indexWord (ns b o n : Nat) : Nat := (b * ns + o) * ns + n

/-- Address of the waveform record that index word w of a block of band b names. -/
def recordAddr (block : List Byte) (ns b w : Nat) : Nat := fld (wordAt block (w - 2 * blockFirst ns b)) 0 32

/-- Words of a waveform record (R256). -/
def recordWords (bs : List Byte) : Nat := 1 + (fld (wordAt bs 0) 0 8 + 2) / 3

/-- The phases of a waveform record (R256, R257). -/
def phasesOf (bs : List Byte) : List Phase :=
  (List.range (fld (wordAt bs 0) 0 8)).map fun p =>
    let v := fld (wordAt bs (1 + p / 3)) (12 * (p % 3)) 12
    ⟨BitVec.ofNat 2 v, BitVec.ofNat 2 (v / 4), v / 16⟩

/-- Length T of a waveform (R257). -/
def waveLen (w : List Phase) : Nat := (w.map (·.frames)).sum

/-- The phase that holds waveform frame f, counted from 1 (R269). -/
def phaseAt : List Phase → Nat → Option Phase
  | [], _ => none
  | p :: t, f => if f ≤ p.frames then (if f = 0 then none else some p) else phaseAt t (f - p.frames)

/-- Output level of a 2-bit code (Table 12.3). -/
def levelOf (c : BitVec 2) : Level :=
  if c = 0 then .vcom else if c = 1 then .vpos else if c = 2 then .vneg else .float

/-- Waveform frame f ends a phase of nonzero length (R269). -/
def endsPhase : List Phase → Nat → Bool
  | [], _ => false
  | p :: t, f => if p.frames = 0 then endsPhase t f else if f = p.frames then true else if f < p.frames then false else endsPhase t (f - p.frames)

/-- Number of the phase boundaries of a waveform up to and with frame f (R269). -/
def boundariesUpTo (w : List Phase) (f : Nat) : Nat :=
  ((List.range f).filter fun i => endsPhase w (i + 1)).length

/-! ### Journal records (spec/15) -/

/-- Byte-wise XOR with 0xA5 (R328). -/
def xorCheck (bs : List Byte) : Byte := bs.foldl (· ^^^ ·) 0xA5#8

/-- Slots in a sector (R322). -/
def slotsPerSector (s : Nat) : Nat := s / 576

/-- Slots in a region (R322). -/
def slotsInRegion (s z : Nat) : Nat := z / s * slotsPerSector s

/-- Region offset of slot q (R322). -/
def slotOffset (s q : Nat) : Nat := s * (q / slotsPerSector s) + 576 * (q % slotsPerSector s)

/-- Slot number of a region offset that starts a slot. -/
def slotAt (s off : Nat) : Nat := slotsPerSector s * (off / s) + off % s / 576

/-- A record with its check in the last byte (R328); pre: bytes before it that count. -/
def sealed (pre body : List Byte) : List Byte :=
  let b := body.dropLast
  b ++ [xorCheck (pre ++ b)]

/-- A mark doublet (Table 15.3). -/
def markBytes (kind : Nat) (seq : BitVec 24) (done : Nat) : List Byte :=
  sealed [] (packWords [put kind 0 + put seq.toNat 4, put (done % 2 ^ 16) 0])

/-- A valid mark: kind, seq and done (R327, R328). -/
def parseMark (bs : List Byte) : Option (Nat × BitVec 24 × Nat) :=
  let a := wordAt bs 0
  let k := fld a 0 4
  if (k == 6 || k == 9 || k == 10) && bs.getD 8 0 == xorCheck (bs.take 8) then
    some (k, BitVec.ofNat 24 (fld a 4 24), fld (wordAt bs 1) 0 16)
  else none

/-- The header words of an intent record without the check (Table 15.2). -/
def headerWords (seq : BitVec 24) (ring : RingNo) (index : BitVec 16) (u : Update) (ident band : Nat) (tile : BitVec 16) : List Word :=
  [put 5 0 + put seq.toNat 4 + put ring.val 28,
   put index.toNat 0 + bitIf u.clear 16 + bitIf u.force 17 + put band 18,
   put (fld u.atlas 0 32) 0,
   put ident 0 + put u.tpan.toNat 24,
   put u.frameLen 0 + put u.tp.toNat 24,
   put u.vpos.toNat 0 + put u.vneg.toNat 9 + put u.vcom.toNat 18,
   put tile.toNat 0,
   put seq.toNat 0]

/-- The intent access: the selection block when force = 1, then the record (R325, R326, R328, R330). -/
def intentBytes (force : Bool) (sel oldImg newImg : List Byte) (header : List Word) : List Byte :=
  let pre := if force then sel else []
  pre ++ sealed pre (oldImg ++ newImg ++ packWords header)

/-- A valid intent record; bs: the record, sel: its selection block (R328, Table 15.2). -/
def parseIntent (sel bs : List Byte) : Option Intent :=
  let w := fun i => wordAt bs (64 + i)
  let force := bitOf (w 1) 17
  let pre := if force then sel else []
  if fld (w 0) 0 4 == 5 && fld (w 0) 4 24 == fld (w 7) 0 24 && bs.getD 323 0 == xorCheck (pre ++ bs.take 323) then
    some {
      oldImg := bs.take 144
      newImg := (bs.drop 144).take 144
      sel := pre
      seq := BitVec.ofNat 24 (fld (w 0) 4 24)
      ring := Fin.ofNat 4 (fld (w 0) 28 2)
      index := BitVec.ofNat 16 (fld (w 1) 0 16)
      force := force
      band := fld (w 1) 18 4
      atlas := BitVec.ofNat 32 (fld (w 2) 0 32)
      frameLen := fld (w 4) 0 24
      tp := BitVec.ofNat 8 (fld (w 4) 24 8)
      vpos := BitVec.ofNat 9 (fld (w 5) 0 9)
      vneg := BitVec.ofNat 9 (fld (w 5) 9 9)
      vcom := BitVec.ofNat 10 (fld (w 5) 18 10) }
  else none

/-- Sequence number a is newer than b (R329). -/
def newer (a b : BitVec 24) : Bool := decide (1 ≤ (a - b).toNat) && decide ((a - b).toNat ≤ 2 ^ 23 - 1)

end Sys2Proof.Machine
end

