-- ==== Sys2Proof/Machine/Ops.lean ====
section
/-! DEFINITION. The named operations over the state that the meanings share: causes, counters and the fault log, the rings' stop
and finish, the supply's discharge, the interruption of updates, the journal's requests. -/

namespace Sys2Proof.Machine

/-! ### Small accessors -/

/-- A test-mode instruction of Table 18.1. -/
def testMode (ir : BitVec 4) : Bool := ir == 0#4 || ir == 3#4 || ir == 4#4 || ir == 8#4

/-- The core is held in reset: power-on reset, RSTN low, or a test-mode instruction (R67, R69, R371). -/
def State.heldInReset (s : State) : Bool := s.pw.por || !s.pw.rstn || testMode s.tap.ir

/-- HCK advances the synchronous logic (R25, R68). -/
def State.ticking (s : State) : Bool := s.pw.hck && !s.heldInReset

/-- Edge number within the present clocking (R76). -/
def State.edgeNo (s : State) : Nat := s.now - s.pw.clk0

/-- The set-up port answers: HCK runs and edge 64 has come (R85). -/
def State.answering (s : State) : Bool := s.ticking && !s.pw.qual && decide (s.pw.st ≠ .dormant)

/-- A host error whose result is unpredictable (R7). The first one met is kept. -/
def State.err (s : State) (e : HostError) : State := { s with wild := s.wild.or (some e) }

/-- A ring changed. -/
def State.onRing (s : State) (n : RingNo) (f : Ring → Ring) : State := { s with rings := s.rings.set n (f s.rings[n]) }

/-- Bit n of a 4-bit set of rings. -/
def ringBit (n : RingNo) : BitVec 4 := BitVec.ofNat 4 (2 ^ n.val)

def State.onEdge (s : State) (f : EdgeRec → EdgeRec) : State := { s with edge := f s.edge }
def State.onSup (s : State) (f : Supply → Supply) : State := { s with sup := f s.sup }
def State.onPw (s : State) (f : Power → Power) : State := { s with pw := f s.pw }
def State.onJnl (s : State) (f : Journal → Journal) : State := { s with jnl := f s.jnl }
def State.onThm (s : State) (f : Thermal → Thermal) : State := { s with thm := f s.thm }
def State.onCnv (s : State) (f : Convoy → Convoy) : State := { s with cnv := f s.cnv }
def State.onMem (s : State) (f : MemPort → MemPort) : State := { s with mem := f s.mem }
def State.onPort (s : State) (f : SetupPort → SetupPort) : State := { s with port := f s.port }
def State.onDrv (s : State) (f : Drive → Drive) : State := { s with drv := f s.drv }
def State.goTo (s : State) (st : EngState) : State := s.onPw fun p => { p with st := st }

/-- An effect put one edge later. -/
def State.defer (s : State) (d : Deferred) : State := { s with later := s.later ++ [d] }

/-! ### Attention, counters, fault log (R129, R146, R147) -/

/-- Hardware sets bits of ATN_CAUSE (R129, R119). -/
def State.setCause (s : State) (m : Word) : State :=
  { s with cause := s.cause ||| m, edge := { s.edge with cause := s.edge.cause ||| m } }

/-- Hardware sets bits of PWR_STATUS, with the same cause (Tables 2.6, 7.7). -/
def State.setStatus (s : State) (m : Word) : State :=
  ({ s with
      pw := { s.pw with status := s.pw.status ||| m }
      edge := { s.edge with status := s.edge.status ||| m } }).setCause m

/-- Hardware sets bits of PWR_SETUPST; setup_err is the cause (R92, R103, Table 7.7). -/
def State.setSetupst (s : State) (m : Word) : State :=
  ({ s with
      port := { s.port with setupst := s.port.setupst ||| m }
      edge := { s.edge with setupst := s.edge.setupst ||| m } }).setCause (bitMask 13)

/-- The maximum of a counter (Table 7.23). -/
def Cnt.max : Cnt → Word
  | .updates => 0xFFFFFFFFF
  | .frames => 0xFFFFFFFFF
  | _ => 0xFFFF

def Counters.get (c : Counters) : Cnt → Word
  | .lockViol => c.lockViol
  | .updates => c.updates
  | .frames => c.frames
  | .replays => c.replays
  | .memFail => c.memFail
  | .outFault => c.outFault
  | .throttle => c.throttle
  | .held => c.held
  | .wake => c.wake
  | .tomb => c.tomb

def Counters.put (c : Counters) (k : Cnt) (v : Word) : Counters :=
  match k with
  | .lockViol => { c with lockViol := v }
  | .updates => { c with updates := v }
  | .frames => { c with frames := v }
  | .replays => { c with replays := v }
  | .memFail => { c with memFail := v }
  | .outFault => { c with outFault := v }
  | .throttle => { c with throttle := v }
  | .held => { c with held := v }
  | .wake => { c with wake := v }
  | .tomb => { c with tomb := v }

/-- k more, saturating at the maximum. -/
def satAdd (max v : Word) (k : Nat) : Word := if max.toNat ≤ v.toNat + k then max else BitVec.ofNat 36 (v.toNat + k)

/-- A counter with a new value; cnt_sat when an event leaves it at its maximum (R146). -/
def State.putCnt (s : State) (c : Cnt) (v : Word) (event : Bool) : State :=
  let s := { s with cnt := s.cnt.put c v }
  if event && v == c.max then s.setCause (bitMask 25) else s

/-- One event of a counter (R146); the edge notes which counter sets cnt_sat, since a write of this edge may take that back (R119). -/
def State.count (s : State) (c : Cnt) : State :=
  let v := satAdd c.max (s.cnt.get c) 1
  let sats := if v == c.max && (!bitOf s.cause 25 || !s.edge.sats.isEmpty) then c :: s.edge.sats else s.edge.sats
  (s.onEdge fun e => { e with cnts := c :: e.cnts, sats := sats }).putCnt c v true

/-- A fault log entry with its stamp (Tables 7.24, 7.25, R147). -/
def State.log_ (s : State) (code detail : Nat) (ring : RingNo) (index : Nat) : State :=
  if s.log.length < 16 then
    { s with log := s.log ++ [⟨put code 0 + put (detail % 256) 8 + put ring.val 16 + put (index % 2 ^ 16) 18, s.pw.hccnt⟩] }
  else
    ({ s with overflow := if s.overflow = 0xFFFF then s.overflow else s.overflow + 1 }).setCause (bitMask 14)

/-! ### Rings: finishing, stopping, failing (spec/10) -/

/-- The completion point after entry index has finished: never back, and never past an entry discarded unfinished (R198, R265). -/
def Ring.compAfter (r : Ring) (index : BitVec 16) : BitVec 16 :=
  if !r.hole && decide (0 < (index + 1 - r.comp).toNat) && decide ((index + 1 - r.comp).toNat < 2 ^ 15) then index + 1 else r.comp

/-- The entry of ring n finishes: running clears and the completion point moves past it (R220, R221). -/
def State.finishEntry (s : State) (n : RingNo) (index : BitVec 16) : State :=
  (s.onRing n fun r =>
    { r with work := none, comp := r.compAfter index, headDue := r.headDue || decide (r.compAfter index ≠ r.comp) }).onEdge
    fun e => { e with noAdmit := e.noAdmit ||| ringBit n }

/-- The asker serves a ring's fetching or its run-ahead (R225). -/
def Asker.isFetch : Asker → Bool
  | .tail => true
  | .probe => true
  | .entry => true
  | .table => true
  | .aheadLegend _ => true
  | .aheadIndex _ => true
  | _ => false

/-- The asker reads the ring's next entry: its tail word, a probe, the entry or its fragment table. -/
def Asker.isNextRead : Asker → Bool
  | .tail => true
  | .probe => true
  | .entry => true
  | .table => true
  | _ => false

/-- The asker reads for an admitted update (R264). -/
def Asker.isUpdateRead : Asker → Bool
  | .oldImage => true
  | .newImage => true
  | .mask => true
  | .legend => true
  | .index => true
  | .record _ => true
  | .recordRest _ => true
  | _ => false

/-- The asker reads for a replay (R336). -/
def Asker.isReplay : Asker → Bool
  | .replayIntent => true
  | .replayLegend => true
  | .replayIndex => true
  | .replayRecord _ => true
  | .replayRest _ => true
  | _ => false

/-- Reads of ring n that meet p are dropped: an open transaction runs to its end and its data are discarded (R225, R174). -/
def State.dropReads (s : State) (n : RingNo) (p : Asker → Bool) : State :=
  s.onMem fun m =>
    { m with
      cur := m.cur.map fun o => if decide (o.acc.ring = n) && p o.acc.asker then { o with drop := true } else o
      parked := m.parked.filter fun o => !(decide (o.acc.ring = n) && p o.acc.asker) }

/-! #### The journal's marks (R330, R331) -/

/-- User 4, priority 1: an access of the journal unit (Tables 7.9, 8.5). -/
def jnlAccess (asker : Asker) (ring : RingNo) (index : BitVec 16) (addr len slot : Nat) (write : Bool) (data : List Byte) : Access where
  asker := asker
  user := 4
  ring := ring
  prio := 1
  addr := addr
  len := len
  write := write
  data := data
  index := index
  slot := slot

def State.findSlot (s : State) (q : Nat) : Option OpenSlot := s.jnl.slots.find? fun o => o.q == q

def State.onSlot (s : State) (q : Nat) (f : OpenSlot → OpenSlot) : State :=
  s.onJnl fun j => { j with slots := j.slots.map fun o => if o.q == q then f o else o }

def State.enqueue (s : State) (a : Access) : State := s.onJnl fun j => { j with queue := j.queue ++ [a] }

/-- Kind of a mark (Table 15.3). -/
def markKind : Asker → Nat
  | .progress _ => 6
  | .close => 9
  | _ => 10

def markDone : Asker → Nat
  | .progress d => d
  | _ => 0

/-- The write of a mark at a position of slot o (R327, R331). -/
def markAccess (o : OpenSlot) (kind : Asker) (pos : Nat) : Access :=
  jnlAccess kind o.ring o.index (o.base + 360 + 9 * pos) 9 o.q true (markBytes (markKind kind) o.seq (markDone kind))

/-- A mark is requested at the slot's next position; a close or a tombstone never above 23, a progress mark never above 22
(R330, R331). -/
def State.requestMark (s : State) (q : Nat) (kind : Asker) : State :=
  match s.findSlot q with
  | none => s
  | some o =>
    match kind with
    | .progress _ =>
      if 22 < o.pos then s
      else (s.enqueue (markAccess o kind o.pos)).onSlot q fun x => { x with pos := x.pos + 1 }
    | _ => (s.enqueue (markAccess o kind (min 23 o.pos))).onSlot q fun x => { x with pos := min 23 x.pos + 1 }

/-- The intent access of slot q is requested and not complete. -/
def State.intentOpen (s : State) (q : Nat) : Bool :=
  (s.jnl.queue.any fun a => a.slot == q && (a.asker == .intent || a.asker == .erase)) ||
    (match s.mem.cur with
     | some o => o.acc.slot == q && (o.acc.asker == .intent || o.acc.asker == .erase)
     | none => false)

/-- A tombstone for slot q, once its intent access is complete (R332). -/
def State.tombstone (s : State) (q : Nat) : State :=
  let s := s.onSlot q fun o => { o with wantTomb := true }
  if s.intentOpen q then s else s.requestMark q .tomb

/-- An admitted update is discarded before frame 1: running clears, no head passes it, and a tombstone follows an intent that is
written or in progress (R225, R265, R287, R332). -/
def State.discardUpdate (s : State) (n : RingNo) : State :=
  match s.rings[n].work with
  | some (_, .update u) =>
    let s := (s.onRing n fun r => { r with work := none, hole := true }).dropReads n Asker.isUpdateRead
    match u.slot with
    | some q => s.tombstone q
    | none => s
  | _ => s

/-- Frame 1 of the update has not started (R225). -/
def Stage.unstarted : Stage → Bool
  | .reads => true
  | .waitIntent => true
  | .intent => true
  | .ready => true
  | _ => false

def Ring.update? (r : Ring) : Option (BitVec 16 × Update) :=
  match r.work with
  | some (i, .update u) => some (i, u)
  | _ => none

def State.onUpdate (s : State) (n : RingNo) (f : Update → Update) : State :=
  s.onRing n fun r => match r.work with
    | some (i, .update u) => { r with work := some (i, .update (f u)) }
    | _ => r

/-- The actions of R225 and R246 on a ring that stops. -/
def State.stopRing (s : State) (n : RingNo) : State :=
  let s := (s.onRing n fun r =>
    { r with bell := false, fetching := .none, fetched := [], probe := false, timer := none, barrier := none, syncNext := false }).dropReads n Asker.isFetch
  match s.rings[n].update? with
  | some (_, u) => if u.stage.unstarted then s.discardUpdate n else s.onUpdate n fun u => { u with gated := false }
  | none => s

/-- RINGn_CTL.enable. -/
def Ring.enabled (r : Ring) : Bool := bitOf r.ctl 0
def Ring.phaseMode (r : Ring) : Bool := bitOf r.ctl 1
def Ring.hard (r : Ring) : Bool := bitOf r.ctl 2

/-- A fetch of ring n fails: ring_stop is set; a soft ring is disabled, a hard one stalls, and a read of its next entry that is
open gives nothing more: what it has fetched runs on (R135, R224). The log entry is that of the failure. -/
def State.fetchFailure (s : State) (n : RingNo) : State :=
  let s := s.setCause (bitMask (20 + n.val))
  if s.rings[n].hard then (s.onRing n fun r => { r with stalled := true, fetching := .none, probe := false }).dropReads n Asker.isNextRead
  else
    ((s.onRing n fun r => { r with ctl := r.ctl &&& ~~~(1#36) }).onEdge
      fun e => { e with enableCleared := e.enableCleared ||| ringBit n }).stopRing n

/-! ### Staged groups (R113) -/

/-- Mode bits of ID_CFG_PENDING. -/
def PendingCopies.bits (p : PendingCopies) : BitVec 4 :=
  BitVec.ofNat 4 ((if p.drive.isSome then 1 else 0) + (if p.supply.isSome then 2 else 0) + (if p.window.isSome then 4 else 0) +
    (if p.thermal.isSome then 8 else 0))

/-- A commit of the groups named, from the shadow copies given (R113, R114). -/
def State.commit (s : State) (groups : BitVec 4) (from_ : Staged) : State :=
  { s with pend :=
    { drive := if groups.getLsbD 0 then some ⟨from_.drive, s.now⟩ else s.pend.drive
      supply := if groups.getLsbD 1 then some ⟨from_.supply, s.now⟩ else s.pend.supply
      window := if groups.getLsbD 2 then some ⟨from_.window, s.now⟩ else s.pend.window
      thermal := if groups.getLsbD 3 then some ⟨from_.thermal, s.now⟩ else s.pend.thermal } }

/-- The drive group applies, if its commit lies on an earlier edge (R113). -/
def State.applyDrive (s : State) : State :=
  match s.pend.drive with
  | some p => if p.at0 < s.now then { s with applied := { s.applied with drive := p.val }, pend := { s.pend with drive := none } } else s
  | none => s

/-- DRV_ATLAS.base has moved: records read ahead under another base are not used (R258). -/
def State.checkAhead (s : State) : State :=
  { s with rings := s.rings.map fun r =>
      { r with fetched := r.fetched.map fun f =>
          if f.ahead.atlas == s.applied.drive.atlas then f else { f with ahead := { f.ahead with dead := true } } } }

/-! ### Supply (spec/13) -/

/-- Foldback ends when the count has fallen to 8 (R299). -/
def State.endFoldback (s : State) : State :=
  if s.sup.foldback && decide (s.sup.limited.length ≤ 8) then s.onSup fun u => { u with foldback := false } else s

/-- Limit of VPOS, VNEG and VCOM (R139). -/
def vposMax (v : Word) : Nat := fld v 0 9
def vnegMax (v : Word) : Nat := fld v 9 9
def vcomMax (v : Word) : Nat := fld v 18 9

/-- The recorded intent in force until RECOVERY ends: that of the slot in replay, otherwise that of the one before (R336). -/
def Journal.replayIntent (j : Journal) : Option Intent := j.replay.bind fun r => (r.cur.bind (·.intent)).or r.last

/-- The codes the rails are to have: the recorded ones in a replay, the applied ones otherwise, each limited (R139, R336). -/
def State.railTargets (s : State) : Nat × Nat × Int :=
  match s.jnl.replayIntent with
  | some i =>
    (railCode i.vpos.toNat (vposMax s.sup.vlim), railCode i.vneg.toNat (vnegMax s.sup.vlim), vcomCode i.vcom.toNat (vcomMax s.sup.vlim))
  | none =>
    (railCode (fld s.applied.supply.vpos 0 9) (vposMax s.sup.vlim), railCode (fld s.applied.supply.vneg 0 9) (vnegMax s.sup.vlim),
     vcomCode (fld s.applied.supply.vcom 0 10) (vcomMax s.sup.vlim))

/-- Every set-point in effect has its target. -/
def State.settled (s : State) : Bool :=
  decide (s.sup.vpos = s.railTargets.1) && decide (s.sup.vneg = s.railTargets.2.1) && decide (s.sup.vcom = s.railTargets.2.2)

/-- The set-points in effect; the thermal unit keeps those of its window (R288, R307). -/
def State.setPoints (s : State) (vpos vneg : Nat) (vcom : Int) : State :=
  (s.onSup fun u => { u with vpos := vpos, vneg := vneg, vcom := vcom }).onThm fun t => { t with points := (s.now, vpos, vneg) :: t.points }

/-- The set-points take their targets at once: the rails are off. -/
def State.takeTargets (s : State) : State := s.setPoints s.railTargets.1 s.railTargets.2.1 s.railTargets.2.2

/-- A committed supply group takes its values on the edge after the commit; its set-points slew while the rails are up (R288). -/
def State.takeSupply (s : State) : State :=
  match s.pend.supply with
  | some p =>
    if p.at0 < s.now then
      { s with
        applied := { s.applied with supply := p.val }
        sup := { s.sup with slew0 := if s.now = p.at0 + 1 then p.at0 else s.sup.slew0 } }
    else s
  | none => s

/-- The supply group completes: at rest at once, otherwise when every set-point has its new value (R113, R288). -/
def State.completeSupply (s : State) : State :=
  let s := s.takeSupply
  match s.pend.supply with
  | some p =>
    if s.now ≤ p.at0 then s
    else if !s.sup.railsUp then { s.takeTargets with pend := { s.pend with supply := none } }
    else if s.settled then { s with pend := { s.pend with supply := none } }
    else s
  | none => if s.sup.railsUp then s else s.takeTargets

/-- Outputs and rails once both rails are within 0.5 V of ground (R294 step 4); no clock is needed (R25). -/
def State.railsOff (s : State) : State :=
  s.onSup fun u =>
    { u with
      phase := .off, railsUp := false, started := false, tpos := 0, tneg := 0, dac := 0, vposOk := false, vnegOk := false, vcomOk := false,
      foldback := false, limited := [], vmid := false, swLeft := 0 }

/-- A controlled discharge begins on this edge: every output to VCOM, no dwell goes on (R294, step 1). -/
def State.startDischarge (s : State) : State :=
  (s.onSup fun u => { u with phase := .discharge s.now u.dac.natAbs 0 }).onDrv fun d => { d with frames := none, sliced := false }

/-- The immediate discharge of Table 2.9, rows 3 and 4; a sequencing has switched nothing and just ends (R295, R286). -/
def State.fastDischarge (s : State) : State :=
  let s := s.onDrv fun d => { d with frames := none, sliced := false }
  if !s.sup.railsUp then s
  else match s.sup.phase with
    | .off => s
    | .sequencing _ => s.onSup fun u => { u with phase := .off, railsUp := false }
    | _ => s.onSup fun u =>
        { u with
          phase := .fast, dac := 0, tpos := 0, tneg := 0, vposOk := false, vnegOk := false, vcomOk := false, foldback := false, limited := [],
          vmid := false, swLeft := 0, toHeld := false, near := u.near && decide (u.phase = .fast) }

/-- Energy drawn on this edge, in pJ: whole microjoules go to SUP_ENERGY, which wraps into SUP_ENERGY_WRAP (R141, R291). -/
def State.addEnergy (s : State) (pj : Nat) : State :=
  let total := s.sup.energyRem + pj
  let uj := total / 1000000
  let sum := s.sup.energy.toNat + uj
  let w := sum / 2 ^ 36
  let s := { s with
    sup := { s.sup with
      energyRem := total % 1000000
      energy := BitVec.ofNat 36 sum
      wraps := satAdd 0xFF s.sup.wraps w }
    edge := { s.edge with
      energy := s.edge.energy + uj
      wraps := s.edge.wraps + w
      wraps0 := s.edge.wraps0.or (some s.sup.wraps)
      wrapCause := s.edge.wrapCause || (decide (w ≠ 0) && !bitOf s.cause 15) } }
  s.setCause (if w = 0 then 0 else bitMask 15)

/-! ### Interruption and abandonment (R46, R396) -/

/-- Log code of an abandonment (Table 7.25). -/
def Cut.code : Cut → Nat
  | .clockLoss => 1
  | .shutdown => 2
  | .uvlo => 3
  | .functionReset => 4

/-- An interruption hits the update: frame 1 has started and it has not finished, or its intent write has been requested (R396,
Table 10.2). A close mark already requested goes on, and ends the slot before its turn in the replay (R42, R175). -/
def Update.interruptible (u : Update) : Bool :=
  match u.stage with
  | .running _ => true
  | .intent => true
  | .ready => u.slot.isSome
  | .closing => true
  | _ => false

/-- Ring n's update is interrupted (R396). -/
def State.interruptRing (s : State) (c : Cut) (n : RingNo) : State :=
  match s.rings[n].update? with
  | some (_, u) =>
    if u.interruptible then
      let s := (s.onUpdate n fun u => { u with stage := .cut c, gated := false })
      match u.slot with
      | some q => s.onSlot q fun o => { o with cut := some c }
      | none => s
    else s
  | none => s

/-- Every running update is interrupted. -/
def State.interruptAll (s : State) (c : Cut) : State := (List.finRange 4).foldl (fun s n => s.interruptRing c n) s

/-- A non-journaled interrupted update is abandoned: status, log, and it counts as done for head publication (R46). p: of which
interruptions. -/
def State.abandonRing (s : State) (p : Cut → Bool) (n : RingNo) : State :=
  match s.rings[n].update? with
  | some (i, u) =>
    match u.stage with
    | .cut c =>
      if u.slot.isSome || !p c then s
      else ((s.setStatus (bitMask 2)).log_ c.code 0 n i.toNat).finishEntry n i
    | _ => s
  | none => s

/-- Every abandonment of one edge, from ring 0 up (DESIGN CHOICE, log 42). -/
def State.abandonCut (s : State) (p : Cut → Bool) : State := (List.finRange 4).foldl (fun s n => s.abandonRing p n) s

def State.abandonAll (s : State) : State := s.abandonCut fun _ => true

/-- A barrier is dropped; a gated update goes on without it (R348, R349). -/
def State.dropBarrier (s : State) (n : RingNo) : State :=
  (s.onRing n fun r => { r with barrier := none }).onUpdate n fun u => { u with gated := false }

def State.dropBarriers (s : State) : State := (List.finRange 4).foldl (fun s n => s.dropBarrier n) s

/-! ### Replay: the list of slots (R335, R336) -/

/-- A close mark or tombstone of slot q is on its way, or to be tried again (R333). -/
def State.closeOpen (s : State) (q : Nat) : Bool :=
  (match s.findSlot q with | some o => o.retry.isSome | none => false) || (s.jnl.queue.any fun a => a.slot == q && (a.asker == .close || a.asker == .tomb)) ||
    (match s.mem.cur with
     | some o => o.acc.slot == q && (o.acc.asker == .close || o.acc.asker == .tomb)
     | none => false)

/-- Inserts a slot in ascending order of seq (R329). -/
def insertBySeq (o : OpenSlot) : List OpenSlot → List OpenSlot
  | [] => [o]
  | x :: t => if newer x.seq o.seq then o :: x :: t else x :: insertBySeq o t

/-- The open slots that a replay takes, oldest first: not those that a tombstone ends, or that a replay has driven to their close. -/
def State.replayList (s : State) : List Nat :=
  (((s.jnl.slots.filter fun o => !o.wantTomb && !(o.replayed && s.closeOpen o.q)).foldl (fun acc o => insertBySeq o acc) []).map (·.q))

def ReplaySlot.fresh (q : Nat) : ReplaySlot := ⟨q, none, none, none, [], none, none⟩

/-- The slot that the replay works on, while slots are run. -/
def Journal.replayCur (j : Journal) : Option ReplaySlot :=
  match j.replay with
  | some r => (match r.stage with | .run => r.cur | _ => none)
  | none => none

/-- The replay's read of its slot's intent record is issued, with the selection block when force = 1 (R336). -/
def State.askIntent (s : State) : State :=
  match s.jnl.replayCur with
  | some c =>
    (match s.findSlot c.q with
     | some o =>
       s.enqueue (jnlAccess .replayIntent o.ring o.index (if o.force then o.base else o.base + 36) (if o.force then 360 else 324) o.q false [])
     | none => s)
  | none => s

/-- RECOVERY begins and takes the first slot (R336). -/
def State.startReplay (s : State) : State :=
  let l := s.replayList
  ((s.goTo .recovery).onJnl fun j =>
    { j with
      owed := false
      slots := j.slots.map fun o => { o with replayed := o.replayed && s.closeOpen o.q }
      replay := some ⟨l.tail, l.head?.map ReplaySlot.fresh, none, [], .run, false⟩ }).askIntent

/-- The replay in progress ends without its closes: another interruption, or a reset (R336, Table 4.4). One that has requested its closes
is complete when they are. -/
def State.stopReplay (s : State) : State :=
  { s with
    jnl := { s.jnl with
      replay := none
      queue := s.jnl.queue.filter fun a => !a.asker.isReplay
      owed := match s.jnl.replay with | some r => decide (r.stage = .close) && !r.failed | none => s.jnl.owed }
    mem := { s.mem with
      cur := s.mem.cur.map fun o => if o.acc.asker.isReplay then { o with drop := true } else o
      parked := s.mem.parked.filter fun o => !o.acc.asker.isReplay } }

/-- The replay is complete: its cause, and the gate that has waited for it (R78, Table 7.7). -/
def State.replayOver (s : State) : State :=
  let s := (s.setCause (bitMask 8)).onJnl fun j => { j with owed := false }
  if s.jnl.gateAfter then s.onJnl fun j => { j with gate := true, gateAfter := false } else s

/-- RECOVERY or IDLE according to the journal-open flag (Table 2.4). Where the closes of a replay that was stopped have come through
meanwhile, that replay is complete. -/
def State.resume (s : State) : State :=
  if s.pw.jopen then s.startReplay else if s.jnl.gateAfter || s.jnl.owed then (s.goTo .idle).replayOver else s.goTo .idle

/-- The journal-open flag clears when no slot is open (R39). -/
def State.updateOpen (s : State) : State := if s.jnl.slots.isEmpty then s.onPw fun p => { p with jopen := false } else s

end Sys2Proof.Machine
end

