-- ==== Sys2Proof/Machine/Requests.lean ====
section
/-! DEFINITION. The memory accesses that the units request at this moment: the candidates of the arbitration (R173, Table 8.5),
derived from the units' state; and what an update's or a replay's reads give: selected segments, records, plan. -/

namespace Sys2Proof.Machine

/-! ### Fetching (spec/10) -/

/-- A journaled update that VIN undervoltage has interrupted in a state that it does not change waits for VIN and its replay (R75,
R335; log 20). -/
def State.replayOwed (s : State) : Bool :=
  (decide (s.pw.st = .idle) || decide (s.pw.st = .held)) && s.pw.jopen && s.rings.toList.any fun r => match r.update? with
    | some (_, u) => decide (u.stage = .cut .uvlo) && u.slot.isSome
    | none => false

/-- Fetching and probing are permitted for ring n (R216, R335). -/
def State.fetchOk (s : State) (n : RingNo) : Bool :=
  s.rings[n].enabled && !s.rings[n].stalled && s.jnl.gate && !s.pw.busy && !s.replayOwed &&
    match s.pw.st with
    | .idle => true
    | .armed => true
    | .driving => true
    | .held => true
    | .parking => true
    | _ => false

/-- A started access of ring n that meets p and whose data count is outstanding. -/
def State.outstanding (s : State) (n : RingNo) (p : Asker → Bool) : Bool :=
  let hit := fun (o : OpenAccess) => decide (o.acc.ring = n) && p o.acc.asker && !o.drop
  (match s.mem.cur with | some o => hit o | none => false) || s.mem.parked.any hit

/-- A read that fetches the next entry. -/
def Asker.isEntryRead : Asker → Bool
  | .probe => true
  | .entry => true
  | .table => true
  | _ => false

/-- A read for a ring or an update; index: the ring entry that it serves. -/
def readAccess (asker : Asker) (user : BitVec 3) (n : RingNo) (index : BitVec 16) (prio addr len : Nat) : Access where
  asker := asker
  user := user
  ring := n
  prio := prio
  addr := addr
  len := len
  write := false
  data := []
  index := index
  slot := 0

/-- Store address of the slot of an index (R196, R197). -/
def Ring.slotAddr (r : Ring) (i : BitVec 16) : Nat := fld r.base 0 32 + 18 * (i.toNat % 2 ^ ringExp r.ctl)

/-- The lap bit of an index (R197). -/
def Ring.lap (r : Ring) (i : BitVec 16) : Bool := i.getLsbD (ringExp r.ctl)

/-- Priority of an entry read and its table: 4 for the ring's oldest unadmitted entry, so while it has no fetched one (R211). -/
def Ring.fetchPrio (r : Ring) : Nat := if r.fetched.isEmpty then 4 else 5

/-- The tail read of ring n (R203), at priority 4 whatever the ring has fetched (R211; log 24). -/
def State.tailRequest (s : State) (n : RingNo) : Option Access :=
  let r := s.rings[n]
  if s.fetchOk n && !r.phaseMode && r.bell && !s.outstanding n (· == .tail) then
    some (readAccess .tail 0 n r.fetch 4 (fld r.tailAddr 0 32) 9)
  else none

/-- The probe, at priority 4, the entry read or table read of ring n (R205, R208, R209, R211, R214). -/
def State.entryRequest (s : State) (n : RingNo) : Option Access :=
  let r := s.rings[n]
  if !s.fetchOk n || s.outstanding n Asker.isEntryRead then none
  else match r.fetching with
    | .table e => some (readAccess .table 1 n r.fetch r.fetchPrio e.table (9 * e.count))
    | .entry => some (readAccess .entry 0 n r.fetch r.fetchPrio (r.slotAddr r.fetch) 18)
    | .none =>
      if r.phaseMode then
        if (r.probe || r.bell) && decide (r.fetched.length < 4) then some (readAccess .probe 0 n r.fetch 4 (r.slotAddr r.fetch + 9) 9)
        else none
      else if r.tail ≠ r.fetch ∧ r.fetched.length < 4 then some (readAccess .entry 0 n r.fetch r.fetchPrio (r.slotAddr r.fetch) 18)
      else none

/-- The next atlas read ahead for a fetched entry (R210, R258). -/
def State.aheadRequest (s : State) (n : RingNo) (f : Fetched) : Option Access :=
  if !(f.runsHere && f.entry.isUpdate) || f.ahead.dead then none
  else match f.ahead.legend with
    | none =>
      if s.outstanding n (· == .aheadLegend f.index) then none
      else some (readAccess (.aheadLegend f.index) 2 n f.index 5 (fld f.ahead.atlas 0 32) 36)
    | some lg =>
      if f.ahead.index.isSome || s.outstanding n (· == .aheadIndex f.index) then none
      else
        let (off, len) := blockSpan lg (bandOf lg f.ahead.tpan)
        some (readAccess (.aheadIndex f.index) 2 n f.index 5 off len)

/-- The reads that ring n requests for entries not admitted; those that begin on one edge in the order atlas, tail, entry (log 24). -/
def State.ringRequests (s : State) (n : RingNo) : List Access :=
  (if s.fetchOk n then s.rings[n].fetched.filterMap (s.aheadRequest n) else []) ++ (s.tailRequest n).toList ++ (s.entryRequest n).toList

/-- Ring n's requests in order of issue (R173, R175). -/
def State.ringQueue (s : State) (n : RingNo) : List Access :=
  let rs := s.ringRequests n
  let old := s.rings[n].issued
  (old.filterMap fun k => rs.find? fun a => a.asker == k) ++ rs.filter fun a => !old.contains a.asker

/-- The order of issue is kept for the next edge. -/
def State.keepOrder (s : State) (n : RingNo) : State :=
  { s with rings := s.rings.set n { s.rings[n] with issued := (s.ringQueue n).map (·.asker) } }

/-! ### Selected segments, records and plan (R239, R264 to R269) -/

/-- A segment lies in the fragments, each narrowed by its mask; masks: those of the masked fragments in order (R239). -/
def inFrags : List Frag → List (List Byte) → Nat → Bool
  | [], _, _ => false
  | f :: t, ms, n =>
    let here := decide (f.first ≤ n) && decide (n ≤ f.last)
    match f.mask with
    | none => here || inFrags t ms n
    | some _ => (here && maskBit (ms.headD []) n) || inFrags t ms.tail n

/-- The segment whose selection and states segment n takes: the even one of a ganged pair (R267). -/
def rep (gangs : BitVec 144) (n : Nat) : Nat := if n % 2 = 1 ∧ gangs.getLsbD (n / 2) then n - 1 else n

def Update.selected (u : Update) : List Bool := (List.range 288).map fun n => inFrags u.frags u.masks (rep u.gangs n)

/-- New state of segment n of a CLEAR, or of an UPDATE (R236). -/
def Update.newState (u : Update) (n : Nat) : Nat :=
  if u.clear then u.state.toNat else stateOf (u.newImg.getD []) n

/-- Old and new state of every segment that is not skipped (R268). -/
def Update.moves (u : Update) : List (Option (Nat × Nat)) :=
  (List.range 288).zipWith
    (fun n sel =>
      let o := stateOf (u.oldImg.getD []) (rep u.gangs n)
      let k := u.newState (rep u.gangs n)
      if sel && (u.force || o != k) then some (o, k) else none)
    u.selected

/-- The same for a recorded update (R336). -/
def Intent.moves (i : Intent) : List (Option (Nat × Nat)) :=
  (List.range 288).map fun n =>
    let o := stateOf i.oldImg n
    let k := stateOf i.newImg n
    if o != k || (i.force && maskBit i.sel n) then some (o, k) else none

/-- A state image holds a state that the atlas does not have, be its segment selected or not (R190, Table 11.9; log 55). -/
def imageBad (ns : Nat) (img : List Byte) : Bool := (List.range 288).any fun n => decide (ns ≤ stateOf img n)

/-- The old image, or the new states, of an update hold a state that the atlas does not have (Table 11.9). -/
def Update.statesBad (u : Update) (ns : Nat) : Bool :=
  imageBad ns (u.oldImg.getD []) || (if u.clear then decide (ns ≤ u.state.toNat) else imageBad ns (u.newImg.getD []))

/-- The index words that the moves use, ascending, each once (R264, step 5). -/
def wordsOf (ns b : Nat) (moves : List (Option (Nat × Nat))) : List Nat :=
  (List.range (ns * ns)).filterMap fun i =>
    if moves.any fun m => m == some (i / ns, i % ns) then some (b * ns * ns + i) else none

/-- The waveform record of an index word, once read. -/
def findRecord (rs : List (Nat × List Byte × Bool)) (w : Nat) : Option (List Byte × Bool) :=
  (rs.find? fun r => r.1 == w).map (·.2)

/-- The next record read: the first index word without a complete record; rest: its second access (R264). -/
def nextRecord (block : List Byte) (ns b : Nat) (words : List Nat) (rs : List (Nat × List Byte × Bool)) : Option (Nat × Nat × Nat × Bool) :=
  match words.find? (fun w => match findRecord rs w with | some (_, true) => false | _ => true) with
  | none => none
  | some w =>
    let a := recordAddr block ns b w
    match findRecord rs w with
    | some (bs, _) => some (w, a + bs.length, structBytes (recordWords bs) - bs.length, true)
    | none => some (w, a, 18, false)

/-- A record read is entered: complete when its first access holds all of it (R264). -/
def addRecord (rs : List (Nat × List Byte × Bool)) (w : Nat) (bs : List Byte) : List (Nat × List Byte × Bool) :=
  rs ++ [(w, bs, decide (structBytes (recordWords bs) ≤ bs.length))]

def addRest (rs : List (Nat × List Byte × Bool)) (w : Nat) (bs : List Byte) : List (Nat × List Byte × Bool) :=
  rs.map fun r => if r.1 == w then (w, r.2.1 ++ bs, true) else r

/-- The drive: a wave for each record, the wave of each driven segment, the lead (R268, R269). -/
def planOf (ns b : Nat) (moves : List (Option (Nat × Nat))) (rs : List (Nat × List Byte × Bool)) : Plan :=
  let words := wordsOf ns b moves
  let waves := words.map fun w => match findRecord rs w with | some (bs, _) => phasesOf bs | none => []
  let seg := moves.map fun
    | some (o, k) =>
      let i := words.idxOf (indexWord ns b o k)
      if waveLen (waves.getD i []) = 0 then none else some i
    | none => none
  let lens := waves.map waveLen
  let len := seg.foldl (fun m x => match x with | some i => max m (lens.getD i 0) | none => m) 0
  let lead := (seg.findSome? fun x => match x with | some i => if lens.getD i 0 = len then some i else none | none => none).getD 0
  ⟨waves, seg, lead, len⟩

/-- Some segment is driven (R270). -/
def Plan.drives (p : Plan) : Bool := decide (p.len ≠ 0)

/-! ### The reads of an update and of a replay (R264, R336) -/

/-- The next read that an admitted update needs: asker, user, address, length; none: all are complete. -/
def Update.nextRead (u : Update) : Option (Asker × BitVec 3 × Nat × Nat) :=
  let masks := u.frags.filterMap (·.mask)
  if u.oldImg.isNone then some (.oldImage, 3, u.old.toNat, 144)
  else if !u.clear && u.newImg.isNone then some (.newImage, 3, u.new_.toNat, 144)
  else if u.masks.length < masks.length then some (.mask, 3, (masks.getD u.masks.length 0).toNat, 36)
  else match u.legend with
    | none => some (.legend, 2, fld u.atlas 0 32, 36)
    | some lg =>
      match u.index with
      | none =>
        let (off, len) := blockSpan lg (bandOf lg u.tpan)
        some (.index, 2, off, len)
      | some block =>
        match nextRecord block (legendNs lg) (bandOf lg u.tpan) (wordsOf (legendNs lg) (bandOf lg u.tpan) u.moves) u.records with
        | none => none
        | some (w, a, len, rest) => some (if rest then .recordRest w else .record w, 2, a, len)

/-- The read that ring n's admitted update requests: one at a time, and not what a run-ahead access under way brings (R394). -/
def State.updateRequest (s : State) (n : RingNo) : Option Access :=
  match s.rings[n].update? with
  | some (i, u) =>
    match u.stage with
    | .reads =>
      if s.outstanding n Asker.isUpdateRead then none
      else match u.nextRead with
        | some (.legend, user, a, len) =>
          if u.aheadTpan.isSome && s.outstanding n (· == .aheadLegend i) then none else some (readAccess .legend user n i 3 a len)
        | some (.index, user, a, len) =>
          if u.aheadTpan.isSome && s.outstanding n (· == .aheadIndex i) then none else some (readAccess .index user n i 3 a len)
        | some (k, user, a, len) => some (readAccess k user n i 3 a len)
        | none => none
    | _ => none
  | none => none

/-- The next atlas read of the slot in replay. -/
def ReplaySlot.nextRead (c : ReplaySlot) (i : Intent) : Option (Asker × Nat × Nat) :=
  match c.legend with
  | none => some (.replayLegend, i.atlas.toNat, 36)
  | some lg =>
    match c.index with
    | none =>
      let (off, len) := blockSpan lg i.band
      some (.replayIndex, off, len)
    | some block =>
      match nextRecord block (legendNs lg) i.band (wordsOf (legendNs lg) i.band i.moves) c.records with
      | none => none
      | some (w, a, len, rest) => some (if rest then .replayRest w else .replayRecord w, a, len)

def State.replayReadRequest (s : State) : Option Access :=
  match s.jnl.replayCur with
  | some c =>
    match c.intent with
    | some i =>
      if c.plan.isSome then none
      else match c.nextRead i with
        | some (k, a, len) => some (readAccess k 2 i.ring i.index 3 a len)
        | none => none
    | none => none
  | none => none

/-! ### The journal unit's accesses -/

/-- The scan's next 512 bytes are asked for (R79). -/
def State.askScan (s : State) : State :=
  match s.jnl.scan with
  | some c =>
    let z := regionBytes s.jnl.size
    if c.bytes.length < z then
      s.enqueue (jnlAccess .scan 0 0 (fld s.jnl.base 0 32 + c.bytes.length) (min 512 (z - c.bytes.length)) 0 false [])
    else s
  | none => s

/-- The journal unit's accesses that may run: none before an erase that was issued ahead of it and clears its bytes (R324; log 24). -/
def eraseFirst : List Access → List Access
  | [] => []
  | a :: l =>
    let rest := eraseFirst l
    a :: if a.asker = .erase then rest.filter fun c => !(decide (a.addr ≤ c.addr) && decide (c.addr < a.addr + a.len)) else rest

/-- The journal unit's next access: of the lowest ring, and of that ring in order of issue (R173, R175; log 24). -/
def State.journalRequest (s : State) : Option Access :=
  (List.finRange 4).findSome? fun n => (eraseFirst s.jnl.queue).find? fun a => decide (a.ring = n)

/-- A head write of the ring is under way. -/
def State.headOpen (s : State) (n : RingNo) : Bool := s.outstanding n fun | .head _ => true | _ => false

/-- A due head write of ring n, with the completion point (R221). -/
def State.headRequest (s : State) (n : RingNo) : Option Access :=
  let r := s.rings[n]
  if r.headDue && !s.headOpen n then
    some {
      asker := .head r.comp
      user := 5
      ring := n
      prio := 2
      addr := fld r.headAddr 0 32
      len := 9
      write := true
      data := packWords [put r.comp.toNat 0, 0]
      index := r.comp
      slot := 0 }
  else none

/-! ### Arbitration order (R173, R174, Table 8.5) -/

/-- The replay's next atlas read, one at a time. -/
def State.replayRequest (s : State) (n : RingNo) : Option Access :=
  if s.mem.parked.any fun o => o.acc.asker.isReplay then none else s.replayReadRequest.filter fun a => decide (a.ring = n)

/-- The accesses not yet started, of priority p, best first: by ring, then by issue. -/
def State.fresh (s : State) (p : Nat) : List Access :=
  let rings := List.finRange 4
  if p = 1 then s.journalRequest.toList
  else if p = 2 then rings.filterMap s.headRequest
  else if p = 3 then rings.flatMap fun n => (s.updateRequest n).toList ++ (s.replayRequest n).toList
  else
    rings.flatMap fun n => (s.ringQueue n).filter fun a => a.prio == p

/-- What the port would choose among priority p: a started read first (R174), then the lower ring, then the order of issue. -/
def State.choiceAt (s : State) (p : Nat) : Option (OpenAccess ⊕ Access) :=
  match (List.finRange 4).findSome? fun n => s.mem.parked.find? fun o => o.acc.prio == p && decide (o.acc.ring = n) with
  | some o => some (.inl o)
  | none => (s.fresh p).head?.map .inr

def State.choice (s : State) : Option (OpenAccess ⊕ Access) :=
  [1, 2, 3, 4, 5].findSome? s.choiceAt

/-- A memory access of some unit is requested or in progress (Table 2.5, quiet). -/
def State.memWork (s : State) : Bool := s.mem.cur.isSome || s.mem.txn.isSome || s.choice.isSome

end Sys2Proof.Machine
end

