-- ==== Sys2Proof/Machine/Frames.lean ====
section
/-! DEFINITION. What the outputs are driven to in a frame and how a frame starts (R252, R269, R273 to R278, R282); output faults
(R297, R298). -/

namespace Sys2Proof.Machine

/-- The updates that run. -/
def State.runners (s : State) : List Runner :=
  (s.rings.toList.filterMap fun r => match r.update? with
    | some (_, u) => (match u.stage, u.plan with
      | .running x, some p => some ⟨p, x⟩
      | _, _ => none)
    | none => none) ++
  (match s.jnl.replayCur with
   | some c => (match c.plan, c.run with
     | some p, some x => [⟨p, x⟩]
     | _, _ => [])
   | none => [])

/-- DRV_TP in force: the recorded one in a replay (R336). -/
def State.topModes (s : State) : Nat :=
  match s.jnl.replayIntent with
  | some i => i.tp.toNat
  | none => fld s.applied.drive.tp 0 8

/-- Frame length in force (R252, R336). -/
def State.frameLen (s : State) : Nat :=
  match s.jnl.replayIntent with
  | some i => max 1024 i.frameLen
  | none => effFrameLen s.applied.drive.frameLen

/-- Some top plane is in mode 0b01 (Table 12.5). -/
def topDriven (tp : Nat) : Bool := (List.range 4).any fun k => tp / 4 ^ k % 4 == 1

/-- Segment n is at its level in the present sub-frame (Table 12.6). -/
def sliceActive (n : Nat) (x : Run) : Bool :=
  decide (x.slices ≤ 1) || (if x.top then decide (x.sub = 0) else decide (n / 2 % x.slices = x.sub))

/-- Level that a runner gives segment n; none: the runner does not drive it (R269). -/
def Runner.level (r : Runner) (n : Nat) : Option Level :=
  match r.plan.seg.getD n none with
  | some i =>
    some (if sliceActive n r.run then
      (match phaseAt (r.plan.waves.getD i []) r.run.frame with | some p => levelOf p.seg | none => .vcom) else .vcom)
  | none => none

/-- Level of a top plane (Table 12.5, R275). -/
def topLevel (rs : List Runner) (tp k : Nat) : Level :=
  let mode := tp / 4 ^ k % 4
  if mode = 2 then .float
  else if mode = 1 then
    match rs with
    | [r] =>
      if decide (r.run.slices ≤ 1) || decide (r.run.sub = 0) || !r.run.top then
        (match phaseAt (r.plan.waves.getD r.plan.lead []) r.run.frame with | some p => levelOf p.tp | none => .vcom)
      else .vcom
    | _ => .vcom
  else .vcom

/-- The commanded level of every output in the frame that starts now; a faulted output floats (R269). -/
def State.targets (s : State) : List Level :=
  let rs := s.runners
  let tp := s.topModes
  (List.range 292).map fun m =>
    if s.sup.floats.getLsbD m then .float
    else if m < 288 then (rs.findSome? fun r => r.level m).getD .vcom
    else topLevel rs tp (m - 288)

/-- A level change that passes through VMID (R282). -/
def reversal : Level → Level → Bool
  | .vpos, .vneg => true
  | .vneg, .vpos => true
  | _, _ => false

/-- A limited output is no longer at a level of Table 13.1 that is sensed: it stops being limited on the next edge (R296). -/
def State.unsense (s : State) : State :=
  if s.sup.limited.isEmpty || s.later.contains .dropLimited then s else s.defer .dropLimited

/-- The level of output m now (Table 13.1, Table 3.6): in RECOVERY a top plane in mode 0b10 floats between the frames too (Table 12.5); in
a controlled discharge every output is at VCOM (R294, step 1), a faulted one too (DESIGN CHOICE, log 70). -/
def State.level (s : State) (m : OutNo) : Level :=
  match s.drv.frames with
  | some f => if f.dwell.contains m then .vmid else f.target.getD m.val .vcom
  | none =>
    if !s.sup.railsUp then .node
    else match s.sup.phase with
      | .up =>
        if s.sup.floats.getLsbD m.val then .float
        else if decide (s.pw.st = .recovery) && decide (288 ≤ m.val) && decide (s.topModes / 4 ^ (m.val - 288) % 4 = 2) then .float
        else .vcom
      | .discharge _ _ _ => .vcom
      | _ => .node

/-- The levels of all outputs. -/
def State.levels (s : State) : List Level := (List.finRange 292).map s.level

/-- Levels have changed on this edge, or on it already: the frame that has started, or the stop of the clock. -/
def Drive.changing (d : Drive) (e : Nat) : Bool := (match d.frames with | some f => f.start == e | none => false) || d.stopped == e

/-- The outputs go from the levels prev to t on this edge; a reversal that dwells has changed when its dwell ends (R296). -/
def State.noteChange (s : State) (prev t : List Level) (dwell : List OutNo) (len : Nat) : State :=
  s.onDrv fun d =>
    let base := if d.changing s.now then d.changed0 else d.changed
    { d with
      changed0 := base
      changed := (List.finRange 292).map fun m =>
        if prev.getD m.val .vcom = t.getD m.val .vcom then base.getD m.val 0 else s.now + (if dwell.contains m then len else 0) }

/-- The outputs of the frame that starts on this edge, from the levels prev before it. -/
def State.drive (s : State) (prev : List Level) : State :=
  let t := s.targets
  let dwell := if bitOf s.applied.supply.ctl 0 && s.sup.vmid then
      (List.finRange 292).filter fun m => reversal (prev.getD m.val .vcom) (t.getD m.val .vcom)
    else []
  let len := dwellLen s.applied.supply.ctl
  (s.unsense.noteChange prev t dwell len).onDrv fun d =>
    { d with
      frames := some ⟨s.now, s.frameLen, prev, t, dwell, s.now, len⟩
      sliced := s.runners.any fun r => decide (1 < r.run.slices) }

/-- A start edge of the frame clock: the drive group applies, the epoch and the frame count advance, the outputs follow (R252, R355). -/
def State.startFrame (s : State) (prev : List Level) : State :=
  let s := s.applyDrive.checkAhead
  let s := { s with
    cnv := { s.cnv with epoch := s.cnv.epoch + 1 }
    edge := { s.edge with epochs := s.edge.epochs + 1 }
    sup := { s.sup with started := true } }
  (s.count .frames).drive prev

/-- S of the waveform frame that starts now (R277). -/
def State.slicesNow (s : State) : Nat := if s.thm.throttle then effSlices s.applied.drive.throttle else 1

/-- Waveform frame f as it starts now (R275, R277). -/
def State.runFrom (s : State) (f : Nat) : Run := ⟨f, 0, s.slicesNow, topDriven s.topModes⟩

/-- The start of a phase releases the outputs whose fault bits have been cleared (R140). -/
def State.releaseFloats (s : State) : State := s.onSup fun u => { u with floats := u.floats &&& u.fault }

/-- The levels before the start of the frame clock on this edge: where it has stopped on the same edge, those it has just left (R282). -/
def State.levelsBefore (s : State) : List Level := if s.drv.stopped = s.now ∧ s.drv.last ≠ [] then s.drv.last else s.levels

/-- The slot in replay changed. -/
def State.onReplaySlot (s : State) (f : ReplaySlot → ReplaySlot) : State :=
  s.onJnl fun j => { j with replay := j.replay.map fun r => { r with cur := r.cur.map f } }

/-- The first replayed frame: the one after the newest progress mark (R336). -/
def State.startReplayFrame (s : State) : State :=
  match s.jnl.replayCur with
  | some c =>
    (match c.plan, c.run, s.findSlot c.q, s.drv.frames with
     | some _, none, some o, none =>
       let prev := s.levelsBefore
       let s := s.applyDrive.checkAhead.releaseFloats
       (s.onReplaySlot fun c => { c with run := some (s.runFrom (o.done + 1)) }).startFrame prev
     | _, _, _, _ => s)
  | none => s

/-- Output m is at a level at which it is sensed for current limit (Table 13.1, R296). -/
def State.sensed (s : State) (m : OutNo) : Bool :=
  match s.level m with
  | .vpos => true
  | .vneg => true
  | .vcom => true
  | _ => false

end Sys2Proof.Machine
end

