-- ==== Sys2Proof/Machine/Flags.lean ====
section
/-! DEFINITION. The derived flags: the need for the rails, PWR_STATE, DRV_ACTIVE, the BAR_N drive (spec/02, spec/07, spec/13, spec/16). -/

namespace Sys2Proof.Machine

/-! ### Need for the rails (R292, R293) -/

/-- An UPDATE or CLEAR is admitted and not finished. -/
def Ring.updating (r : Ring) : Bool := r.update?.isSome

def State.anyUpdate (s : State) : Bool := s.rings.toList.any Ring.updating

/-- An update is running: frame 1 has started and the last frame has not ended. -/
def Ring.driving (r : Ring) : Bool :=
  match r.update? with
  | some (_, u) => (match u.stage with | .running _ => true | _ => false)
  | none => false

def State.anyDriving (s : State) : Bool := s.rings.toList.any Ring.driving

/-- The ring's oldest fetched entry is imminent (R215). -/
def Ring.imminent (r : Ring) : Bool :=
  match r.fetched with
  | f :: _ => f.runsHere && f.entry.isUpdate && r.work.isNone
  | [] => false

/-- The replay's slot has waveform frames to run. -/
def State.replayNeeds (s : State) : Bool :=
  match s.jnl.replayCur with
  | some c =>
    (match c.plan, s.findSlot c.q with
     | some p, some o => decide (o.done < p.len)
     | _, _ => false)
  | none => false

/-- An admitted update needs the rails: its reads show a driven segment, or they are not complete and its own pre-ramp has asked for the
rails (R292; DEDUCED from section 20.2, log 25). -/
def State.updateNeeds (s : State) (r : Ring) : Bool :=
  match r.update? with
  | some (_, u) =>
    (match u.stage with
     | .reads => u.preRamp && decide (s.sup.phase ≠ .off)
     | .closing => false
     | .cut _ => false
     | _ => true)
  | none => false

/-- Pre-ramp may be requested: SUP_CTL.prer, not in HELD (R38), not after a timeout (R287). -/
def State.mayPreRamp (s : State) : Bool := bitOf s.applied.supply.ctl 8 && !s.sup.noPreRamp && decide (s.pw.st ≠ .held)

/-- The rails are needed (R292); an imminent entry asks for nothing in HELD (R38) or after a timeout (R287). -/
def State.needed (s : State) : Bool :=
  s.replayNeeds || s.rings.toList.any (s.updateNeeds ·) || (s.mayPreRamp && s.rings.toList.any Ring.imminent)

/-- Every ramp gate is open (R286, R318). -/
def State.gatesOpen (s : State) : Bool :=
  !s.pw.uvlo && s.thm.valid && !s.thm.cold && decide (s.pw.st ≠ .shutdown) && decide (s.pw.st ≠ .dormant)

/-- PWR_STATE.ramping (Table 2.5). A ramp that winds down or times out before regulation ends it too, on the first edge of its
discharge (DESIGN CHOICE, log 43). -/
def State.ramping (s : State) : Bool :=
  (decide (s.pw.st = .idle) || decide (s.pw.st = .held)) &&
    match s.sup.phase with
    | .sequencing _ => true
    | .ramp _ _ => true
    | _ => false

/-- The converter switches (R289). -/
def Supply.switching (u : Supply) : Bool :=
  match u.phase with
  | .ramp _ _ => true
  | .up => true
  | .discharge _ _ _ => true
  | _ => false

/-- All three rails are in regulation (R285). -/
def Supply.regulated (u : Supply) : Bool := u.vposOk && u.vnegOk && u.vcomOk

/-! ### Power state (Table 2.5) -/

/-- PWR_STATE.quiet (Table 2.5); an entry that finishes on its admission edge runs on that edge (R235). -/
def State.quiet (s : State) : Bool :=
  decide (s.edge.ran = 0) && (s.rings.toList.all fun r => r.work.isNone && r.fetched.isEmpty && !r.bell) && !s.memWork

/-- MCS_N is low: from edge F of the open transaction to its rise (R150, Table 8.1). -/
def State.mcsLow (s : State) : Bool := match s.mem.txn with | some t => decide (t.fall ≤ s.now) | none => false

/-- PWR_STATE.mbusy (Table 2.5). -/
def State.mbusy (s : State) : Bool := s.mcsLow

/-! ### The claims of R219 and the hold of R263 -/

/-- Claim of a fetched UPDATE or CLEAR with the gangs now applied (R238). -/
def State.claimOfFetched (s : State) (f : Fetched) : BitVec 288 := claimOf (gangsOf s.applied.drive.gang) (f.entry.frags f.table)

/-- The claims of the updates that are admitted and not finished, of the rings that p names. -/
def State.claims (s : State) (p : RingNo → Bool) : BitVec 288 :=
  (List.finRange 4).foldl (fun acc n => match s.rings[n].update? with
    | some (_, u) => if p n then acc ||| u.claim else acc
    | none => acc) 0

/-- Ring n's next update waits on an admitted update of another ring (R219). An update that only a waiting update of a lower ring holds back
is no waiting update itself: it holds back no other (DESIGN CHOICE, log 65). -/
def State.overlapWait (s : State) (n : RingNo) : Bool :=
  s.rings[n].imminent &&
    match s.rings[n].fetched with
    | f :: _ => decide (s.claimOfFetched f &&& s.claims (· ≠ n) ≠ 0)
    | [] => false

/-! ### Convoy (spec/16) -/

/-- Ring n's gated update is ready: admitted, its intent complete if it is journaled, and the rails in regulation; its reads may still
run (section 16.2). -/
def State.barrierReady (s : State) (n : RingNo) : Bool :=
  match s.rings[n].update? with
  | some (_, u) =>
    u.gated && s.sup.regulated &&
      (match u.stage with
       | .reads => !u.journaled
       | .ready => true
       | _ => false)
  | none => false

def State.armed (s : State) : Bool := s.rings.toList.any (·.barrier.isSome)

def State.allReady (s : State) : Bool := (List.finRange 4).all fun n => s.rings[n].barrier.isNone || s.barrierReady n

/-- The state admits entries (R216). -/
def State.admits (s : State) : Bool :=
  !s.pw.busy && !s.replayOwed &&
    match s.pw.st with
    | .idle => true
    | .armed => true
    | .driving => true
    | .held => true
    | _ => false

/-- The conditions of Table 11.3 for a PARK other than the vote. -/
def State.parkReady (s : State) (n : RingNo) : Bool :=
  s.admits && s.rings[n].work.isNone && !s.anyUpdate && (!s.sup.railsUp || decide (s.pw.st = .armed)) &&
    match s.rings[n].fetched with
    | f :: _ => f.runsHere && f.entry.op == 6
    | [] => false

def State.vote (s : State) : Bool := bitOf s.cnv.ctl 0

/-- The engine is casting (R356). -/
def State.casting (s : State) : Bool :=
  s.vote && (List.finRange 4).any fun n =>
    s.parkReady n || decide (s.rings[n].work.map (·.2) = some .park) || s.rings[n].parkHead.isSome

/-- Row 7 of Table 16.1. -/
def State.hasWork (s : State) : Bool :=
  s.sup.railsUp || !s.quiet || s.mbusy || decide (s.pw.st = .recovery) || decide (s.pw.st = .shutdown) || s.attn

/-- An armed engine that is not ready, or no longer, awaits a new recognition (R345, R346). -/
def State.dropGo (s : State) : State :=
  { s with rings := s.rings.map fun r => { r with barrier := r.barrier.map fun b => { b with go := none } } }

/-- The drive of BAR_N (Table 16.1) with voting and withdrawal (R357, R358). -/
def State.settleBar (s : State) : State :=
  let free := fun (s : State) => s.onCnv fun c => { c with drv := false, rel := if c.drv then s.now else c.rel }
  let low := fun (s : State) => s.onCnv fun c => { c with drv := true }
  if s.heldInReset || s.pw.busy || (s.pw.qual && s.pw.first) then free s
  else if decide (s.pw.st = .dormant) || s.pw.qual then s
  else if s.armed then (if s.allReady then free s else (low s).dropGo)
  else if !s.vote then free s
  else if s.casting then (free s).onCnv fun c => { c with voted := true }
  else if s.hasWork then
    if s.cnv.voted then (((low s).onCnv fun c => { c with voted := false, wake := true }).setCause (bitMask 24)).count .wake
    else low s
  else free s

end Sys2Proof.Machine
end

