-- ==== Sys2Proof/Machine/Admission.lean ====
section
/-! DEFINITION. When a ring's oldest fetched entry may be admitted (R216 to R219, R235, R262) and when the engine is held (R263). -/

namespace Sys2Proof.Machine

/-- An update of another ring is admitted and not finished. -/
def State.otherUpdate (s : State) (n : RingNo) : Bool := (List.finRange 4).any fun m => decide (m ≠ n) && s.rings[m].updating

/-- Ring m holds a SYNC-gated update that waits for admission or whose frame 1 has not started (Table 12.4). -/
def Ring.gatedAhead (r : Ring) : Bool :=
  r.barrier.isSome &&
    ((r.imminent && r.syncNext) || match r.update? with
      | some (_, u) => u.gated && u.stage.unstarted
      | none => false)

/-- The ring's next entry is gated by a SYNC whose barrier is armed (R245). An entry takes its SYNC with it: where a gated update has been
discarded and its ring is stalled, a later one that has been fetched runs ungated, though the barrier stays armed (R246; DESIGN CHOICE, log
69). -/
def Ring.gatesNext (r : Ring) : Bool := r.syncNext && r.barrier.isSome

/-- No entry is admitted while a PARK runs (R247). -/
def State.parkRuns (s : State) : Bool := s.rings.toList.any fun r => decide (r.work.map (·.2) = some .park)

/-- R216 to R219 and Table 12.4 for ring n's UPDATE or CLEAR, but for the three temperature conditions. -/
def State.updateAdmits (s : State) (n : RingNo) : Bool :=
  s.admits && !s.parkRuns &&
    match s.rings[n].fetched with
    | f :: _ =>
      s.rings[n].imminent &&
        decide (s.claimOfFetched f &&& s.claims (· ≠ n) = 0) &&
        ((List.finRange 4).all fun m =>
          !(decide (m < n) && s.overlapWait m) ||
            match s.rings[m].fetched with
            | g :: _ => decide (s.claimOfFetched f &&& s.claimOfFetched g = 0)
            | [] => true) &&
        (!topDriven (fld s.applied.drive.tp 0 8) || !s.otherUpdate n) &&
        (!s.rings[n].gatesNext || !s.otherUpdate n) &&
        ((List.finRange 4).all fun m => decide (m = n) || !s.rings[m].gatedAhead)
    | [] => false

/-- Temperature valid, write range, die charge range (Table 12.4). -/
def State.tempPermits (s : State) : Bool :=
  s.thm.valid && inRange s.applied.thermal.wrange s.thm.tpan && (s.sup.railsUp || !s.thm.cold)

/-- DRV_ACTIVE.held (R263). -/
def State.heldFlag (s : State) : Bool := !s.tempPermits && (List.finRange 4).any s.updateAdmits

/-- The update that HELD keeps waiting, with its index: a fetched one, or an admitted one that asks for the rails (Table 2.4, R263). -/
def State.heldEntry (s : State) : Option (RingNo × BitVec 16) :=
  ((List.finRange 4).findSome? fun n =>
    if s.updateAdmits n then (s.rings[n].fetched.head?).map fun f => (n, f.index) else none).or
  ((List.finRange 4).findSome? fun n =>
    if s.updateNeeds s.rings[n] then (s.rings[n].update?).map fun p => (n, p.1)
    else if s.rings[n].imminent then (s.rings[n].fetched.head?).map fun f => (n, f.index)
    else none)

/-- Ring n's oldest fetched entry may be admitted on this edge (R216 to R219, Table 11.3); a ring with an open slot admits nothing (R324,
R333). -/
def State.admissible (s : State) (n : RingNo) : Bool :=
  s.admits && !s.parkRuns && s.rings[n].work.isNone && !(s.jnl.slots.any fun o => decide (o.ring = n)) && !s.edge.noAdmit.getLsbD n.val && !s.edge.admitted &&
    (decide (s.pw.st ≠ .held) || s.edge.thermal) &&
    match s.rings[n].fetched with
    | f :: _ =>
      if !f.runsHere then true
      else if f.entry.isUpdate then s.updateAdmits n && s.tempPermits
      else if f.entry.op = 6 then s.parkReady n && (!s.vote || s.cnv.high)
      else if f.entry.op = 7 then !f.entry.flag || (List.finRange 4).all fun m => decide (m = n) || s.rings[m].work.isNone
      else true
    | [] => false

/-- The engine admits the ready ring with the lowest number (R218). -/
def State.chosen (s : State) (n : RingNo) : Bool :=
  s.admissible n && (List.finRange 4).all fun m => !decide (m < n) || !s.admissible m

end Sys2Proof.Machine
end

