-- ==== Sys2Proof/Machine/Transactions.lean ====
section
/-! DEFINITION. The transactions of the memory port: what each sends, how many MSCK cycles it lasts, where it tests MRDY (Tables 8.1, 8.2
and 8.4, R156 to R172). -/

namespace Sys2Proof.Machine

/-- The piece of the access that its next transaction carries (R168, R169). -/
def OpenAccess.piece (o : OpenAccess) : Nat :=
  if o.acc.write then
    (if o.acc.asker == .erase then 0 else min o.left (o.win.pageBytes - o.target % o.win.pageBytes))
  else if o.win.profile = 1 then min o.left (512 - o.target % 2)
  else min o.left 512

/-- The bytes of the piece that a write sends. -/
def OpenAccess.pieceData (o : OpenAccess) : List Byte := (o.acc.data.drop (o.acc.len - o.left)).take o.piece

/-- Command and address bytes in S1 (R157). -/
def s1Head (op : Byte) (w : Win) (t : Nat) : List Byte := op :: bytesBE w.alen (t % 2 ^ (8 * w.alen))

/-- Command and address bytes in D8 (R158). -/
def d8Head (op : Byte) (t : Nat) : List Byte := op :: (~~~op) :: bytesBE 4 t

/-- An H8 header (Table 8.4). -/
def h8Head (write : Bool) (a : Access) (n t : Nat) : List Byte :=
  (if write then 0xA2#8 else 0xA1#8) :: BitVec.ofNat 8 (a.user.toNat + 8 * a.ring.val) :: (bytesBE 2 (n - 1) ++ bytesBE 4 t)

/-- A piece needs edge bytes (R170). -/
def OpenAccess.needsFill (o : OpenAccess) : Bool :=
  decide (o.win.profile = 1) && o.acc.asker != .erase && (decide (o.target % 2 = 1) || decide ((o.target + o.piece) % 2 = 1))

/-- The piece is odd at both ends and too long for one edge-fill read of four bytes: two reads of two bytes then (R170, log 54). -/
def OpenAccess.farEnds (o : OpenAccess) : Bool :=
  decide (o.target % 2 = 1) && decide ((o.target + o.piece) % 2 = 1) && decide (2 < o.piece)

/-- The cycles before which MRDY is tested (Table 8.2, R163). -/
def readyCycles (o : OpenAccess) (kind : TxKind) (cycles : Nat) : List Nat :=
  let first := 8 + 8 * o.win.alen
  if o.win.profile = 2 then
    let data := if kind = .read then 4 + o.win.latency else 4
    let n := (o.piece + 1) / 2
    [0, 4] ++ ((List.range (n / 32 + 1)).filterMap fun i => if 0 < i ∧ 32 * i < n then some (data + 32 * i) else none) ++ [cycles - 1]
  else if o.win.profile = 1 then
    match kind with
    | .writeEnable => [0]
    | .erase => [0]
    | _ => [0, 3]
  else
    match kind with
    | .read => [0, first]
    | .program => [0, first]
    | _ => [0]

/-- MSCK idles high in the window's frames (R151, R156). -/
def Win.idleHigh (w : Win) : Bool := decide (w.profile = 0) && bitOf w.cfg 6

/-- The transaction of a kind for the access (Table 8.2). -/
def OpenAccess.txn (o : OpenAccess) (kind : TxKind) (fall : Nat) : Txn :=
  let w := o.win
  let mk := fun (piece lo count : Nat) (sent : List Byte) (cycles : Nat) =>
    { kind := kind, piece := piece, lo := lo, count := count, sent := sent, cycles := cycles, ready := readyCycles o kind cycles, stretch := [],
      sel := w.selCode, idle := w.idleHigh, serial := decide (w.profile = 0), early := !bitOf w.cfg 7, fall := fall : Txn }
  let t := o.target
  let k := o.piece
  let A := w.alen
  let L := w.latency
  let d8 := decide (w.profile = 1)
  let odd := t % 2
  let m := (k + odd + 1) / 2 * 2
  match kind with
  | .read =>
    if w.profile = 2 then mk k t k (h8Head false o.acc k t) (5 + L + (k + 1) / 2)
    else if d8 then mk k (t - odd) m (d8Head 0xEE (t - odd)) (3 + L + m / 2)
    else mk k t k (s1Head (if L = 0 then 0x03 else 0x0B) w t) (8 + 8 * A + L + 8 * k)
  | .edgeFill =>
    let n := if odd = 1 ∧ (t + k) % 2 = 1 ∧ k = 2 then 4 else 2
    let lo := if odd = 1 ∧ o.fill = [] then t - 1 else t + k - 1
    mk k lo n (d8Head 0xEE lo) (3 + L + n / 2)
  | .writeEnable => if d8 then mk k t 0 [0x06, 0xF9] 1 else mk k t 0 [0x06] 8
  | .program =>
    if d8 then
      let data := (if odd = 1 then o.fill.take 1 else []) ++ o.pieceData ++
        (if (t + k) % 2 = 1 then o.fill.drop (o.fill.length - 1) else [])
      mk k (t - odd) m (d8Head 0x12 (t - odd) ++ data) (3 + m / 2)
    else mk k t k (s1Head 0x02 w t ++ o.pieceData) (8 + 8 * A + 8 * k)
  | .status => if d8 then mk k t 2 [0x05, 0xFA, 0, 0, 0, 0] (4 + L) else mk k t 1 [0x05] 16
  | .erase => if d8 then mk k t 0 (d8Head 0x21 t) 3 else mk k t 0 (s1Head 0x20 w t) (8 + 8 * A)
  | .h8write => mk k t k (h8Head true o.acc k t ++ o.pieceData ++ (if k % 2 = 1 then [0] else [])) (6 + (k + 1) / 2)

end Sys2Proof.Machine
end

