-- ==== Sys2Proof/Machine/Disturb.lean ====
section
/-! DEFINITION. The engine after a host error with an unpredictable result (R7, R8, R365): everything that the host has not set may
take any value, within the bounds of R7, until the recovery (log 5). -/

namespace Sys2Proof.Machine

/-- A write that R7 lets the engine make: every byte lies in the window of that number, which is enabled and writable; an erase takes one
whole sector (R7, R165, R166, R171). -/
def State.mayWrite (s : State) (a : Access) (n : Nat) : Bool :=
  let w := s.applied.window.win[Fin.ofNat 8 n]
  w.writable && w.hits a.addr && decide (0 < a.len) && decide (a.addr + a.len - 1 ≤ w.last) &&
    (a.asker != .erase || (decide (w.profile ≠ 2) && decide (a.addr % sectorBytes s.jnl.ctl = 0) && decide (a.len = sectorBytes s.jnl.ctl)))

/-- An open access of any kind, brought to its window; a write only where R7 lets the engine write. -/
def State.boundAccess (s : State) (o : OpenAccess) : Option OpenAccess :=
  let w := s.applied.window.win[Fin.ofNat 8 o.wix]
  let left := max 1 (min o.left o.acc.len)
  let o := { o with win := w, wix := o.wix % 8, left := left, target := w.target (o.acc.addr + (o.acc.len - left)) }
  if o.acc.write && !s.mayWrite o.acc o.wix then none else some o

/-- The kind of transaction that the port may run for the access where it finds this one (R168, R169, R171). -/
def OpenAccess.fitKind (o : OpenAccess) (k : TxKind) : TxKind :=
  if !o.acc.write then .read
  else if o.win.profile = 2 then .h8write
  else match k with
    | .status => .status
    | .program => if o.acc.asker == .erase then .erase else .program
    | .erase => if o.acc.asker == .erase then .erase else .program
    | .edgeFill => if o.needsFill then .edgeFill else .writeEnable
    | _ => .writeEnable

/-- Any state of the memory port that writes only where R7 lets it, with what its transaction sends as its access has it (R7, second
bound). MRDY and its synchroniser are not the engine's. -/
def State.boundMem (s x : State) : MemPort :=
  let cur := x.mem.cur.bind s.boundAccess
  { x.mem with
    mrdy := s.mem.mrdy
    mrdy1 := s.mem.mrdy1
    mrdy2 := s.mem.mrdy2
    cur := cur
    txn := cur.bind fun o => x.mem.txn.map fun t => { o.txn (o.fitKind t.kind) t.fall with stretch := t.stretch }
    parked := (x.mem.parked.filterMap s.boundAccess).filter fun o => !o.acc.write
    fail := x.mem.fail &&& 0x1FFF
    failAddr := x.mem.failAddr &&& 0xFFFFFFFF }

/-- An erase that waits for the port takes one whole sector (R171). -/
def State.boundQueue (s : State) (q : List Access) : List Access :=
  q.filter fun a => a.asker != .erase || (decide (a.addr % sectorBytes s.jnl.ctl = 0) && decide (a.len = sectorBytes s.jnl.ctl))

/-- Any state of the rails within the limits (R7, first bound; R139). -/
def State.boundSupply (s x : State) : Supply :=
  let a := min 160 (vposMax s.sup.vlim)
  let b := min 160 (vnegMax s.sup.vlim)
  let c : Int := min 500 (vcomMax s.sup.vlim)
  { x.sup with
    vlim := s.sup.vlim
    railsUp := decide (x.sup.phase ≠ .off)
    vpos := min a x.sup.vpos
    vneg := min b x.sup.vneg
    vcom := clampZ (-c) c x.sup.vcom
    tpos := min (160 + a) x.sup.tpos
    tneg := min (160 + b) x.sup.tneg
    dac := clampZ (-c) c x.sup.dac
    wraps := x.sup.wraps &&& 0xFF }

/-- Any state of a ring but for what the host has set. -/
def Ring.bound (r x : Ring) : Ring := { x with ctl := r.ctl, base := r.base, tailAddr := r.tailAddr, headAddr := r.headAddr, poll := r.poll }

/-- Any state but DORMANT, which clock loss and the resets alone enter (R36). -/
def EngState.bound (s x : EngState) : EngState := if s = .dormant then .dormant else if x = .dormant then .idle else x

def Counters.bound (c : Counters) : Counters :=
  { lockViol := c.lockViol &&& 0xFFFF, updates := c.updates, frames := c.frames, replays := c.replays &&& 0xFFFF, memFail := c.memFail &&& 0xFFFF
    outFault := c.outFault &&& 0xFFFF, throttle := c.throttle &&& 0xFFFF, held := c.held &&& 0xFFFF, wake := c.wake &&& 0xFFFF
    tomb := c.tomb &&& 0xFFFF }

/-- The engine as it may be found while a host error is not recovered from: free but for the registers and buses that the host sets, its
pins, the set-up port and the TAP, through which the host recovers, and the bounds of R7 (log 5). -/
def State.disturb (s : State) : State :=
  if s.wild.isNone then s
  else
    let x := Config.anyState s.free
    { s with
      free := s.free + 1
      later := x.later
      pw := { s.pw with
        st := EngState.bound s.pw.st x.pw.st, jopen := x.pw.jopen, status := x.pw.status &&& 7, armed0 := x.pw.armed0, off0 := x.pw.off0 }
      cause := x.cause &&& 0x7FFFFFF
      attn := x.attn
      mem := s.boundMem x
      rings := s.rings.zipWith Ring.bound x.rings
      drv := { x.drv with dcbSel := s.drv.dcbSel, dcb := (List.range 288).map fun n => x.drv.dcb.getD n 0 }
      sup := s.boundSupply x
      thm := x.thm
      jnl := { x.jnl with ctl := s.jnl.ctl, base := s.jnl.base, size := s.jnl.size, queue := s.boundQueue x.jnl.queue }
      cnv := { x.cnv with ctl := s.cnv.ctl, barto := s.cnv.barto }
      cnt := x.cnt.bound
      log := x.log.take 16
      overflow := x.overflow }

/-! ### The recovery (R7, R365; log 5) -/

/-- The rails when the engine recovers: those that stand are discharged under control as in step 3 of R72, whatever was in progress. -/
def State.recoverSupply (s : State) : Supply :=
  let u := s.sup
  { u with
    phase := if u.railsUp then .up else .off
    toHeld := false, started := false, noPreRamp := false, foldback := false, limited := [], noCheck := false, near := false
    slew0 := s.now, rail0 := s.now, dac0 := s.now }

/-- A ring when the engine recovers: it is disabled and does nothing, from the head that its register shows on. -/
def Ring.recover (r : Ring) : Ring :=
  { Ring.reset with ctl := r.ctl &&& ~~~(1#36), base := r.base, tailAddr := r.tailAddr, headAddr := r.headAddr, poll := r.poll
                    head := r.head, fetch := r.head, comp := r.head, tail := r.head }

/-- The engine as a function-wide reset finds it once the host has removed the error: every unit whose work the error has left open starts
afresh, with the registers as they read; the journal's gate is shut and nothing is retained on chip, as after RSTN (R7; DESIGN CHOICE, log
5). -/
def State.recover (s : State) : State :=
  { s with
    wild := none
    later := []
    pw := { s.pw with
      st := if s.pw.st = .dormant then .dormant else if s.pw.sd then .shutdown else .idle, jopen := false, armed0 := s.now, off0 := s.now }
    mem := { s.mem with
      cur := none, txn := none, parked := [], sel := (s.mem.txn.map (·.sel)).getD s.mem.sel, rise := s.now, lastIdle := false }
    rings := s.rings.map Ring.recover
    drv := { Drive.reset with dcbSel := s.drv.dcbSel, dcb := s.drv.dcb, stopped := s.now }
    sup := s.recoverSupply
    thm := { s.thm with arriving := s.thm.host, window0 := s.now, points := [(s.now, s.sup.vpos, s.sup.vneg)] }
    jnl := { Journal.reset with ctl := s.jnl.ctl, base := s.jnl.base, size := s.jnl.size }
    cnv := { s.cnv with voted := false, wake := false, drv := false, high := false, lowAt := s.now, rel := s.now } }

end Sys2Proof.Machine
end

