-- ==== Sys2Proof/Machine/Settle.lean ====
section
/-! DEFINITION. What follows by itself on every edge (settle), and the effects put one edge later. -/

namespace Sys2Proof.Machine

/-! ### What every edge settles -/

/-- A sequencing whose need or gates have gone is abandoned: rails_up clears on the next edge (R286). -/
def State.settleSequencing (s : State) : State :=
  match s.sup.phase with
  | .sequencing _ => if (s.needed && s.gatesOpen) || s.later.contains .dropSequencing then s else s.defer .dropSequencing
  | _ => s

/-- The need has ended before any frame: the rails wind down in the present state (R293). -/
def State.settleWindDown (s : State) : State :=
  if s.needed || s.sup.started || s.jnl.replay.isSome || s.pw.busy then s
  else match s.sup.phase with
    | .ramp _ _ => s.startDischarge
    | .up => s.startDischarge
    | _ => s

/-- CFG entries finish on the edge on which the groups they name show 0 (Table 11.3). -/
def State.settleCfg (s : State) : State :=
  (List.finRange 4).foldl (fun s n => match s.rings[n].work with
    | some (i, .cfg g) => if g &&& s.pend.bits = 0 then s.finishEntry n i else s
    | _ => s) s

/-- The close marks of the slots that have been replayed, oldest first (R336). -/
def State.replayCloses (s : State) : State :=
  match s.jnl.replay with
  | some r =>
    let s := s.onJnl fun j => { j with replay := some { r with stage := .close, cur := none } }
    r.ran.foldl (fun s q =>
      let s := s.onSlot q fun o => { o with replayed := true }
      if s.closeOpen q then s else s.requestMark q .close) s
  | none => s

/-- The slots are done, or a read has failed: the controlled discharge, then the closes (R336, R337). A sequencing has switched nothing and
needs no discharge (R286). -/
def State.replayDischarge (s : State) : State :=
  let s := s.onJnl fun j => { j with replay := j.replay.map fun r => { r with stage := .discharge, cur := none } }
  let last := match s.jnl.replay with
    | some r => if r.failed then s.defer .endRecovery else s.replayCloses
    | none => s
  match s.sup.phase with
  | .ramp _ _ => s.startDischarge
  | .up => s.startDischarge
  | .off => last
  | .sequencing _ => last
  | _ => s

/-- The replay goes to its next slot; ran: the slot just left has been replayed and is to be closed (R336). -/
def State.replayNext (s : State) (ran : Bool) : State :=
  match s.jnl.replay with
  | some r =>
    let done := match r.cur with | some c => if ran then r.ran ++ [c.q] else r.ran | none => r.ran
    let s := s.onJnl fun j => { j with replay := some { r with ran := done, cur := r.todo.head?.map ReplaySlot.fresh, todo := r.todo.tail } }
    if r.todo.isEmpty then s.replayDischarge else s.askIntent
  | none => s

/-- The rails reach regulation, or the last step of a slew ends, on this edge. -/
def State.regulatedNow (s : State) : Bool := s.later.contains .enterArmed || decide (s.sup.slew0 = s.now)

/-- A replay with its slot's data on chip: without frames to run the slot is done; otherwise the first frame follows regulation by one
edge, and the data on rails that have long been in regulation (R336, log 14). A replay without slots goes on to its end. -/
def State.settleReplay (s : State) : State :=
  match s.jnl.replayCur with
  | some c =>
    if c.plan.isNone || c.run.isSome then s
    else if !s.replayNeeds then s.replayNext true
    else if decide (s.sup.phase = .up) && s.sup.regulated && s.settled && s.drv.frames.isNone && !s.later.contains .replayFrame then
      if s.regulatedNow then s.defer .replayFrame else s.startReplayFrame
    else s
  | none =>
    match s.jnl.replay with
    | some r => if decide (r.stage = .run) && r.cur.isNone then s.replayNext false else s
    | none => s

/-- Open slots that a check has found with the gate shut are replayed as soon as the engine can enter RECOVERY: in IDLE, ARMED or HELD with
no frame running, no reset in progress and no parking due (R78, R334; DESIGN CHOICE, log 71). -/
def State.settleCheck (s : State) : State :=
  if s.jnl.gateAfter && s.pw.jopen && s.jnl.scan.isNone && s.jnl.replay.isNone && !s.pw.busy &&
      (decide (s.pw.st = .idle) || decide (s.pw.st = .armed) || decide (s.pw.st = .held)) && s.drv.frames.isNone &&
      !s.later.contains .enterParking then
    s.startReplay
  else s

/-- The ARMED timeout count is held while an update is admitted (Table 2.4). -/
def State.holdArm (s : State) : State := if s.anyUpdate then s.onPw fun p => { p with armed0 := s.now } else s

/-- What follows on every edge; but nothing on the edge on which a slot has committed: hardware samples the new values from the next edge on
(R109). -/
def State.settle (s : State) : State :=
  if s.ticking && !s.pw.qual && !s.edge.committed then
    (List.finRange 4).foldl State.keepOrder s.settleCheck.settleReplay.settleSequencing.settleWindDown.settleCfg.settleBar.holdArm
  else s

/-! ### The end of a discharge (R294 step 4, R293, Table 2.4) -/

/-- The engine enters HELD (R263). -/
def State.enterHeld (s : State) : State :=
  let (n, i) := s.heldEntry.getD (0, 0)
  (((s.goTo .held).log_ 0x30 0 n i.toNat).count .held).setCause (bitMask 11)

/-- A PARK has finished: its head write is awaited (R356). -/
def State.finishPark (s : State) (n : RingNo) (i : BitVec 16) : State :=
  (s.finishEntry n i).onRing n fun r => { r with parkHead := some i }

/-- A PARK whose rails are off finishes (Table 11.3). -/
def State.parksFinish (s : State) : State :=
  (List.finRange 4).foldl (fun s n => match s.rings[n].work with
    | some (i, .park) => s.finishPark n i
    | _ => s) s

/-- The state after a discharge (Table 2.4, R293, R336). -/
def State.afterDischarge (s : State) (toHeld : Bool) : State :=
  match s.pw.st with
  | .idle => if toHeld && s.heldFlag then s.enterHeld else s
  | .armed => if toHeld && s.heldFlag then s.enterHeld else s.goTo .idle
  | .recovery =>
    (match s.jnl.replay with
     | some r => if r.stage = .discharge then (if r.failed then s.defer .endRecovery else s.replayCloses) else s
     | none => s)
  | _ => s

/-- What the synchronous logic does once the rails are off: the set-points take their targets, a pending supply group completes, PARKs
finish, the state follows (R113, R288, R294, Table 11.3). -/
def State.railsEnded (s : State) : State :=
  let held := s.sup.toHeld
  (((s.onPw fun p => { p with off0 := s.now }).completeSupply.onSup fun u => { u with toHeld := false }).parksFinish).afterDischarge held

/-! ### Effects put one edge later -/

/-- THM_STATUS.wrange_out (R314). -/
def State.evalWrange (s : State) : State :=
  s.onThm fun t => { t with wrangeOut := !(t.valid && inRange s.applied.thermal.wrange t.tpan) }

/-- THM_HOST takes a TEMP value, which becomes current and, with src = 1, Tpan takes it (R309, R310); not on edges 1 to 63 of a wake (R305). -/
def State.tempTakes (s : State) : State :=
  let s := s.onThm fun t => { t with host := t.arriving, current := true, age := 0 }
  if bitOf s.applied.thermal.ctl 0 && !s.pw.qual then
    ((s.onThm fun t => { t with tpan := t.host, source := true }).evalWrange).onEdge fun e => { e with thermal := true }
  else s

/-- A running update that a function-wide reset stops: a non-journaled one is abandoned and no head is published for it (R72,
R227). -/
def State.resetRing (s : State) (n : RingNo) : State :=
  let s := s.interruptRing .functionReset n
  match s.rings[n].update? with
  | some (i, u) =>
    (match u.stage with
     | .cut c =>
       if u.slot.isSome then s
       else ((s.setStatus (bitMask 2)).log_ c.code 0 n i.toNat).onRing n fun r => { r with work := none }
     | _ => s)
  | none => s

/-- PARKING is still due: a function-wide reset or a PARK asks for it, or no update has come in the way of the ARMED timeout (R52);
SHUTDOWN and clock loss come first (R37). -/
def State.parkingDue (s : State) : Bool :=
  decide (s.pw.st ≠ .shutdown) && decide (s.pw.st ≠ .dormant) &&
    (s.pw.busy || s.rings.toList.any (fun r => decide (r.work.map (·.2) = some .park)) || !s.anyUpdate)

/-- The engine enters PARKING and the controlled discharge begins; in a function-wide reset it enters it with the rails in any discharge,
which goes on (Table 2.4, R294, R72). -/
def State.enterParking (s : State) : State :=
  if !s.parkingDue then s else
  let s := if s.pw.busy then (List.finRange 4).foldl State.resetRing s else s
  match s.sup.phase with
  | .ramp _ _ => (s.goTo .parking).startDischarge
  | .up => (s.goTo .parking).startDischarge
  | .discharge _ _ _ => s.goTo .parking
  | .bleed => s.goTo .parking
  | .fast => if s.pw.busy then s.goTo .parking else s
  | _ => s

/-- An interrupted update whose slot is no longer held as open is abandoned (R80, R46; log 57). -/
def State.forgetUpdates (s : State) : State :=
  let s := (List.finRange 4).foldl (fun s n => s.onUpdate n fun u => match u.stage, u.slot with
    | .cut _, some q => if (s.findSlot q).isSome then u else { u with slot := none }
    | _, _ => u) s
  s.abandonAll

/-- R80: every slot held open is forgotten; an interrupted update of such a slot is abandoned. -/
def State.forgetSlots (s : State) : State :=
  ((s.onJnl fun j => { j with slots := [] }).onPw fun p => { p with jopen := false }).forgetUpdates

/-- After RECOVERY the applied supply values govern again: at once with the rails off, otherwise by a slew (R336, R288). -/
def State.endCodes (s : State) : State := if s.sup.railsUp then s.onSup fun u => { u with slew0 := s.now } else s.takeTargets

/-- The trims have been loaded from the fuses by the edge n: edge 16 of a first clocking (Table 4.3). -/
def State.trimBy (s : State) (n : Nat) : Bool := s.pw.first && s.pw.qual && decide (s.pw.clk0 + 16 ≤ n)

/-- The synchronous side of VIN undervoltage (R75): the cause; with the ramp started and the rails up (hit) also the log entry, R46 at
once, and the state of Table 2.4. -/
def State.uvloSync (s : State) (hit : Bool) : State :=
  let s := s.setCause (bitMask 12)
  if !hit then s
  else
    let s := ((s.log_ 8 0 0 0).dropBarriers).abandonCut (· == .uvlo)
    match s.pw.st with
    | .armed => s.resume
    | .driving => s.resume
    | .parking => s.resume
    | .recovery => s.stopReplay.startReplay
    | _ => s

def State.runDeferred (s : State) : Deferred → State
  | .enterArmed =>
    if decide (s.sup.phase = .up) && (decide (s.pw.st = .idle) || decide (s.pw.st = .held)) then
      (s.goTo .armed).onPw fun p => { p with armed0 := s.now }
    else s
  | .enterParking => s.enterParking
  | .endRecovery =>
    let s := (s.onJnl fun j => { j with replay := none }).replayOver.endCodes
    if s.pw.st = .recovery then (if s.sup.phase = .up then (s.goTo .idle).defer .enterArmed else s.goTo .idle) else s
  | .openGate => s.onJnl fun j => { j with gate := true }
  | .forgetSlots => s.forgetSlots
  | .dropSequencing =>
    (match s.sup.phase with
     | .sequencing _ => ((s.onSup fun u => { u with phase := .off, railsUp := false }).completeSupply).afterDischarge false
     | _ => s)
  | .clearDcb => (s.onDrv fun d => { d with dcb := List.replicate 288 0 }).onEdge fun e => { e with dcbCleared := true }
  | .clearLog => { s with log := [], overflow := 0 }
  | .tempCurrent => s.tempTakes
  | .floatFaulted =>
    let floats := s.sup.floats ||| s.sup.fault
    ((s.onSup fun u => { u with floats := floats }).onDrv fun d => { d with frames := d.frames.map fun f =>
      { f with
        target := f.target.mapIdx fun m l => if floats.getLsbD m then .float else l
        dwell := f.dwell.filter fun m => !floats.getLsbD m.val } }).unsense
  | .dropLimited => (s.onSup fun u => { u with limited := u.limited.filter fun l => s.sensed l.out }).endFoldback
  | .replayFrame => if s.sup.regulated && decide (s.sup.phase = .up) then s.startReplayFrame else s
  | .leaveHeld => if s.pw.st = .held then s.goTo .idle else s
  | .railsEnd => s.railsEnded
  | .uvloSeen hit => s.uvloSync hit

end Sys2Proof.Machine
end

