-- ==== Sys2Proof/Machine/Registers.lean ====
section
/-! DEFINITION. The register map: what every register reads (R95, R110) and what a committed write does to it (R108 to R124), the
function-wide reset's first steps among it. -/

namespace Sys2Proof.Machine

/-! ### Reads -/

/-- Table 2.3. -/
def EngState.code : EngState → Nat
  | .dormant => 0
  | .idle => 1
  | .armed => 2
  | .driving => 3
  | .parking => 4
  | .held => 5
  | .recovery => 6
  | .shutdown => 7

/-- Places of the SC bits in State.scNow: ID_COMMIT 0 to 3, RINGn_DOOR 4 to 7, DRV_DCB_CLR 8, CNT_LOGCLR 9, JNL_CTL.check 10. -/
def scDoor (n : RingNo) : Nat := 4 + n.val

/-- PWR_STATE (Table 2.5). DORMANT cannot be reported (R35): until a clocking's edge 64 the register holds its reset value's IDLE
(Tables 2.5 and 7.5; log 48). -/
def State.pwrState (s : State) : Word :=
  put (if s.pw.st = .dormant then EngState.idle else s.pw.st).code 0 ||| bitIf s.ramping 4 ||| bitIf s.quiet 5 ||| bitIf s.mbusy 6 ||| bitIf s.sup.railsUp 7

/-- RINGn_STATUS (Table 7.12); running reads 1 on its admission edge for an entry that finishes on it (R235). -/
def State.ringStatus (s : State) (n : RingNo) : Word :=
  let r := s.rings[n]
  put r.fetch.toNat 0 ||| put r.fetched.length 16 ||| bitIf r.bell 19 ||| bitIf (r.work.isSome || s.edge.ran.getLsbD n.val) 20 ||| bitIf (s.overlapWait n) 21 |||
    bitIf r.stalled 22 ||| bitIf (match r.work with | some (_, .cfg _) => true | _ => false) 23

/-- DRV_ACTIVE (Table 7.14). -/
def State.active (s : State) : Word :=
  (List.finRange 4).foldl (fun w n => w ||| bitIf s.rings[n].driving n.val ||| bitIf (s.overlapWait n) (4 + n.val)) 0 |||
    bitIf s.heldFlag 8 ||| bitIf s.drv.sliced 9

/-- A rail status bit (R285): while the rails bleed, in a controlled or an immediate discharge, it follows the rail, which is analog (log 10). -/
def State.railOk (s : State) (rail : Nat) (ok : Bool) : Bool :=
  match s.sup.phase with
  | .bleed => Config.bleedBit s.now rail
  | .fast => Config.bleedBit s.now rail
  | _ => ok

def State.supStatus (s : State) : Word :=
  bitIf (s.railOk 0 s.sup.vposOk) 0 ||| bitIf (s.railOk 1 s.sup.vnegOk) 1 ||| bitIf (s.railOk 2 s.sup.vcomOk) 2 ||| bitIf s.sup.foldback 3 ||| bitIf s.pw.uvlo 4 |||
    put s.sup.limited.length 5

def State.thmStatus (s : State) : Word :=
  bitIf s.thm.warn 0 ||| bitIf s.thm.throttle 1 ||| bitIf s.thm.wrangeOut 2 ||| bitIf s.thm.cold 3 ||| bitIf s.pw.sd 4

def State.jnlStatus (s : State) : Word :=
  bitIf s.jnl.gate 0 ||| bitIf s.pw.jopen 1 ||| bitIf (s.jnl.replay.isSome || decide (s.pw.st = .recovery)) 2 ||| bitIf s.jnl.scanFail 3

def State.cnvStatus (s : State) : Word :=
  bitIf s.cnv.barIn 0 ||| bitIf s.cnv.drv 1 ||| bitIf s.armed 2 ||| bitIf s.cnv.voted 3 ||| bitIf s.cnv.wake 4

/-- DRV_DCB_VAL (R137). -/
def State.dcbVal (s : State) : Word := put (s.drv.dcb.getD (fld s.drv.dcbSel 0 9) 0).toNat 0

/-- The value of a register (spec/07). -/
def State.readReg (s : State) : Reg → Word
  | .ident => if Config.filmDelivery then 0x0D5012120 else 0x0D5011120
  | .addr => put s.pw.addr.toNat 0 ||| put s.pw.l0.toNat 7 ||| put s.pw.l1.toNat 9
  | .tileId => put s.tile.toNat 0 ||| bitIf s.tileWritten 16
  | .lock => put s.lock.toNat 0
  | .commit => put (fld s.scNow 0 4) 0
  | .cfgPending => put s.pend.bits.toNat 0
  | .pwrState => s.pwrState
  | .pwrStatus => s.pw.status
  | .pwrCtl => s.pw.ctl
  | .hccnt => s.pw.hccnt
  | .pwrReset => bitIf s.pw.busy 8
  | .pwrSetup => s.port.setup
  | .pwrSetupst => s.port.setupst
  | .atnCause => s.cause
  | .atnEnable => s.enable
  | .memFail => s.mem.fail
  | .memFailAddr => s.mem.failAddr
  | .st r => s.applied.get r
  | .ringCtl n => s.rings[n].ctl
  | .ringBase n => s.rings[n].base
  | .ringTail n => s.rings[n].tailAddr
  | .ringHeadAddr n => s.rings[n].headAddr
  | .ringPoll n => s.rings[n].poll
  | .ringDoor n => bitIf (bitOf s.scNow (scDoor n)) 0
  | .ringHead n => put s.rings[n].head.toNat 0
  | .ringStatus n => s.ringStatus n
  | .dcbSel => s.drv.dcbSel
  | .dcbVal => s.dcbVal
  | .dcbClr => bitIf (bitOf s.scNow 8) 0
  | .active => s.active
  | .vlim => s.sup.vlim
  | .fault j => BitVec.ofNat 36 (s.sup.fault.toNat >>> (36 * j.val))
  | .energy => s.sup.energy
  | .energyWrap => s.sup.wraps
  | .charge => put s.sup.qpos.toNat 0 ||| put s.sup.qneg.toNat 18
  | .supStatus => s.supStatus
  | .tdie => put s.thm.tdie.toNat 0 ||| bitIf s.thm.valid 12
  | .tpan => put s.thm.tpan.toNat 0 ||| bitIf s.thm.valid 12 ||| bitIf s.thm.source 13
  | .thmHost => put s.thm.host.toNat 0
  | .thmStatus => s.thmStatus
  | .jnlCtl => s.jnl.ctl ||| bitIf (bitOf s.scNow 10) 1
  | .jnlBase => s.jnl.base
  | .jnlSize => s.jnl.size
  | .jnlStatus => s.jnlStatus
  | .jnlSeq => put s.jnl.seq.toNat 0
  | .jnlWpos => put s.jnl.wpos 0
  | .cnvCtl => s.cnv.ctl
  | .epoch => put s.cnv.epoch.toNat 0
  | .cnvStatus => s.cnvStatus
  | .barto => s.cnv.barto
  | .cnt c => s.cnt.get c
  | .logStat => put s.log.length 0 ||| put s.overflow.toNat 5
  | .logClr => bitIf (bitOf s.scNow 9) 0
  | .logA n => match s.log[n.val]? with | some e => e.a | none => 0
  | .logB n => match s.log[n.val]? with | some e => e.b | none => 0

/-- The value of a slot; an unimplemented slot reads 0 (R96, R124). -/
def State.readSlot (s : State) (slot : BitVec 13) : Word :=
  match regOfSlot slot with
  | some r => s.readReg r
  | none => 0

/-! ### Writes -/

/-- A write that R121 ignores. -/
def State.lockViolation (s : State) : State := (s.count .lockViol).setCause (bitMask 3)

/-- W1C: each bit written 1 clears, unless hardware has set it on this edge (Table 6.5). -/
def w1c (old v set : Word) : Word := old &&& ~~~(v &&& ~~~set)

/-- An SC bit reads 1 on the next edge (Table 6.1). -/
def State.scReads (s : State) (w : Word) : State := { s with scNext := s.scNext ||| w }

/-- The lock bit of a staged register is set (R112). -/
def State.locked (s : State) (r : StReg) : Bool := match stLock r with | some b => s.lock.getLsbD b | none => false

/-- A write to a staged register goes to its shadow copy, unless its lock bit is set (R110, R112, R121); a reserved window field
is unpredictable (R125). -/
def State.writeShadow (s : State) (r : StReg) (v : Word) : State :=
  if s.locked r then s.lockViolation
  else
    let s := { s with shadow := s.shadow.put r v }
    match r with
    | .winCfg _ => if Win.reservedField v then s.err .windowField else s
    | _ => s

/-- A set-up write to a staged register; the shadow copies as they stood before are kept for a CFG of this edge (R109, R243). -/
def State.hostShadow (s : State) (r : StReg) (v : Word) : State :=
  let before := s.shadow
  (s.writeShadow r v).onEdge fun e =>
    { e with shadow0 := e.shadow0.or (some before), shadowWrites := if s.locked r then e.shadowWrites else e.shadowWrites ++ [(r, v)] }

/-! #### The function-wide reset (R72) -/

/-- Step 3: with the rails up, running updates stop on the next edge and the engine enters PARKING; not in SHUTDOWN (R82). -/
def State.resetPark (s : State) : State := if s.sup.railsUp && decide (s.pw.st ≠ .shutdown) then s.defer .enterParking else s

/-- A check or a replay is in progress. -/
def State.checking (s : State) : Bool := s.jnl.scan.isSome || s.jnl.replay.isSome

/-- The region meets R321 as far as the registers show it: sizes, and the whole of it in one enabled, writable window. -/
def State.regionOk (s : State) : Bool :=
  let z := regionBytes s.jnl.size
  let b := sectorBytes s.jnl.ctl
  let a := fld s.jnl.base 0 32
  decide (1024 ≤ b) && decide (b ≤ z) && decide (z % b = 0) &&
    s.applied.window.win.toList.any fun w => w.writable && w.hits a && decide (a + z - 1 ≤ w.last)

/-- A host error that a register holds: until the host has removed it, no function-wide reset recovers the engine (R7). -/
def State.errorHeld (s : State) : Bool :=
  let wins := s.applied.window.win.toList
  let on := wins.filter Win.on
  on.any (fun w => Win.reservedField w.cfg || (decide (w.profile ≠ 0) && decide (w.latency = 0))) ||
    (List.finRange 8).any (fun i => (List.finRange 8).any fun j => decide (i < j) &&
      s.applied.window.win[i].overlaps s.applied.window.win[j]) ||
    s.rings.toList.any (fun r => decide (ringExp r.ctl < 2) || decide (12 < ringExp r.ctl)) ||
    (bitOf s.jnl.ctl 0 && !s.regionOk)

/-- The end of step 2: accesses of priorities 3 to 5 are discarded (R176). -/
def State.drainEnd (s : State) : State :=
  State.resetPark
    ((s.onMem fun m => { m with parked := m.parked.filter fun o => decide (o.acc.prio < 3) }).onPw fun p => { p with drain := some s.now })

/-- Step 1 for one ring (R72, R227). A hole that a discarded entry has left stays one until the ring is enabled again: an update that is
replayed publishes nothing past it (R265). -/
def State.resetStop (s : State) (n : RingNo) : State :=
  (s.stopRing n).onRing n fun r => { r with ctl := r.ctl &&& ~~~(1#36), stalled := false, fetch := r.head }

/-- A host error from which a function-wide reset recovers: no register holds it any more (R7, R365). -/
def State.healable (s : State) : Bool := s.wild.isSome && !s.errorHeld

def State.heal (s : State) : State := if s.healable then s.recover else s

/-- Edge E of a function-wide reset; with the port idle, step 2 ends on E. -/
def State.functionReset (s : State) : State :=
  let s := s.heal
  let s := if s.jnl.replay.isSome then s.stopReplay else s
  let s := (List.finRange 4).foldl State.resetStop
    (s.onPw fun p => { p with busy := true, drain := none, shut := decide (p.st = .shutdown) })
  let s := { s with
    pend := ⟨none, none, none, none⟩
    shadow := s.applied
    cnv := { s.cnv with voted := false, wake := false, drv := false, rel := if s.cnv.drv then s.now else s.cnv.rel } }
  if s.mem.cur.isNone && s.mem.txn.isNone then s.drainEnd else s

/-! #### Rings (R133, R134, R226) -/

/-- The ring is enabled: fetching, and with it completion, starts again from the published head, which a failed head write has left behind
(R134, R203, R209, R223); a head write due or open publishes its entry first (log 56). A MARK that has finished and that no head write has
passed keeps its cause for the head write that passes its index (DESIGN CHOICE, log 68). -/
def Ring.start (r : Ring) (open_ : Bool) : Ring :=
  { r with
    comp := if r.headDue || open_ then r.comp else r.head
    fetch := r.head, hole := false, tail := r.head, tailRead := false, bell := !r.phaseMode, probe := r.phaseMode, timer := none,
    fetching := .none, fetched := [] }

/-- RINGn_HEAD (R226): the completion point follows, unless a head write is still due or open, which publishes it first (log 56). -/
def Ring.setHead (r : Ring) (v : BitVec 16) (open_ : Bool) : Ring :=
  { r with head := v, stale := false, comp := if r.headDue || open_ then r.comp else v }

/-- RINGn_CTL (R133 to R135, R224, R226). A write of enable = 0 to a ring that is disabled already writes the other fields, also where its
stop_mode is 1 (DESIGN CHOICE, log 61). -/
def State.writeRingCtl (s : State) (n : RingNo) (v : Word) : State :=
  let r := s.rings[n]
  if s.edge.enableCleared.getLsbD n.val then s
  else if r.enabled then
    if bitOf v 0 || r.hard then s else (s.onRing n fun r => { r with ctl := r.ctl &&& ~~~(1#36) }).stopRing n
  else if bitOf v 0 && r.work.isSome then s
  else
    let s := if ringExp v < 2 ∨ 12 < ringExp v then s.err .ringSize else s
    s.onRing n fun r =>
      let r := { r with ctl := v &&& 0xF7 }
      if bitOf v 0 then r.start (s.headOpen n) else r

/-! #### Journal (R78, R80, R144) -/

/-- JNL_CTL.check = 1 (R78, R80, R144). -/
def State.journalCheck (s : State) : State :=
  if s.checking || (s.pw.jopen && s.jnl.gate) then s
  else if bitOf s.jnl.ctl 0 then
    let s := if s.regionOk then s else s.err .journalRegion
    ((s.onJnl fun j => { j with scan := some ⟨j.gate, []⟩ }).askScan).scReads (bitMask 10)
  else if s.jnl.gate then s
  else (((s.onJnl fun j => { j with scanFail := false }).defer .openGate).defer .forgetSlots).scReads (bitMask 10)

/-- JNL_CTL; its sector_exp or erase changed while a slot is open is a host error (Table 15.7). -/
def State.writeJnlCtl (s : State) (v : Word) : State :=
  let moved := (s.jnl.ctl ^^^ v) &&& 0x7C ≠ 0
  let s := if moved ∧ (s.pw.jopen || !s.jnl.slots.isEmpty) = true then s.err .journalGeometry else s
  let s := s.onJnl fun j => { j with ctl := v &&& 0x7D }
  if bitOf v 1 then s.journalCheck else s

/-- JNL_BASE and JNL_SIZE (R144). -/
def State.writeRegion (s : State) (f : Journal → Journal) : State :=
  if s.lock.getLsbD 4 then s.lockViolation
  else if bitOf s.jnl.ctl 0 || s.pw.jopen || s.checking then s
  else s.onJnl f

/-! #### Limits (R139) -/

/-- SUP_VLIM: with the rails off the set-points take the limit at once, otherwise they slew. -/
def State.writeVlim (s : State) (v : Word) : State :=
  if s.lock.getLsbD 2 then s.lockViolation
  else
    let s := s.onSup fun u => { u with vlim := v &&& 0x7FFFFFF, slew0 := s.now }
    if s.sup.railsUp then s else s.takeTargets

/-- A counter: the value written with the events of this edge; a cnt_sat that only this edge's event of the counter has set follows the new
count (R119, R146). -/
def State.writeCnt (s : State) (c : Cnt) (v : Word) : State :=
  let k := s.edge.cnts.count c
  let rest := s.edge.sats.filter (· != c)
  let undo := !s.edge.sats.isEmpty && rest.isEmpty
  let s := { s with
    cause := if undo then s.cause &&& ~~~(bitMask 25) else s.cause
    edge := { s.edge with sats := rest, cause := if undo then s.edge.cause &&& ~~~(bitMask 25) else s.edge.cause } }
  s.putCnt c (satAdd c.max (v &&& c.max) k) (k != 0)

/-- SUP_ENERGY: the value written with this edge's increment, in place of the accumulator's own; its wraps and their cause follow the new
sum (R119, R141). -/
def State.writeEnergy (s : State) (v : Word) : State :=
  let sum := v.toNat + s.edge.energy
  let w := sum / 2 ^ 36
  let s := { s with
    sup := { s.sup with energy := BitVec.ofNat 36 sum, wraps := satAdd 0xFF (s.edge.wraps0.getD s.sup.wraps) w }
    cause := if s.edge.wrapCause then s.cause &&& ~~~(bitMask 15) else s.cause
    edge := { s.edge with wraps := w, cause := s.edge.cause &&& ~~~(bitMask 15) } }
  if w = 0 then s else s.setCause (bitMask 15)

/-- A committed write to a register by its access class (R108 to R121). -/
def State.writeReg (s : State) (r : Reg) (v : Word) : State :=
  match r with
  | .ident => s
  | .addr => s
  | .tileId => if s.tileWritten then s.lockViolation else { s with tile := BitVec.ofNat 16 (fld v 0 16), tileWritten := true }
  | .lock => { s with lock := s.lock ||| BitVec.ofNat 5 (fld v 0 5) }
  | .commit => if s.pw.busy then s else (s.commit (BitVec.ofNat 4 (fld v 0 4)) s.shadow).scReads (v &&& 0xF)
  | .cfgPending => s
  | .pwrState => s
  | .pwrStatus => s.onPw fun p => { p with status := w1c p.status v s.edge.status }
  | .pwrCtl => s.onPw fun p => { p with ctl := v &&& 0xFFFF }
  | .hccnt => s.onPw fun p => { p with hccnt := v + 1 }
  | .pwrReset => if fld v 0 8 = 0xC3 ∧ (s.pw.busy = false ∨ s.healable) then s.functionReset else s
  | .pwrSetup => s.onPort fun p => { p with setup := v &&& 0x1F }
  | .pwrSetupst => s.onPort fun p => { p with setupst := w1c p.setupst v s.edge.setupst }
  | .atnCause =>
    let c := w1c s.cause v s.edge.cause
    { s with cause := c, cnv := { s.cnv with wake := s.cnv.wake && bitOf c 24 } }
  | .atnEnable => { s with enable := (v &&& 0x7FFFFFF) ||| 0x1000000 }
  | .memFail => s
  | .memFailAddr => s
  | .st r => s.hostShadow r v
  | .ringCtl n => s.writeRingCtl n v
  | .ringBase n => if s.rings[n].enabled then s else s.onRing n fun r => { r with base := v &&& 0xFFFFFFFF }
  | .ringTail n => if s.rings[n].enabled then s else s.onRing n fun r => { r with tailAddr := v &&& 0xFFFFFFFF }
  | .ringHeadAddr n => if s.rings[n].enabled then s else s.onRing n fun r => { r with headAddr := v &&& 0xFFFFFFFF }
  | .ringPoll n => s.onRing n fun r => { r with poll := v &&& 0xFFFFFF }
  | .ringDoor n =>
    if bitOf v 0 && s.rings[n].enabled then (s.onRing n fun r => { r with bell := true }).scReads (bitMask (scDoor n)) else s
  | .ringHead n =>
    if s.rings[n].enabled || s.rings[n].work.isSome || s.edge.headTaken.getLsbD n.val then s
    else s.onRing n fun r => r.setHead (BitVec.ofNat 16 (fld v 0 16)) (s.headOpen n)
  | .ringStatus _ => s
  | .dcbSel => s.onDrv fun d => { d with dcbSel := v &&& 0x1FF }
  | .dcbVal => s
  | .dcbClr => if bitOf v 0 then (s.defer .clearDcb).scReads (bitMask 8) else s
  | .active => s
  | .vlim => s.writeVlim v
  | .fault j => s.onSup fun u => { u with fault := u.fault &&& ~~~((v.setWidth 292 <<< (36 * j.val)) &&& ~~~s.edge.fault) }
  | .energy => s.writeEnergy v
  | .energyWrap => s.onSup fun u => { u with wraps := satAdd 0xFF (v &&& 0xFF) s.edge.wraps }
  | .charge => s
  | .supStatus => s
  | .tdie => s
  | .tpan => s
  | .thmHost => s
  | .thmStatus => s
  | .jnlCtl => s.writeJnlCtl v
  | .jnlBase => s.writeRegion fun j => { j with base := v &&& 0xFFFFFFFF }
  | .jnlSize => s.writeRegion fun j => { j with size := v &&& 0x7F }
  | .jnlStatus => s
  | .jnlSeq => s
  | .jnlWpos => s
  | .cnvCtl => s.onCnv fun c => { c with ctl := v &&& 1 }
  | .epoch => s.onCnv fun c => { c with epoch := BitVec.ofNat 32 (fld v 0 32 + s.edge.epochs) }
  | .cnvStatus => s
  | .barto => s.onCnv fun c => { c with barto := v &&& 0xFFFFFF }
  | .cnt c => s.writeCnt c v
  | .logStat => s
  | .logClr => if bitOf v 0 then (s.defer .clearLog).scReads (bitMask 9) else s
  | .logA _ => s
  | .logB _ => s

/-- The commit of a slot; an unimplemented slot has no effect (R91, R124). -/
def State.writeSlot (s : State) (slot : BitVec 13) (v : Word) : State :=
  match regOfSlot slot with
  | some r => s.writeReg r v
  | none => s

end Sys2Proof.Machine
end

