-- ==== Sys2Proof/Machine/Port.lean ====
section
/-! DEFINITION. The set-up port on one HCK edge: the sampled and filtered lines, bits, bytes, capture, stretch, START, STOP and
aborted transactions (spec/05). The edges themselves and the commands: Edge.lean and Bus.lean. -/

namespace Sys2Proof.Machine

/-- Slot of a pointer (R89). -/
def slotOf (p : BitVec 16) : BitVec 13 := p.extractLsb' 3 13

/-- The pointer after a byte of a write: within its 32-byte page (R90). -/
def pageNext (p : BitVec 16) : BitVec 16 := p.extractLsb' 5 11 ++ (p.extractLsb' 0 5 + 1#5)

/-- Bytes 0 to 4 of the slot have been touched and the slot has not committed (R92). -/
def HoldBuf.short (b : HoldBuf) : Bool := b.bad || (decide (b.good ≠ 0) && decide (b.good < 5))

/-- The engine takes part in the transaction (R103). -/
def PortPhase.takesPart : PortPhase → Bool
  | .idle => false
  | .away => false
  | _ => true

/-- The holding buffer is left: an incomplete slot is discarded and short_slot is set (R92). -/
def State.leaveSlot (s : State) : State :=
  match s.port.buf with
  | some b =>
    let s := s.onPort fun p => { p with buf := none }
    if b.short then s.setSetupst (bitMask 1) else s
  | none => s

/-- The stretch that answers a falling edge recognised on this edge (R100). -/
def State.stretch (s : State) : State := if bitOf s.port.inForce 4 then s.onPort fun p => { p with hold := some s.now } else s

/-- The engine holds SCL low after edge e: from the edge after the recognition to the fourth (R100, R101). -/
def SetupPort.sclLow (p : SetupPort) (e : Nat) : Bool := match p.hold with | some t => decide (t < e) && decide (e < t + 4) | none => false

/-- A byte enters the holding buffer at offset off; true: the slot is complete (R91). -/
def HoldBuf.feed (h : HoldBuf) (off : Nat) (b : Byte) : HoldBuf × Bool :=
  if 5 ≤ off then (h, false)
  else if !h.bad && off == h.good then ({ h with good := h.good + 1, bytes := h.bytes ++ [b] }, off == 4)
  else ({ h with bad := true }, false)

/-- The register value of the five bytes of a slot (R91). -/
def slotWord (bs : List Byte) : Word := BitVec.ofNat 36 (leNat (bs.take 5))

/-! ### Bytes -/

/-- The byte just received is acknowledged, from the next edge on, after a stretch (R86, R98, R100). -/
def State.acknowledge (s : State) : State := (s.onPort fun p => { p with ack := true, drive := some true }).stretch

/-- The registers with an SC field whose action starts on the commit edge (R110). -/
def Reg.actsAtOnce : Reg → Bool
  | .commit => true
  | .ringDoor _ => true
  | .pwrReset => true
  | .jnlCtl => true
  | _ => false

/-- The commit of a slot (R91): hardware sees the new value from the next edge on (R109), but an SC action is there for what follows on the
commit edge itself (R110). -/
def State.commitSlot (s : State) (slot : BitVec 13) (v : Word) : State :=
  let t := s.writeSlot slot v
  (if (regOfSlot slot).any Reg.actsAtOnce then t.settle else t).onEdge fun e => { e with committed := true }

/-- The slot of the byte that begins is not that of the holding buffer: the buffer's slot is left (R92). -/
def State.enterSlot (s : State) : State :=
  match s.port.buf with
  | some h => if h.slot = slotOf s.port.ptr then s else s.leaveSlot
  | none => s

/-- A data byte of a write (R90 to R93). -/
def State.writeByte (s : State) (b : Byte) : State :=
  let slot := slotOf s.port.ptr
  let (h, full) := ((s.port.buf.getD ⟨slot, 0, false, []⟩).feed (s.port.ptr.toNat % 8) b)
  let s := (s.onPort fun p => { p with buf := some h, ptr := pageNext p.ptr }).acknowledge
  if full then s.commitSlot slot (slotWord h.bytes) else s

/-- The register of the pointer's slot is captured, unless this transaction has done so (R95). -/
def State.capture (s : State) : State :=
  let slot := slotOf s.port.ptr
  match s.port.cap with
  | some (t, _) => if t = slot then s else s.onPort fun p => { p with cap := some (slot, s.readSlot slot) }
  | none => s.onPort fun p => { p with cap := some (slot, s.readSlot slot) }

/-- Byte off of a captured register (R96). -/
def regByte (w : Word) (off : Nat) : Byte := if 5 ≤ off then 0 else BitVec.ofNat 8 (w.toNat >>> (8 * off))

/-- The byte at the pointer is about to be sent: the capture, and its bit 7 from the next edge on (R88, R95, R98). -/
def State.sendByte (s : State) : State :=
  let s := s.capture
  let w := match s.port.cap with | some (_, w) => w | none => 0
  let b := regByte w (s.port.ptr.toNat % 8)
  s.onPort fun p => { p with tx := b, drive := some (!b.getLsbD 7) }

/-- The falling edge that ends bit 0 of a byte (R84, R86, R87, R90, R94). An address byte that does not match is not acknowledged, and
nothing is stretched for it (log 51). -/
def State.byteEnd (s : State) : State :=
  let b := s.port.shift
  match s.port.phase with
  | .address =>
    if b.extractLsb' 1 7 = s.pw.addr then (s.onPort fun p => { p with phase := if b.getLsbD 0 then .read else .ptrHigh }).acknowledge
    else s.onPort fun p => { p with phase := .away, drive := some false }
  | .ptrHigh => (s.onPort fun p => { p with phase := .ptrLow b }).acknowledge
  | .ptrLow hi => (s.onPort fun p => { p with phase := .write, ptr := hi ++ b }).acknowledge
  | .write => s.writeByte b
  | .read => (s.onPort fun p => { p with ptr := p.ptr + 1, drive := some false }).stretch
  | .idle => s
  | .away => s

/-- The falling edge that ends an acknowledge bit: in a read the next byte is sent, after a stretch where the controller has acknowledged
(R95, R98, R100). -/
def State.ackEnd (s : State) : State :=
  let ours := s.port.ack
  let s := s.onPort fun p => { p with ack := false, bits := 0, atEnd := true, drive := some false }
  if s.port.phase = .read then (if ours then s.sendByte else s.sendByte.stretch) else s

/-! ### Recognised edges -/

/-- An SCL falling edge is recognised. -/
def State.sclFall (s : State) : State :=
  if !s.port.phase.takesPart then s
  else
    let s := s.onPort fun p => { p with atEnd := p.atEnd && p.bits == 0 }
    if s.port.bits = 0 then s
    else if s.port.bits < 8 then
      if s.port.phase = .read then s.onPort fun p => { p with drive := some (!p.tx.getLsbD (7 - p.bits)) } else s
    else if s.port.bits = 8 then s.byteEnd
    else s.ackEnd

/-- A bit is taken, on the edge after the recognised rising edge (R98). Bit 7 at a position outside the buffer's slot leaves that slot
(R92); a controller that does not acknowledge ends the read (R88). -/
def State.takeBit (s : State) (b : Bool) : State :=
  if !s.port.phase.takesPart then s
  else if s.port.bits < 8 then
    let s := if s.port.bits = 0 ∧ s.port.phase = .write then s.enterSlot else s
    s.onPort fun p => { p with shift := p.shift <<< 1 ||| (BitVec.ofBool b).setWidth 8, bits := p.bits + 1 }
  else
    s.onPort fun p => { p with bits := 9, phase := if decide (p.phase = .read) && !p.ack && b then .away else p.phase }

/-- The transaction ends: a partial slot is discarded (R92, R102), both lines are released. -/
def State.endTransaction (s : State) : State :=
  s.leaveSlot.onPort fun p =>
    { p with phase := .idle, cap := none, ack := false, bits := 0, atEnd := false, drive := none, sdaLow := false, hold := none }

/-- A START or STOP: the transaction ends; anywhere but at the end of an acknowledge bit an engine that takes part sets framing (R103). -/
def State.startOrStop (s : State) : State :=
  let part := s.port.phase.takesPart && !s.port.atEnd
  let s := s.endTransaction
  if part then s.setSetupst (bitMask 0) else s

/-- R102: a STOP puts PWR_SETUP in force. -/
def State.stopSeen (s : State) : State := s.onPort fun p => { p with inForce := p.setup }

/-! ### The timing duties (R99) -/

/-- The SCL edge recognised on edge e comes too soon: after a high or low time, a START hold or an SCL period that R99 forbids. What it
measures is the recognised edges, which lie at least as many HCK edges apart as those at the pins are HCK periods. -/
def SetupPort.tooSoon (p : SetupPort) (e : Nat) (fall : Bool) : Bool :=
  let f := fld p.inForce 0 4
  decide (e < p.sclAt + (f + 3)) ||
    (if fall then (match p.fallAt with | some t => decide (e < t + 16) | none => false)
     else !bitOf p.inForce 4 && decide (e < p.sclAt + (f + 7)))

/-- The START or STOP recognised on edge e comes too soon after SCL has risen: its set-up time, from the SDA edge that R386 has delayed by
2 hc. -/
def SetupPort.setupShort (p : SetupPort) (e : Nat) : Bool := decide (e < p.sclAt + 2 + (fld p.inForce 0 4 + 3))

/-- The transaction as it may be found once R99 has been broken: any position, any byte, any pointer, any holding buffer. -/
def State.scramble (s : State) : State :=
  let x := (Config.anyState s.free).port
  { s with
    free := s.free + 1
    port := { s.port with
      bits := x.bits, atEnd := x.atEnd, shift := x.shift, drive := x.drive, sdaLow := x.sdaLow, phase := x.phase, ptr := x.ptr, buf := x.buf
      cap := x.cap, ack := x.ack, tx := x.tx } }

/-- An edge of a line is recognised. Where the engine takes part and its time breaks R99, that is a host error, and the transaction is
unpredictable from then on (R7, R99; log 59). -/
def State.timed (s : State) (bad : Bool) : State :=
  let s := if s.port.phase.takesPart && bad then (s.err .busTiming).onPort fun p => { p with broken := true } else s
  if s.port.broken then s.scramble else s

/-! ### The lines (R97, R101, R386) -/

/-- One edge of a line: the filtered level changes once the synchronised level has differed from it on f + 1 consecutive edges (R97). -/
def Line.sample (l : Line) (f : Nat) (pin : Bool) : Line :=
  let flips := l.second != l.level && decide (f ≤ l.run)
  { first := pin
    second := l.first
    level := if flips then l.second else l.level
    run := if l.second == l.level || flips then 0 else l.run + 1 }

/-- The lines as the engine meets them on this edge: low where another device, or the engine itself since an edge before, pulls them low
(R101). -/
def State.sampleLines (s : State) : State :=
  s.onPort fun p =>
    let f := fld p.inForce 0 4
    { p with
      scl := p.scl.sample f (p.pinScl && !p.sclLow (s.now - 1))
      sda := p.sda.sample f (p.pinSda && !p.sdaWas)
      sda1 := p.sda.level
      sda2 := p.sda1
      rose := false
      hold := p.hold.filter fun t => decide (s.now < t + 4) }

/-- The lines are sampled; where the edge before has recognised an SCL rising edge, a bit is taken (R98). -/
def State.sampleBit (s : State) : State :=
  let t := s.sampleLines
  if s.port.rose then t.takeBit t.port.sda.level else t

/-- A recognised START: the address byte follows (R84). Its own set-up time may break R99. -/
def State.startMet (s : State) : State :=
  let bad := s.port.phase.takesPart && s.port.setupShort s.now
  (s.timed bad).startOrStop.onPort fun p => { p with phase := .address, shift := 0, sclAt := s.now - 2, fallAt := none, broken := bad }

/-- A recognised STOP. -/
def State.stopMet (s : State) : State :=
  let bad := s.port.phase.takesPart && s.port.setupShort s.now
  (s.timed bad).startOrStop.stopSeen.onPort fun p => { p with broken := bad }

/-- What the filtered level c of SCL and the delayed one d of SDA before, and those now, mean (R97, R98, R103, R386). An SCL edge is taken
alone where both change (DESIGN CHOICE, log 60). -/
def State.recognise (s : State) (c d : Bool) : State :=
  let c' := s.port.scl.level
  let d' := s.port.sda2
  if c && !c' then ((s.timed (s.port.tooSoon s.now true)).onPort fun p => { p with sclAt := s.now, fallAt := some s.now }).sclFall
  else if !c && c' then (s.timed (s.port.tooSoon s.now false)).onPort fun p => { p with sclAt := s.now, rose := true }
  else if c && d && !d' then s.startMet
  else if c && !d && d' then s.stopMet
  else s

/-- One HCK edge of the port. Before edge 64 the bus is ignored, but the lines pass their filters: a START is met where it is recognised from
edge 64 on, also where its edge of SDA lies before (R85; DESIGN CHOICE, log 62). -/
def State.sampleBus (s : State) : State :=
  if !s.ticking then s
  else if s.answering then s.sampleBit.recognise s.port.scl.level s.port.sda2
  else s.sampleLines

/-- The port has no edge of its lines before it: they stand as it has recognised them, and nothing it drives is about to change. -/
def Line.steady (l : Line) (pin : Bool) : Bool := l.first == pin && l.second == pin && l.level == pin && l.run == 0

def SetupPort.resting (p : SetupPort) : Bool :=
  !p.rose && p.drive.isNone && p.hold.isNone && p.sdaWas == p.sdaLow && p.scl.steady p.pinScl && p.sda.steady (p.pinSda && !p.sdaLow) &&
    p.sda1 == p.sda.level && p.sda2 == p.sda.level

/-- The port has done its part of the present edge. -/
def State.markSampled (s : State) : State := s.onEdge fun e => { e with sampled := true }

/-- The port's part of the present edge, where no command of the bus has done it: the lines are as they were left (log 50). -/
def State.closeEdge (s : State) : State := if s.edge.sampled then s else s.sampleBus.markSampled

/-- What the engine does to SDA is put on the line (R98). -/
def SetupPort.put (p : SetupPort) : SetupPort := { p with sdaWas := p.sdaLow, sdaLow := p.drive.getD p.sdaLow, drive := none }

end Sys2Proof.Machine
end

