-- ==== Sys2Proof/Machine/Edge.lean ====
section
/-! DEFINITION. The HCK edge, and the form of every command: edges pass, it acts, the flags settle. -/

namespace Sys2Proof.Machine

/-! ### The HCK edge -/

/-- The dither register (R289); its shift direction is log 26. -/
def lfsrNext (x : BitVec 7) : BitVec 7 := (x <<< 1) ||| (BitVec.ofBool (x.getLsbD 6 ^^ x.getLsbD 5)).setWidth 7

/-- Divider of the next switching period (R289). -/
def nextDivider (conv : Word) (x : BitVec 7) : Nat :=
  if bitOf conv 7 then
    let d := effSwdiv conv
    let b := x.toNat % 4
    max 2 (if b = 0 then d - 1 else if b = 3 then d + 1 else d)
  else effSwdiv conv

/-- k hc of switching, at most `fuel` periods (R289). -/
def switchRun (conv : Word) : Nat → Nat → Supply → Supply
  | 0, _, u => u
  | fuel + 1, k, u =>
    if k < u.swLeft then { u with swLeft := u.swLeft - k }
    else
      let x := if bitOf conv 7 then lfsrNext u.lfsr else u.lfsr
      let n := nextDivider conv x
      switchRun conv fuel (k - u.swLeft) { u with lfsr := x, divider := n, swLeft := n }

/-- k hc of the converter: whole periods of a fixed divider are skipped. -/
def Supply.run (u : Supply) (conv : Word) (k : Nat) : Supply :=
  if !u.switching then u
  else if bitOf conv 7 then switchRun conv (k + 1) k u
  else if k < u.swLeft then { u with swLeft := u.swLeft - k }
  else
    let n := effSwdiv conv
    { u with divider := n, swLeft := n - (k - u.swLeft) % n }

/-- Energy of the logic and I/O part on one edge: k_LOG for every edge in a clocked state, edges 1 to 64 of a clocking among them (R291,
R76; Table 2.2). -/
def State.drawLogic (s : State) : State := s.addEnergy Config.logicEnergy

/-- ATTN_N on the next edge: it follows the causes, and holds in DORMANT (R129, R43). -/
def State.attnNext (s : State) : Bool := if s.pw.st = .dormant then s.attn else decide (s.cause &&& s.enable ≠ 0)

/-! #### MRDY (R153 to R155) -/

/-- The stretches of the ready points before the cycles listed that are met on the edges a to b with the synchronised MRDY high; base: edge
F plus the stretches so far. A ready point whose bound has come stays open, and those after it are not reached. -/
def readyStretches (d bound a b : Nat) : List Nat → Nat → List Nat
  | [], _ => []
  | k :: t, base =>
    let p := base + d * (2 + k) - 1
    let e := max p a
    if b < e ∨ p + bound ≤ e then [] else (e - p) :: readyStretches d bound a b t (base + (e - p))

/-- The ready points that the transaction passes on the edges a to b, on all of which the synchronised MRDY is high (R153). -/
def Txn.pass (t : Txn) (d bound a b : Nat) : Txn :=
  { t with stretch := t.stretch ++ readyStretches d bound a b (t.ready.drop t.stretch.length) (t.fall + t.stretch.sum) }

/-- k edges of the memory port: MRDY passes its synchroniser, and an open transaction its ready points; for k > 1 the pin and both stages
are alike (R153). -/
def State.passMrdy (s : State) (k : Nat) : State :=
  s.onMem fun m =>
    { m with
      mrdy1 := m.mrdy, mrdy2 := m.mrdy1
      txn := if m.mrdy2 then m.txn.map fun t => t.pass s.d (mrdyBound s.applied.window.ctl) (s.now + 1) (s.now + k) else m.txn }

def MemPort.steady (m : MemPort) : Bool := m.mrdy1 == m.mrdy && m.mrdy2 == m.mrdy

/-! #### The edge -/

/-- What an HCK rising edge brings but for the set-up port's own part (an entry that falls on the edge of a CNT_LOGCLR action is stored
after it, R147): the count, what was put one edge later, then what follows (R25, R40, R129). -/
def State.advance (s : State) : State :=
  let l := s.later.filter (· == .clearLog) ++ s.later.filter (· != .clearLog)
  let s := s.passMrdy 1
  let s := { s with
    edge := EdgeRec.none
    later := []
    now := s.now + 1
    scNow := s.scNext
    scNext := 0
    attn := s.attnNext
    port := s.port.put
    cnv := { s.cnv with high := s.cnv.high && !s.cnv.drv }
    pw := { s.pw with hccnt := s.pw.hccnt + 1, trim := s.pw.trim || s.trimBy (s.now + 1) }
    sup := s.sup.run s.applied.supply.conv 1 }
  (l.foldl State.runDeferred s.drawLogic).takeSupply.settle

/-- One HCK rising edge: the set-up port takes its part of the edge before, last on that edge (log 44); then the edge itself, of which the
port's part is still to come. -/
def State.tick (s : State) : State := s.closeEdge.advance.onEdge fun e => { e with sampled := false }

/-- k edges on which nothing but the counts, the energy, ATTN_N, the switching and MRDY's ready points moves. -/
def State.coast (s : State) : Nat → State
  | 0 => s
  | k + 1 =>
    let s := (s.passMrdy (k + 1)).addEnergy (Config.logicEnergy * k)
    State.drawLogic { s with
      now := s.now + (k + 1)
      edge := EdgeRec.none
      attn := s.attnNext
      pw := { s.pw with hccnt := s.pw.hccnt + BitVec.ofNat 36 (k + 1), trim := s.pw.trim || s.trimBy (s.now + (k + 1)) }
      sup := s.sup.run s.applied.supply.conv (k + 1) }

/-- The lines that the engine samples, those of the set-up bus and MRDY, stand as it has recognised them. -/
def State.atRest (s : State) : Bool := s.port.resting && s.mem.steady

/-- k edges without a command, w of them at least one by one: four edges after the lines have come to rest all that was put later has come
about, so the rest coast (log 41). -/
def State.glide (s : State) : Nat → Nat → State
  | 0, _ => s
  | k + 1, w =>
    if s.atRest then (match w with | 0 => (s.coast (k + 1)).holdArm | w + 1 => s.tick.glide k w) else s.tick.glide k 4

/-- n HCK edges without a command. -/
def State.elapse (s : State) (n : Nat) : State := if s.ticking then s.glide n 4 else s

/-- An event does not come before its edge (log 2). -/
def State.waitUntil (s : State) (due : Nat) : State := s.elapse (due - s.now)

/-! ### The form of a command -/

/-- The machine on the edge on which a command acts: dt edges after the command before it. A command that follows a committed slot acts
from the next edge on (R109, log 44). -/
def State.arrive (s : State) (dt : Nat) : State := ((s.elapse (if s.edge.committed then max 1 dt else dt)).holdArm).disturb

/-- The end of a command: the flags settle. -/
def State.finish (s : State) : Host.Outcome State Fault Refusal := .next s.settle

/-- A command: dt edges pass, it acts, it ends. -/
def event (dt : Nat) (body : State → State) (s : State) : Host.Outcome State Fault Refusal := (body (s.arrive dt)).finish

end Sys2Proof.Machine
end

