-- ==== Sys2Proof/Machine/Bus.lean ====
section
/-! DEFINITION. The commands of the set-up bus: each gives the levels that the lines pass through, and names what they bring about
(spec/05). -/

namespace Sys2Proof.Machine

/-- The edge on which the port samples next: this one, unless it has sampled it already. -/
def State.busEdge (s : State) : State := if s.edge.sampled then s.elapse 1 else s

/-- Other devices leave the lines at these levels. -/
def State.setPins (s : State) (scl sda : Bool) : State := s.onPort fun p => { p with pinScl := scl, pinSda := sda }

/-- The lines take these levels, which the port samples on its next edge. -/
def State.busPair (s : State) (scl sda : Bool) : State := (s.busEdge.setPins scl sda).closeEdge

/-- The lines pass through the levels given, one pair for each HCK edge; the first falls on this edge unless the port has already sampled
it; the last stays on the lines (log 50). -/
def State.runBus : BusLevels → State → State
  | [], s => s
  | (scl, sda) :: t, s => runBus t (s.busPair scl sda)

/-! ### The commands: each names what its levels bring about -/

/-- I2C_START (R84, R85, R103). -/
def execI2cStart (dt : Nat) (lines : BusLevels) (s : State) : Host.Outcome State Fault Refusal :=
  event dt (fun s => s.runBus lines) s

/-- SLOT_COMMIT (R91). -/
def execSlotCommit (dt : Nat) (lines : BusLevels) (s : State) : Host.Outcome State Fault Refusal :=
  event dt (fun s => s.runBus lines) s

/-- I2C_DATA_BYTE (R86 to R94). -/
def execI2cDataByte (dt : Nat) (lines ack : BusLevels) (s : State) : Host.Outcome State Fault Refusal :=
  event dt (fun s => s.runBus (lines ++ ack)) s

/-- CNV_STATUS.bar_in as the capture finds it (R345). -/
def State.barSeen (s : State) (barIn : Bool) : State := if s.answering then s.onCnv fun c => { c with barIn := barIn } else s

/-- A low at the pin on the edge before this one has ended a run of high samples (R345). -/
def State.barLow (s : State) : State :=
  if s.answering then s.onCnv fun c => { c with high := false, lowAt := max c.lowAt (s.now - 1) } else s

/-- READ_CAPTURE (R95); bar_in is the pin as sampled on the edge before the last of the levels, on which the capture falls (R345). -/
def execReadCapture (bus : BusSpan) (barIn : Bool) (s : State) : Host.Outcome State Fault Refusal :=
  event bus.dt (fun s =>
    let s := (s.barSeen barIn).runBus bus.lines
    if barIn then s else s.barLow) s

/-- SCL_STRETCH_RELEASE (R100): SCL is released on the fourth edge after recognition (`SetupPort.sclLow`). -/
def execSclStretchRelease (bus : BusSpan) (s : State) : Host.Outcome State Fault Refusal :=
  event bus.dt (fun s =>
    let s := s.runBus bus.lines
    match s.port.hold with
    | some t => if s.ticking then s.waitUntil (t + 4) else s
    | none => s) s

/-- I2C_STOP (R102). -/
def execI2cStop (bus : BusSpan) (s : State) : Host.Outcome State Fault Refusal :=
  event bus.dt (fun s => s.runBus bus.lines) s

/-- FRAMING_ABORT (R103). -/
def execFramingAbort (dt : Nat) (lines after : BusLevels) (s : State) : Host.Outcome State Fault Refusal :=
  event dt (fun s => s.runBus (lines ++ after)) s

end Sys2Proof.Machine
end

