-- ==== Sys2Proof/Machine/Outputs.lean ====
section
/-! DEFINITION. Current limit, faults and foldback of the outputs (R296 to R299), and the VMID dwell (R282). -/

namespace Sys2Proof.Machine

/-- The ganged pairs that hold for output m: those of the running update that it belongs to, skipped or driven, else the applied ones (R267, R301). -/
def State.gangsAt (s : State) (m : Nat) : BitVec 144 :=
  ((s.rings.toList.findSome? fun r => match r.update? with
    | some (_, u) => (match u.stage with
      | .running _ => if u.claim.getLsbD m then some u.gangs else none
      | _ => none)
    | none => none)).getD (gangsOf s.applied.drive.gang)

/-- The other output of m's declared pair. -/
def State.partner (s : State) (m : OutNo) : Option OutNo :=
  if m.val < 288 ∧ (s.gangsAt m.val).getLsbD (m.val / 2) then
    some (Fin.ofNat 292 (if m.val % 2 = 0 then m.val + 1 else m.val - 1))
  else none

/-- Bit of an output in SUP_FAULT0 to SUP_FAULT8 (Table 7.16). -/
def outBit (m : OutNo) : BitVec 292 := BitVec.ofNat 292 (2 ^ m.val)

/-- Output m is faulted, unless it is already: its bit, its count, the cause; it floats from the next edge (R298), and stops being limited
on the edge after that (R296). -/
def State.markFault (s : State) (m : OutNo) : State :=
  let s := { s with
    sup := { s.sup with fault := s.sup.fault ||| outBit m }
    edge := { s.edge with fault := s.edge.fault ||| outBit m } }
  (((s.count .outFault).setCause (bitMask 4)).defer .floatFaulted)

/-- A detection at output m: both outputs of a ganged pair fault, each with its log entry (R298). -/
def State.outputFault (s : State) (detail : Nat) (m : OutNo) : State :=
  if s.sup.fault.getLsbD m.val then s
  else
    let s := (s.markFault m).log_ 0x20 detail 0 m.val
    match s.partner m with
    | some p => if s.sup.fault.getLsbD p.val then s else (s.markFault p).log_ 0x20 detail 0 p.val
    | none => s

/-- The limited count in the log entry of a foldback. -/
def State.foldCount (s : State) : Nat := min 255 s.sup.limited.length

/-- Foldback begins when the count rises above 16; its log entry holds the count that this edge ends with (R299). -/
def State.beginFoldback (s : State) : State :=
  if decide (16 < s.sup.limited.length) && !s.sup.foldback then
    let i := s.log.length
    (((s.onSup fun u => { u with foldback := true, noCheck := true }).setCause (bitMask 5)).log_ 0x21 s.foldCount 0 0).onEdge
      fun e => { e with fold := some i }
  else match s.edge.fold with
    | some i => { s with log := s.log.modify i fun e => { e with a := (e.a &&& ~~~(put 255 8)) ||| put s.foldCount 8 } }
    | none => s

/-- The rail status bits as sensed (R285). -/
def State.senseOk (s : State) (ok : BitVec 3) : State :=
  s.onSup fun u => { u with vposOk := ok.getLsbD 0, vnegOk := ok.getLsbD 1, vcomOk := ok.getLsbD 2 }

/-- Outputs are sensed for current limit (R296). -/
def State.senses (s : State) : Bool :=
  s.answering && decide (s.sup.phase = .up) &&
    (decide (s.pw.st = .armed) || decide (s.pw.st = .driving) || decide (s.pw.st = .recovery))

/-- The first edge on which the last level change of output m is 512 hc old (R296). -/
def State.changeDone (s : State) (m : OutNo) : Nat := s.drv.changed.getD m.val 0 + 512

/-- y is another limited output that entered limit at most 4 hc apart from x with the opposite direction, and is not the other of one pair
(Table 13.3). -/
def State.tied (s : State) (x y : Lim) : Bool :=
  decide (y.out ≠ x.out) && (y.sink != x.sink) && decide (x.entered - y.entered ≤ 4) && decide (y.entered - x.entered ≤ 4) &&
    decide (s.partner x.out ≠ some y.out)

/-- OUTPUT_LIMITED (R296, R299). -/
def execOutputLimited (dt : Nat) (m : OutNo) (held : Nat) (sink : Bool) (ok : BitVec 3) (s : State) :
    Host.Outcome State Fault Refusal :=
  event dt (fun s =>
    if s.senses && decide (512 ≤ held) && s.sensed m && !s.sup.limited.any fun l => l.out == m then
      let s := s.waitUntil (s.changeDone m)
      let x : Lim := ⟨m, s.now - held, s.now, sink, false⟩
      if !s.sensed m then s else
      ((s.onSup fun u => { u with limited := u.limited ++ [x] }).senseOk ok).beginFoldback
    else s) s

/-- OUTPUT_LIMIT_RELEASE (R296, R299): the edge after the output leaves limit. -/
def execOutputLimitRelease (dt : Nat) (m : OutNo) (ok : BitVec 3) (s : State) : Host.Outcome State Fault Refusal :=
  event dt (fun s =>
    if s.answering && s.sup.limited.any fun l => l.out == m then
      ((s.onSup fun u => { u with limited := u.limited.filter fun l => decide (l.out ≠ m) }).senseOk ok).endFoldback
    else s) s

/-- OUTPUT_FAULT (R297): 2,048 hc limited; tie contention in place of current limit where an output that it is tied to reaches the
condition too, on this edge, before or after it. Whichever of the outputs tied to it comes to the condition later is tied with it. -/
def execOutputFault (dt : Nat) (limit : LongLimit) (s : State) : Host.Outcome State Fault Refusal :=
  event dt (fun s =>
    let m := limit.out
    match s.sup.limited.find? fun l => l.out == m with
    | some x =>
      if s.senses then
        let s := s.waitUntil (x.since + 2048)
        let due := s.sup.limited.any fun y => s.tied x y && (limit.both || decide (y.since + 2048 ≤ s.now))
        let u := s.onSup fun u => { u with limited := u.limited.map fun l => { l with tied := l.tied || s.tied x l } }
        if s.sup.limited.any (fun l => l.out == m) then u.outputFault (if x.tied || due then 3 else 1) m else s
      else s
    | none => s) s

/-- PAIR_CONTENTION (R297): a declared pair that has carried opposite currents for 512 hc. -/
def execPairContention (dt : Nat) (p : Fin 144) (s : State) : Host.Outcome State Fault Refusal :=
  event dt (fun s =>
    let a : OutNo := Fin.ofNat 292 (2 * p.val)
    let b : OutNo := Fin.ofNat 292 (2 * p.val + 1)
    if s.senses && (s.gangsAt a.val).getLsbD p.val && !s.sup.fault.getLsbD a.val && !s.sup.fault.getLsbD b.val then
      ((s.markFault a).markFault b).log_ 0x22 0 0 p.val
    else s) s

/-- DWELL_END (R282). -/
def execDwellEnd (dt : Nat) (s : State) : Host.Outcome State Fault Refusal :=
  event dt (fun s => match s.drv.frames with
    | some f =>
      if s.answering && !f.dwell.isEmpty then
        (s.waitUntil (f.dwell0 + f.dwellLen)).onDrv fun d => { d with frames := d.frames.map fun f => { f with dwell := [] } }
      else s
    | none => s) s

end Sys2Proof.Machine
end

