-- ==== Sys2Proof/Machine/Drive.lean ====
section
/-! DEFINITION. The frame clock: the start of an update, the end of a frame, the barrier start (R252, R266 to R278, R346, R347). -/

namespace Sys2Proof.Machine

/-- An accumulator that has reached a limit holds it until it is cleared (R276, R363). -/
def dcbAdd (acc : BitVec 16) (l : Level) : BitVec 16 :=
  if acc.toInt ≥ 32767 ∨ acc.toInt ≤ -32767 then acc
  else match l with
    | .vpos => acc + 1
    | .vneg => acc - 1
    | _ => acc

/-- The accounting of the frame that ends (R276); a clear of this edge wins (R137). -/
def State.accountFrame (s : State) (f : Frames) : State :=
  if bitOf s.applied.drive.ctl 0 && !s.edge.dcbCleared then
    s.onDrv fun d => { d with dcb := d.dcb.mapIdx fun n a => dcbAdd a (f.target.getD n .vcom) }
  else s

/-- One frame further: sub-frame, then waveform frame, as it starts now (R277); true: a waveform frame has ended. -/
def State.nextRun (s : State) (x : Run) : Run × Bool :=
  if x.sub + 1 < x.slices then ({ x with sub := x.sub + 1 }, false) else (s.runFrom (x.frame + 1), true)

/-- Every g-th boundary asks for a progress mark (R330). -/
def Plan.markDue (p : Plan) (f : Nat) : Bool :=
  let lead := p.waves.getD p.lead []
  let b := boundariesUpTo lead (p.len - 1)
  let g := max 1 ((b + 22) / 23)
  endsPhase lead f && decide (boundariesUpTo lead f % g = 0)

/-- The waveform frame that has ended completes a phase of the lead waveform (R269). -/
def Runner.boundary (r : Runner) : Bool := !decide (r.run.sub + 1 < r.run.slices) && endsPhase (r.plan.waves.getD r.plan.lead []) r.run.frame

/-- An update's last frame has ended, or it is done without a frame: without a journal slot it finishes (R220, R270, R271). -/
def State.completeUpdate (s : State) (n : RingNo) (i : BitVec 16) : State := (s.count .updates).finishEntry n i

/-- Ring n's running update at the end of a frame (R269, R271, R330). -/
def State.stepUpdate (s : State) (n : RingNo) : State :=
  match s.rings[n].update? with
  | some (i, u) =>
    (match u.stage, u.plan with
     | .running x, some p =>
       let (y, ended) := s.nextRun x
       if !ended then s.onUpdate n fun u => { u with stage := .running y }
       else if p.len ≤ x.frame then
         match u.slot with
         | some q =>
           if (s.findSlot q).isSome then (s.onUpdate n fun u => { u with stage := .closing }).requestMark q .close
           else s.completeUpdate n i
         | none => s.completeUpdate n i
       else
         let s := s.onUpdate n fun u => { u with stage := .running y }
         match u.slot with
         | some q => if p.markDue x.frame then s.requestMark q (.progress x.frame) else s
         | none => s
     | _, _ => s)
  | none => s

/-- The slot in replay at the end of a frame (R336). -/
def State.stepReplay (s : State) : State :=
  match s.jnl.replayCur with
  | some c =>
    (match c.plan, c.run with
     | some p, some x =>
       let (y, ended) := s.nextRun x
       if ended && decide (p.len ≤ x.frame) then s.replayNext true else s.onReplaySlot fun c => { c with run := some y }
     | _, _ => s)
  | none => s

/-- The level check on a phase boundary (R297, R299). -/
def State.phaseBoundary (s : State) (f : Frames) (bad : BitVec 292) : State :=
  if s.sup.noCheck then (if s.sup.foldback then s else s.onSup fun u => { u with noCheck := false })
  else (List.finRange 292).foldl (fun s m =>
    if bad.getLsbD m.val && !f.dwell.contains m && decide (f.target.getD m.val .vcom ≠ .float) then s.outputFault 2 m else s) s

/-- A further phase of the runner starts where the boundary lies: it is not the end of its last waveform frame. -/
def Runner.phaseStarts (r : Runner) : Bool := r.boundary && decide (r.run.frame < r.plan.len)

/-- The clock stops with the levels prev: the state becomes ARMED (R252, Table 2.4). -/
def State.stopClock (s : State) (prev : List Level) : State :=
  let s := s.onDrv fun d => { d with frames := none, sliced := false }
  let s := (s.noteChange prev s.levels [] 0).onDrv fun d => { d with stopped := s.now, last := prev }
  if s.pw.st = .driving then (s.goTo .armed).onPw fun p => { p with armed0 := s.now } else s

/-- The end edge of the frame f: the level check at a phase boundary, the release of cleared faults where a next phase starts (R140), then
what starts or stops. A drive group that is still pending when the last frame ends applies on that end edge (DESIGN CHOICE, log 63). -/
def State.frameEnd (s : State) (f : Frames) (qpos qneg : Nat) (bad : BitVec 292) (vmid : Bool) : State :=
  let s := (s.accountFrame f).onSup fun u =>
    { u with qpos := BitVec.ofNat 18 (min 262143 qpos), qneg := BitVec.ofNat 18 (min 262143 qneg), vmid := vmid }
  let starts := s.runners.any Runner.phaseStarts
  let s := if s.runners.any Runner.boundary then s.phaseBoundary f bad else s
  let s := if starts then s.releaseFloats else s
  let s := s.applyDrive.checkAhead
  let s := ((List.finRange 4).foldl State.stepUpdate s).stepReplay
  if s.runners.isEmpty then s.stopClock f.target else s.startFrame f.target

/-- FRAME_END (R252). -/
def execFrameEnd (dt : Nat) (qpos qneg : Nat) (bad : BitVec 292) (vmid : Bool) (s : State) : Host.Outcome State Fault Refusal :=
  event dt (fun s => match s.drv.frames with
    | some f =>
      if s.answering then
        let s := s.waitUntil (f.start + f.len)
        match s.drv.frames with
        | some f => s.frameEnd f qpos qneg bad vmid
        | none => s
      else s
    | none => s) s

/-- Ring n's update is ready for frame 1 but for the barrier and the frame clock (R266). -/
def State.startable (s : State) (n : RingNo) : Bool :=
  s.answering && (decide (s.pw.st = .armed) || decide (s.pw.st = .driving)) && decide (s.sup.phase = .up) && s.sup.vposOk && s.sup.vnegOk &&
    match s.rings[n].update? with
    | some (_, u) => decide (u.stage = .ready) && u.plan.isSome
    | none => false

def State.gated (s : State) (n : RingNo) : Bool :=
  match s.rings[n].update? with
  | some (_, u) => u.gated
  | none => false

/-- Frame 1 of ring n's update starts on this edge: it starts the frame clock, or joins a frame that has just started (R252, R272). -/
def State.startUpdate (s : State) (n : RingNo) : State :=
  let prev := s.levelsBefore
  let s := s.applyDrive.checkAhead.releaseFloats
  let s := (s.goTo .driving).onUpdate n fun u => { u with stage := .running (s.runFrom 1) }
  match s.drv.frames with
  | none => s.startFrame prev
  | some f => s.drive f.prev

/-- UPDATE_START (R266, R272): an update that SYNC does not gate; while the clock runs, on one of its start edges. -/
def execUpdateStart (dt : Nat) (ring : RingNo) (s : State) : Host.Outcome State Fault Refusal :=
  event dt (fun s =>
    if s.startable ring && !s.gated ring && (match s.drv.frames with | some f => decide (f.start = s.now) | none => true) then
      s.startUpdate ring
    else s) s

/-- BARRIER_START (R266, R346, R347): 4 hc after recognition, or later where the reads end later; the barrier drops and the epoch loads
in place of the increment. Two rings that are ready at one barrier start on one edge. -/
def execBarrierStart (dt : Nat) (ring : RingNo) (s : State) : Host.Outcome State Fault Refusal :=
  event dt (fun s =>
    match s.rings[ring].barrier with
    | some b =>
      (match b.go with
       | some g =>
         if s.startable ring && s.gated ring then
           let s := s.waitUntil (g + 4)
           if s.startable ring && s.gated ring && (match s.drv.frames with | some f => decide (f.start = s.now) | none => true) then
             let s := s.startUpdate ring
             (if b.eload then s.onCnv fun c => { c with epoch := b.epoch } else s).dropBarrier ring
           else s
         else s
       | none => s)
    | none => s) s

end Sys2Proof.Machine
end

