-- ==== Sys2Proof/Machine/Convoy.lean ====
section
/-! DEFINITION. BAR_N and the barrier (spec/16). BARRIER_START stands with the frame clock. -/

namespace Sys2Proof.Machine

/-- The armed engine that is ready starts 4 hc after this recognition (R346). -/
def State.barGo (s : State) : State :=
  if s.answering && s.allReady then
    { s with rings := s.rings.map fun r => { r with barrier := r.barrier.map fun b => { b with go := b.go.or (some s.now) } } }
  else s

/-- BAR_N_RECOGNISED (R345, R346): 17 edges of the clocking with the line sampled high, so no earlier than 17 edges after the engine's own
release, after its first edge and after the last edge reported low, and not while the engine holds the line low. high = false: the pin is
not sampled high on this edge, which ends the run. -/
def execBarNRecognised (bar : BarSample) (s : State) : Host.Outcome State Fault Refusal :=
  event bar.dt (fun s =>
    if !s.ticking then s
    else if !bar.high then s.onCnv fun c => { c with high := false, lowAt := s.now }
    else if s.cnv.drv then s
    else
      let s := s.waitUntil (max (max s.cnv.rel s.pw.clk0) s.cnv.lowAt + 17)
      if s.cnv.drv then s else (s.onCnv fun c => { c with high := true }).barGo) s

/-- BARRIER_TIMEOUT (R348): the ring's barrier has been armed for n times 256 hc without recognition; its update goes on without it. -/
def execBarrierTimeout (dt : Nat) (ring : RingNo) (s : State) : Host.Outcome State Fault Refusal :=
  event dt (fun s => match s.rings[ring].barrier with
    | some b =>
      if s.answering && decide (b.limit ≠ 0) && b.go.isNone then
        let s := s.waitUntil (b.at0 + 256 * b.limit)
        if s.rings[ring].barrier = some b then s.dropBarrier ring else s
      else s
    | none => s) s

end Sys2Proof.Machine
end

