-- ==== Sys2Proof/Machine/Groups.lean ====
section
/-! DEFINITION. The safe points of the staged groups (R113, R176, R288). The thermal group applies in CONVERSION_RESULT (R306). -/

namespace Sys2Proof.Machine

/-- DRIVE_GROUP_APPLY (R113): the start edge of the next frame, or the edge after the commit when no update runs. -/
def execDriveGroupApply (dt : Nat) (s : State) : Host.Outcome State Fault Refusal :=
  event dt (fun s => match s.pend.drive with
    | some p =>
      if !s.answering then s
      else (s.waitUntil (match s.drv.frames with | some f => max (p.at0 + 1) (f.start + f.len) | none => p.at0 + 1)).applyDrive.checkAhead
    | none => s) s

/-- SUPPLY_GROUP_APPLY (R288): every set-point has its new value, or the rails are off. -/
def execSupplyGroupApply (dt : Nat) (s : State) : Host.Outcome State Fault Refusal :=
  event dt (fun s => match s.pend.supply with
    | some p => if s.answering then (s.waitUntil (p.at0 + 1)).completeSupply else s
    | none => s) s

/-- The window group applies, if its commit lies on an earlier edge; nothing is arbitrated on this edge (R113, R176). -/
def State.applyWindow (s : State) : State :=
  match s.pend.window with
  | some p =>
    if p.at0 < s.now then
      { s with
        applied := { s.applied with window := p.val }
        pend := { s.pend with window := none }
        edge := { s.edge with windowApplied := true } }
    else s
  | none => s

/-- WINDOW_GROUP_APPLY (R113, R176): MCS_N is high and no write sequence is open. -/
def execWindowGroupApply (dt : Nat) (s : State) : Host.Outcome State Fault Refusal :=
  event dt (fun s => match s.pend.window with
    | some p =>
      if s.answering && s.mem.cur.isNone && s.mem.txn.isNone && !s.edge.arbitrated then
        (s.waitUntil (max p.at0 s.mem.rise + 1)).applyWindow
      else s
    | none => s) s

end Sys2Proof.Machine
end

