-- ==== Sys2Proof/Machine/Reset.lean ====
section
/-! DEFINITION. Power, resets, the first clocking, wake, clock loss, shutdown, VIN undervoltage (spec/02, spec/03, spec/04,
spec/14 section 14.7). -/

namespace Sys2Proof.Machine

/-- Interruption that the engine meets with the rails up: the immediate discharge (Table 2.9, rows 3 and 4) and R396. The rails that
are still bleeding stay marked up until they are off. -/
def State.cutPower (s : State) (c : Cut) : State := (s.interruptAll c).fastDischarge

/-- The transaction on the set-up bus is abandoned and both lines are released (Table 2.9). -/
def State.dropBus (s : State) : State :=
  s.onPort fun p =>
    { p with
      phase := .idle, buf := none, cap := none, hold := none, ack := false, sdaLow := false, sdaWas := false, drive := none, rose := false,
      broken := false }

/-- What both resets clear (Table 4.2, "RSTN"): everything but TILE_ID, the locks and the LK registers. Rails that were up go on
bleeding (log 27); the store and the TAP are not touched. -/
def State.rstnClear (s : State) : State :=
  let s := s.fastDischarge
  let applied := { Staged.reset with
    window := { Staged.reset.window with win := s.applied.window.win }
    thermal := { Staged.reset.thermal with
      warn := s.applied.thermal.warn, throt := s.applied.thermal.throt, wrange := s.applied.thermal.wrange } }
  { State.reset with
    pending := s.pending
    now := s.now
    free := s.free
    tile := s.tile
    tileWritten := s.tileWritten
    lock := s.lock
    applied := applied
    shadow := applied
    sup := { Supply.reset with vlim := s.sup.vlim, phase := s.sup.phase, railsUp := s.sup.railsUp, near := s.sup.near }
    jnl := { Journal.reset with base := s.jnl.base, size := s.jnl.size }
    port := { SetupPort.reset with pinScl := s.port.pinScl, pinSda := s.port.pinSda }
    mem := { MemPort.reset with mrdy := s.mem.mrdy }
    rings := Vector.replicate 4 { Ring.reset with stale := true }
    pw := { Power.reset with por := s.pw.por, rstn := s.pw.rstn, hck := s.pw.hck, sd := s.pw.sd, uvlo := s.pw.uvlo }
    tap := s.tap }

/-- RSTN (Table 4.2): it recovers the engine from a host error unless a window, which it keeps, holds it (R7; log 5). -/
def State.rstnState (s : State) : State :=
  let t := s.rstnClear
  { t with wild := if t.errorHeld then s.wild else none }

/-- Power-on reset (Table 4.2, R369). The levels of RSTN, HCK and the comparators are not the engine's. -/
def State.porState (s : State) : State :=
  let s := s.fastDischarge
  { State.reset with
    pending := s.pending
    now := s.now
    free := s.free
    sup := { Supply.reset with phase := s.sup.phase, railsUp := s.sup.railsUp, near := s.sup.near }
    port := { SetupPort.reset with pinScl := s.port.pinScl, pinSda := s.port.pinSda }
    mem := { MemPort.reset with mrdy := s.mem.mrdy }
    pw := { Power.reset with por := true, rstn := s.pw.rstn, hck := s.pw.hck, sd := s.pw.sd, uvlo := s.pw.uvlo } }

/-- A clocking begins: the present edge is its edge 1 (R48, R70, R76). -/
def State.beginClocking (s : State) : State :=
  s.onPw fun p => { p with st := .dormant, qual := true, clk0 := s.now - 1 }

/-- Edge 1 falls on the next HCK edge; the set-up port has no edge to sample before it. A first clocking loads the trims and samples the
straps anew; so does the one that follows a first clocking in which HCK has stopped before edge 64 (R58, R76; log 45). -/
def State.firstEdge (s : State) : State :=
  ((s.onPw fun p =>
    { p with
      qual := true, clk0 := s.now, trim := !p.first && p.trim
      strap1 := if p.first then none else p.strap1, strap2 := if p.first then none else p.strap2 }).onEdge fun e =>
    { e with sampled := true }).elapse 1

/-- POWER_ON_RESET (R68). -/
def execPowerOnReset (dt : Nat) (s : State) : Host.Outcome State Fault Refusal :=
  event dt (fun s => s.porState) s

/-- POR_RELEASE (R67, R68): the engine is DORMANT; the next clocking is a first clocking, which the next HCK edge begins where HCK
already runs. -/
def execPorRelease (dt : Nat) (s : State) : Host.Outcome State Fault Refusal :=
  event dt (fun s =>
    if s.pw.por then
      let s := s.onPw fun p => { p with por := false, first := true, st := .dormant, qual := false }
      if s.ticking then s.firstEdge else s
    else s) s

/-- RSTN_ASSERT (R69). -/
def execRstnAssert (dt : Nat) (s : State) : Host.Outcome State Fault Refusal :=
  event dt (fun s =>
    let s := s.onPw fun p => { p with rstn := false }
    if s.pw.por then s else s.rstnState) s

/-- RSTN_RELEASE (R70): with HCK running this edge is edge 1 of the first clocking; otherwise HCK_START gives it. -/
def execRstnRelease (dt : Nat) (s : State) : Host.Outcome State Fault Refusal :=
  event dt (fun s =>
    if s.pw.rstn then s
    else
      let s := s.onPw fun p => { p with rstn := true, first := true }
      if s.ticking then s.firstEdge else s) s

/-- HCK_START (R48): the first rising edge after DORMANT. Under reset or a test-mode instruction HCK only runs (R68, R70). -/
def execHckStart (dt : Nat) (s : State) : Host.Outcome State Fault Refusal :=
  event dt (fun s =>
    if s.pw.hck then s
    else
      let s := s.onPw fun p => { p with hck := true }
      if s.ticking then s.firstEdge else s) s

/-- The pull of 2 kohm that the engine puts on strap i (0: ADR0, 1: ADR1) on edges 25 to 56 of a first clocking, opposite to the first
sample: to VIO (true) or to VSS (R58, Table 4.3). -/
def State.strapPull (s : State) (i : Fin 2) : Option Bool :=
  match s.pw.strap1 with
  | some (a0, a1) =>
    if s.pw.first && s.pw.qual && decide (s.pw.clk0 + 25 ≤ s.now) && decide (s.now < s.pw.clk0 + 57) then some (!(if i = 0 then a0 else a1))
    else none
  | none => none

/-- STRAP_FIRST_SAMPLE (R58): edge 24 of a first clocking. -/
def execStrapFirstSample (dt : Nat) (adr0 adr1 : Bool) (s : State) : Host.Outcome State Fault Refusal :=
  event dt (fun s =>
    if s.ticking && s.pw.qual && s.pw.first && s.pw.strap1.isNone then
      (s.waitUntil (s.pw.clk0 + 24)).onPw fun p => { p with strap1 := some (adr0, adr1) }
    else s) s

/-- STRAP_SECOND_SAMPLE (R58): edge 56. -/
def execStrapSecondSample (dt : Nat) (adr0 adr1 : Bool) (s : State) : Host.Outcome State Fault Refusal :=
  event dt (fun s =>
    if s.ticking && s.pw.qual && s.pw.first && s.pw.strap1.isSome && s.pw.strap2.isNone then
      (s.waitUntil (s.pw.clk0 + 56)).onPw fun p => { p with strap2 := some (adr0, adr1) }
    else s) s

/-- Level of a strap from its two samples (Table 3.4). -/
def strapLevel (first second : Bool) : BitVec 2 :=
  match first, second with
  | false, false => 0
  | false, true => 1
  | true, false => 2
  | true, true => 3

/-- ADDRESS_LATCH (R58, R59, R76, R304): edge 64 of a first clocking. -/
def execAddressLatch (dt : Nat) (s : State) : Host.Outcome State Fault Refusal :=
  event dt (fun s =>
    match s.pw.strap1, s.pw.strap2 with
    | some (a0, a1), some (b0, b1) =>
      if s.ticking && s.pw.qual && s.pw.first then
        let s := s.waitUntil (s.pw.clk0 + 64)
        let l0 := strapLevel a0 b0
        let l1 := strapLevel a1 b1
        ((s.onPw fun p => { p with
          st := if p.sd then .shutdown else .idle, qual := false, first := false, l0 := l0, l1 := l1
          addr := BitVec.ofNat 7 (0x60 + 4 * l1.toNat + l0.toNat) }).onThm fun t => { t with window0 := s.now }).evalWrange
      else s
    | _, _ => s) s

/-- WAKE_QUALIFIER_END (R36, R37, R46, R305, R349): edge 64 of a wake. -/
def execWakeQualifierEnd (dt : Nat) (s : State) : Host.Outcome State Fault Refusal :=
  event dt (fun s =>
    if s.ticking && s.pw.qual && !s.pw.first then
      let s := s.waitUntil (s.pw.clk0 + 64)
      let s := (s.onThm fun t =>
        { t with valid := false, rise := 0, current := false, window0 := s.now }).evalWrange
      let s := (s.onPw fun p => { p with qual := false }).dropBarriers
      if s.pw.sd then s.goTo .shutdown else s.abandonAll.resume
    else s) s

/-- CLOCK_LOSS (R45, Table 2.9): DORMANT; with the rails up the immediate discharge, clk_loss and the interruption of updates. A
replay that it interrupts starts again (R336). With the rails off only an update whose slot is open is interrupted: the wake replays it
(R39, R396, Table 2.4; DEDUCED, log 13). -/
def execClockLoss (dt : Nat) (s : State) : Host.Outcome State Fault Refusal :=
  event dt (fun s =>
    if !s.pw.hck then s
    else
      let s := s.closeEdge.onPw fun p => { p with hck := false }
      if s.heldInReset then s
      else
        let up := s.sup.railsUp
        let s := if s.jnl.replay.isSome then s.stopReplay else s
        let s := (s.dropBus.goTo .dormant).onPw fun p => { p with qual := false }
        if up then (s.cutPower .clockLoss).setStatus (bitMask 0) else s.interruptAll .clockLoss) s

/-- SHUTDOWN_TRIP (R47, R318): also while DORMANT, where the engine stays DORMANT (R37). Barriers are dropped (Table 16.2). While the
core is held in reset only the comparator's output is noted (DESIGN CHOICE, log 46). -/
def execShutdownTrip (dt : Nat) (s : State) : Host.Outcome State Fault Refusal :=
  event dt (fun s =>
    if s.pw.sd then s
    else
      let s := s.onPw fun p => { p with sd := true }
      if s.heldInReset then s
      else
        let s := if s.sup.railsUp || decide (s.pw.st ≠ .dormant) then s.cutPower .shutdown else s
        let s := s.setStatus (bitMask 1)
        if s.pw.st = .dormant then s
        else
          let s := if s.jnl.replay.isSome then s.stopReplay else s
          (s.dropBarriers.goTo .shutdown).onPw fun p => { p with shut := p.shut || p.busy }) s

/-- SHUTDOWN_RELEASE (R317): THM_STATUS.sd reads 0 from this edge. -/
def execShutdownRelease (dt : Nat) (s : State) : Host.Outcome State Fault Refusal :=
  event dt (fun s => if s.pw.sd then s.onPw fun p => { p with sd := false, sdClear := s.now } else s) s

/-- SHUTDOWN_EXIT (R319, R46): 64 hc after the first edge on which sd reads 0; a function-wide reset may end on it (R72). An update that
the trip has interrupted and that was not journaled is abandoned here (DESIGN CHOICE, log 47). -/
def execShutdownExit (dt : Nat) (s : State) : Host.Outcome State Fault Refusal :=
  event dt (fun s =>
    if s.answering && decide (s.pw.st = .shutdown) && !s.pw.sd then
      let s := s.waitUntil (s.pw.sdClear + 64)
      let s := if s.pw.busy && (match s.pw.drain with | some d => decide (d + 16 ≤ s.now) | none => false) then
        s.onPw fun p => { p with busy := false, drain := none, shut := false } else s
      s.abandonAll.resume
    else s) s

/-- The rails are up and their ramp has started (R75). -/
def Supply.rampBegun (u : Supply) : Bool :=
  u.railsUp && match u.phase with
    | .off => false
    | .sequencing _ => false
    | _ => true

/-- UVLO_ASSERT (R75). While the core is held in reset only the comparator's output is noted: no cause is set then or on the clocking after
(DESIGN CHOICE, log 46). Otherwise: with the ramp started and the rails up, the immediate discharge and the interruption, which need no clock; the
cause, the log entry, R46 and the state of Table 2.4 on this edge, or on the next one where HCK stands (R25). -/
def execUvloAssert (dt : Nat) (s : State) : Host.Outcome State Fault Refusal :=
  event dt (fun s =>
    if s.pw.uvlo then s
    else
      let hit := s.sup.rampBegun
      let s := s.onPw fun p => { p with uvlo := true }
      if s.heldInReset then s
      else
        let s := if hit then s.cutPower .uvlo else s
        if s.ticking then s.uvloSync hit else s.defer (.uvloSeen hit)) s

/-- UVLO_RELEASE (R75): a journaled update that waits for VIN is replayed now (R335, log 20). -/
def execUvloRelease (dt : Nat) (s : State) : Host.Outcome State Fault Refusal :=
  event dt (fun s =>
    let s := s.onPw fun p => { p with uvlo := false }
    if s.answering && s.replayOwed && !s.pw.busy && !s.checking then s.startReplay else s) s

/-- RESET_DRAIN_END (R72, step 2): the open transaction and its write sequence have ended. -/
def execResetDrainEnd (dt : Nat) (s : State) : Host.Outcome State Fault Refusal :=
  event dt (fun s =>
    if s.answering && s.pw.busy && s.pw.drain.isNone && s.mem.cur.isNone && s.mem.txn.isNone then s.drainEnd else s) s

/-- RESET_BUSY_END (R72, step 4): with the rails off, 16 hc after the later of step 2's end and the rails' end; a reset that SHUTDOWN has
met ends by SHUTDOWN_EXIT, or here, 16 hc after step 2, in the state that Table 2.4 has given. -/
def execResetBusyEnd (dt : Nat) (s : State) : Host.Outcome State Fault Refusal :=
  event dt (fun s =>
    let ends := fun (s : State) => s.onPw fun p => { p with busy := false, drain := none, shut := false }
    match s.pw.drain with
    | some d =>
      if !(s.answering && s.pw.busy) || decide (s.pw.st = .shutdown) then s
      else if s.pw.shut then ends (s.waitUntil (d + 16))
      else if !s.sup.railsUp && !s.later.contains .enterParking then
        let s := ends (s.waitUntil (max d s.pw.off0 + 16))
        if s.jnl.replay.isSome then s else s.resume
      else s
    | none => s) s

end Sys2Proof.Machine
end

