-- ==== Sys2Proof/WellFormed.lean ====
section
/-! DEFINITION. The operand ranges that the spec gives a command's operands. The machine does not need them: exec is total. -/

namespace Sys2Proof

/-- The opcodes of Table 18.1 other than BYPASS. -/
def listedOpcode (op : BitVec 4) : Bool :=
  op == 0#4 || op == 1#4 || op == 2#4 || op == 3#4 || op == 4#4 || op == 8#4

/-- The operands of a command lie in the ranges of the rules that its constructor cites. -/
def Instr.wf : Instr → Bool
  | .memTransactionEnd _ _ bytes => decide (bytes.length ≤ 514)
  | .outputLimited _ _ held _ _ => decide (512 ≤ held)
  | .conversionResult _ _ charge _ => charge.all fun (e, _, _) => decide (e ≤ 65536)
  | .bypass _ op => !listedOpcode op
  | _ => true

end Sys2Proof
end

