-- ==== Sys2Proof/Machine/Tap.lean ====
section
/-! DEFINITION. The test access port (spec/18). It works in every state, with or without HCK; power-on reset holds it in
Test-Logic-Reset (R368, R369). -/

namespace Sys2Proof.Machine

/-! ### The controller (R368) -/

/-- The state after a TCK rising edge with that level of TMS (IEEE 1149.1). -/
def TapCtl.next (c : TapCtl) (tms : Bool) : TapCtl :=
  match c with
  | .testLogicReset => if tms then .testLogicReset else .runTestIdle
  | .runTestIdle => if tms then .selectDr else .runTestIdle
  | .selectDr => if tms then .selectIr else .captureDr
  | .captureDr => if tms then .exit1Dr else .shiftDr
  | .shiftDr => if tms then .exit1Dr else .shiftDr
  | .exit1Dr => if tms then .updateDr else .pauseDr
  | .pauseDr => if tms then .exit2Dr else .pauseDr
  | .exit2Dr => if tms then .updateDr else .shiftDr
  | .updateDr => if tms then .selectDr else .runTestIdle
  | .selectIr => if tms then .testLogicReset else .captureIr
  | .captureIr => if tms then .exit1Ir else .shiftIr
  | .shiftIr => if tms then .exit1Ir else .shiftIr
  | .exit1Ir => if tms then .updateIr else .pauseIr
  | .pauseIr => if tms then .exit2Ir else .pauseIr
  | .exit2Ir => if tms then .updateIr else .shiftIr
  | .updateIr => if tms then .selectDr else .runTestIdle

/-- A state that acts on the rising edge that ends it. -/
def TapCtl.works (c : TapCtl) : Bool :=
  match c with
  | .captureDr => true
  | .shiftDr => true
  | .captureIr => true
  | .shiftIr => true
  | _ => false

/-- A state that acts when it is entered. -/
def TapCtl.updates (c : TapCtl) : Bool := decide (c = .updateDr) || decide (c = .updateIr) || decide (c = .testLogicReset)

/-- The state that TCK edges with those levels of TMS lead to, where none but the last of them has an effect. -/
def TapCtl.walk : TapCtl → List Bool → Option TapCtl
  | c, [] => some c
  | c, [b] => if c.works then none else some (c.next b)
  | c, b :: t => if c.works || (decide (c.next b ≠ c) && (c.next b).updates) then none else (c.next b).walk t

/-- The controller's state after those TCK edges where the last of them is the edge on which state c acts; none where they do not lead
there (log 37). -/
def TapCtl.reaches (from_ : TapCtl) (c : TapCtl) (tms : List Bool) : Option TapCtl :=
  match tms.getLast? with
  | none => none
  | some b =>
    if c.works then (if from_.walk tms.dropLast = some c then some (c.next b) else none)
    else if from_.walk tms = some c then some c else none

/-- The data register of the instruction register's value (Table 18.1, R370). -/
def dataReg (ir : BitVec 4) : DataReg :=
  if ir == 0 || ir == 1 then .boundary else if ir == 2 then .ident else if ir == 8 then .segment else .bypass

/-- The bit of the selected data register next to TDO (R374, R375). -/
def Tap.low (t : Tap) : Bool :=
  match dataReg t.ir with
  | .boundary => t.bnd.getLsbD 0
  | .ident => t.id.getLsbD 0
  | .bypass => t.byp
  | .segment => t.seg.getLsbD 0

/-- The controller enters state c; TDO follows, driven in the shift states alone (R368). -/
def Tap.enter (t : Tap) (c : TapCtl) : Tap :=
  { t with
    ctl := c
    tdo := match c with
      | .shiftIr => some (t.irShift.getLsbD 0)
      | .shiftDr => some t.low
      | _ => none }

/-- The TAP acts in state c, unless power-on reset holds it. -/
def State.onTap (s : State) (c : TapCtl) (tms : List Bool) (f : Tap → Tap) : State :=
  if s.pw.por then s
  else match s.tap.ctl.reaches c tms with
    | some c' => { s with tap := (f s.tap).enter c' }
    | none => s

/-! ### Instructions (R370, R371) -/

/-- The instruction register takes op. A test-mode instruction holds the core as RSTN does; the core starts as after RSTN on the edge
on which the register holds another one (R371, R70). -/
def State.loadIr (s : State) (c : TapCtl) (op : BitVec 4) : State :=
  if s.pw.por then s
  else
    let was := testMode s.tap.ir
    let held := s.heldInReset
    let t := { s with tap := ({ s.tap with ir := op, drive := if op = 8 then 0 else s.tap.drive }).enter c }
    if testMode op then (if held then t else t.rstnState)
    else if was then
      let t := t.onPw fun p => { p with first := true }
      if t.ticking then t.firstEdge else t
    else t

/-- Update-IR with op in the shift stage (R370). -/
def State.updateIr (s : State) (tms : List Bool) (op : BitVec 4) : State :=
  if s.tap.ctl.reaches .updateIr tms = some .updateIr ∧ s.tap.irShift = op then s.loadIr .updateIr op else s

/-- TEST_LOGIC_RESET (R369): TRST_N low, or by TMS; the instruction register holds IDCODE. -/
def execTestLogicReset (dt : Nat) (s : State) : Host.Outcome State Fault Refusal := event dt (fun s => s.loadIr .testLogicReset 2) s

/-- EXTEST (Table 18.1). -/
def execExtest (tap : TapSpan) (s : State) : Host.Outcome State Fault Refusal := event tap.dt (fun s => s.updateIr tap.tms 0) s

/-- SAMPLE/PRELOAD (Table 18.1). -/
def execSamplePreload (tap : TapSpan) (s : State) : Host.Outcome State Fault Refusal := event tap.dt (fun s => s.updateIr tap.tms 1) s

/-- IDCODE (Table 18.1). -/
def execIdcode (tap : TapSpan) (s : State) : Host.Outcome State Fault Refusal := event tap.dt (fun s => s.updateIr tap.tms 2) s

/-- CLAMP (Table 18.1). -/
def execClamp (tap : TapSpan) (s : State) : Host.Outcome State Fault Refusal := event tap.dt (fun s => s.updateIr tap.tms 3) s

/-- HIGHZ (Table 18.1). -/
def execHighz (tap : TapSpan) (s : State) : Host.Outcome State Fault Refusal := event tap.dt (fun s => s.updateIr tap.tms 4) s

/-- SEGTEST (R375): every drive bit is 0 from this edge. -/
def execSegtest (tap : TapSpan) (s : State) : Host.Outcome State Fault Refusal := event tap.dt (fun s => s.updateIr tap.tms 8) s

/-- BYPASS (R370), and every opcode that Table 18.1 does not list. -/
def execBypass (tap : TapSpan) (op : BitVec 4) (s : State) : Host.Outcome State Fault Refusal :=
  event tap.dt (fun s => s.updateIr tap.tms (if listedOpcode op then 0xF else op)) s

/-! ### Data registers -/

/-- The input cells of Table 18.4: MRDY, MDQS, MDQ7 to MDQ0, ADR1, ADR0, BAR_N, ATTN_N, SDA, SCL, RSTN, HCK. -/
def inputCells : BitVec 44 :=
  [5, 6, 7, 10, 13, 16, 19, 22, 25, 28, 32, 33, 34, 36, 38, 40, 42, 43].foldl (fun acc i => acc ||| BitVec.ofNat 44 (2 ^ i)) 0

/-- IDCODE of the delivery (Table 18.3). -/
def idcodeValue : BitVec 32 := if Config.filmDelivery then 0x121201AB else 0x111201AB

/-- k free bits (log 10). -/
def freeBits (k n : Nat) : Nat := (List.range k).foldl (fun acc i => acc + (Config.freeBit (n + i)).toNat * 2 ^ i) 0

/-- Bits 2m from the observe bits, bits 2m + 1 from the drive bits (R375). -/
def segPattern (observe drive : BitVec 292) : BitVec 584 :=
  BitVec.ofNat 584 ((List.range 292).foldl (fun acc m =>
    acc + (observe.getLsbD m).toNat * 4 ^ m + 2 * ((drive.getLsbD m).toNat * 4 ^ m)) 0)

/-- The drive bits of a segment-test pattern. -/
def segDrive (p : BitVec 584) : BitVec 292 :=
  BitVec.ofNat 292 ((List.range 292).foldl (fun acc m => acc + (p.getLsbD (2 * m + 1)).toNat * 2 ^ m) 0)

/-- The test sources are connected to the outputs: no rail is up, or both have been found within 1 V of ground (R375). -/
def Supply.testable (u : Supply) : Bool := !u.railsUp || (decide (u.phase = .fast) && u.near)

/-- Capture-DR on the TAP (R370, R373, R374, R375). What the output and control cells capture the spec does not state: free bits, from
number k on (log 11). -/
def Tap.capture (t : Tap) (k : Nat) (pins : BitVec 44) (observe : BitVec 292) : Tap :=
  match dataReg t.ir with
  | .boundary => { t with bnd := (pins &&& inputCells) ||| (BitVec.ofNat 44 (freeBits 44 k) &&& ~~~inputCells) }
  | .ident => { t with id := idcodeValue }
  | .bypass => { t with byp := false }
  | .segment => { t with seg := segPattern observe t.drive }

/-- Capture-DR: before the test sources connect, every observe bit captures 0 (R375, log 12). -/
def State.captureDr (s : State) (tms : List Bool) (pins : BitVec 44) (observe : Observation) : State :=
  let s := s.onSup fun u => { u with near := u.near || observe.near }
  let s := s.onTap .captureDr tms fun t => t.capture s.free pins (if s.sup.testable then observe.bits else 0)
  { s with free := s.free + 44 }

/-- CAPTURE_DR (R374, R375). -/
def execCaptureDr (tap : TapSpan) (pins : BitVec 44) (observe : Observation) (s : State) : Host.Outcome State Fault Refusal :=
  event tap.dt (fun s => s.captureDr tap.tms pins observe) s

/-- UPDATE_DR (R374, R375). -/
def execUpdateDr (tap : TapSpan) (s : State) : Host.Outcome State Fault Refusal :=
  event tap.dt (fun s => s.onTap .updateDr tap.tms fun t => match dataReg t.ir with
    | .boundary => { t with bndOut := t.bnd }
    | .segment => { t with drive := segDrive t.seg }
    | _ => t) s

/-- One TCK cycle in a shift state: the bit next to TDO leaves, TDI enters at the top (R368, R374). -/
def Tap.shift (t : Tap) (ir tdi : Bool) : Tap :=
  if ir then { t with irShift := t.irShift >>> 1 ||| (if tdi then 8 else 0) }
  else match dataReg t.ir with
    | .boundary => { t with bnd := t.bnd >>> 1 ||| (if tdi then BitVec.ofNat 44 (2 ^ 43) else 0) }
    | .ident => { t with id := t.id >>> 1 ||| (if tdi then BitVec.ofNat 32 (2 ^ 31) else 0) }
    | .bypass => { t with byp := tdi }
    | .segment => { t with seg := t.seg >>> 1 ||| (if tdi then BitVec.ofNat 584 (2 ^ 583) else 0) }

/-- TCK edges that only lead into a shift state: TDO is driven, nothing shifts yet (R368). -/
def State.enterShift (s : State) (c : TapCtl) : State := if s.pw.por then s else { s with tap := s.tap.enter c }

/-- TAP_SHIFT (R368, R370): the last TCK edge shifts, or is the one that enters the shift state, as after a pause. -/
def execTapShift (tap : TapSpan) (ir tdi : Bool) (s : State) : Host.Outcome State Fault Refusal :=
  event tap.dt (fun s =>
    let c := if ir then TapCtl.shiftIr else TapCtl.shiftDr
    if tap.tms ≠ [] ∧ s.tap.ctl.walk tap.tms = some c then s.enterShift c else s.onTap c tap.tms fun t => t.shift ir tdi) s

/-- CAPTURE_IR (R370). -/
def execCaptureIr (tap : TapSpan) (s : State) : Host.Outcome State Fault Refusal :=
  event tap.dt (fun s => s.onTap .captureIr tap.tms fun t => { t with irShift := 1 }) s

/-! ### Pins in test mode (Table 18.2) -/

/-- What Update-DR has set, where the boundary register drives the logic pins (Table 18.2); each pin's own cells: `State.logicPin`. -/
def State.boundaryPins (s : State) : Option (BitVec 44) := if s.tap.ir = 0 ∨ s.tap.ir = 3 then some s.tap.bndOut else none

/-- The connection of output m: test mode first (Table 18.2, R375), then Table 13.1. -/
def State.outputPin (s : State) (m : OutNo) : Level :=
  if s.tap.ir = 4 then .float
  else if s.tap.ir = 8 then (if !s.sup.testable then .node else if s.tap.drive.getLsbD m.val then .testHigh else .testLow)
  else if testMode s.tap.ir then .node
  else s.level m

end Sys2Proof.Machine
end

