-- ==== Sys2Proof/Machine/Journal.lean ====
section
/-! DEFINITION. The journal unit: the intent write, the scan's result, the end of a replay (spec/15). -/

namespace Sys2Proof.Machine

/-- The next slot (R323). -/
def State.nextSlot (s : State) : Nat := slotAt (sectorBytes s.jnl.ctl) s.jnl.wpos

/-- Slot q is the first of its sector. -/
def State.sectorFirst (s : State) (q : Nat) : Bool := decide (q % slotsPerSector (sectorBytes s.jnl.ctl) = 0)

def State.erases (s : State) : Bool := bitOf s.jnl.ctl 2

/-- The intent write into slot q waits (R324). -/
def State.slotBlocked (s : State) (q : Nat) : Bool :=
  let p := slotsPerSector (sectorBytes s.jnl.ctl)
  (s.findSlot q).isSome || (s.erases && s.sectorFirst q && s.jnl.slots.any fun o => o.q / p == q / p)

/-- The recorded new image: unselected segments hold their old state, the odd one of a pair the states of the even one (R325). -/
def Update.recorded (u : Update) : List Byte × List Byte :=
  let sel := u.selected
  let old := fun n => stateOf (u.oldImg.getD []) n
  (imageOf ((List.range 288).map fun n => if sel.getD n false then old (rep u.gangs n) else old n),
   imageOf ((List.range 288).map fun n => if sel.getD n false then u.newState (rep u.gangs n) else old n))

/-- The intent of ring n's update is requested (R330): the erase where due, then the record; the slot is open, the flag is set,
JNL_SEQ and JNL_WPOS advance (R39, R323, R324). -/
def State.requestIntent (s : State) (n : RingNo) (i : BitVec 16) (u : Update) : State :=
  let q := s.nextSlot
  let b := sectorBytes s.jnl.ctl
  let base := fld s.jnl.base 0 32 + slotOffset b q
  let lg := u.legend.getD []
  let img := u.recorded
  let bytes := intentBytes u.force (maskOf u.selected) img.1 img.2
    (headerWords s.jnl.seq n i u (legendIdent lg) (bandOf lg u.tpan) s.tile)
  let erase := if s.erases && s.sectorFirst q then [jnlAccess .erase n i (fld s.jnl.base 0 32 + b * (q / slotsPerSector b)) b q true []] else []
  let acc := jnlAccess .intent n i (if u.force then base else base + 36) bytes.length q true bytes
  let slot : OpenSlot := ⟨q, s.jnl.seq, n, i, u.force, base, 0, 0, true, false, none, 0, none, false⟩
  let s := s.onJnl fun j =>
    { j with
      queue := j.queue ++ erase ++ [acc]
      slots := j.slots ++ [slot]
      seq := j.seq + 1
      wpos := slotOffset b ((q + 1) % slotsInRegion b (regionBytes j.size)) }
  (s.onPw fun p => { p with jopen := true }).onUpdate n fun u => { u with slot := some q, stage := .intent }

/-- INTENT_WRITE (R324, R330): not during a check, a replay or a reset (R78, R396). -/
def execIntentWrite (dt : Nat) (ring : RingNo) (s : State) : Host.Outcome State Fault Refusal :=
  event dt (fun s => match s.rings[ring].update? with
    | some (i, u) =>
      if s.answering && decide (u.stage = .waitIntent) && !s.checking && !s.pw.busy && decide (s.pw.st ≠ .recovery) &&
          decide (s.pw.st ≠ .shutdown) then
        if !s.regionOk then s.err .journalRegion
        else if s.slotBlocked s.nextSlot then s
        else s.requestIntent ring i u
      else s
    | none => s) s

/-! ### The scan (R334) -/

/-- Slot q of the region's bytes: its intent record if valid. -/
def scanIntent (region : List Byte) (b q : Nat) : Option Intent :=
  let bs := (region.drop (slotOffset b q)).take 576
  parseIntent (bs.take 36) ((bs.drop 36).take 324)

/-- Mark m of slot q, if valid and of the sequence number. -/
def scanMark (region : List Byte) (b q : Nat) (seq : BitVec 24) (m : Nat) : Option (Nat × Nat) :=
  match parseMark ((region.drop (slotOffset b q + 360 + 9 * m)).take 9) with
  | some (k, sq, d) => if sq = seq then some (k, d) else none
  | none => none

/-- The open slot that the scan finds at q: newest progress mark, next mark position (R331, R334). -/
def scanOpen (region : List Byte) (b q base : Nat) (erase : Bool) : Option OpenSlot :=
  match scanIntent region b q with
  | none => none
  | some i =>
    let marks := (List.range 24).filterMap fun m => (scanMark region b q i.seq m).map fun k => (m, k)
    if marks.any fun x => x.2.1 == 9 || x.2.1 == 10 then none
    else
      let done := match marks.getLast? with | some x => x.2.2 | none => 0
      let pos :=
        if erase then
          ((List.range 24).filter fun m => ((region.drop (slotOffset b q + 360 + 9 * m)).take 9).any (· != 0xFF#8)).foldl (fun _ m => m + 1) 0
        else (match marks.getLast? with | some x => x.1 + 1 | none => 0)
      some ⟨q, i.seq, i.ring, i.index, i.force, base + slotOffset b q, pos, done, false, false, none, 0, none, false⟩

/-- The newest valid intent record of the region, with its slot (R329). -/
def newestIntent (l : List (Nat × BitVec 24)) : Option (Nat × BitVec 24) :=
  l.foldl (fun best x => match best with | some y => if newer x.2 y.2 then some x else some y | none => some x) none

/-- The open slots after a scan: those it has found, with their marks as read (R331, R334); what the chip still holds of one, it keeps
(log 57). -/
def State.rescan (s : State) (found : List OpenSlot) : State :=
  s.onJnl fun j =>
    { j with
      slots := found.map fun o => match j.slots.find? fun h => h.chip && h.q == o.q && decide (h.seq = o.seq) with
        | some h => { h with pos := o.pos, done := o.done }
        | none => o }

/-- The scan is complete: JNL_SEQ and JNL_WPOS, then the gate, or on open slots RECOVERY, which `State.settleCheck` enters (R78, R334). -/
def State.scanEnd (s : State) (c : Scan) : State :=
  let b := sectorBytes s.jnl.ctl
  let z := regionBytes s.jnl.size
  let slots := List.range (slotsInRegion b z)
  let p := slotsPerSector b
  let best := newestIntent (slots.filterMap fun q => (scanIntent c.bytes b q).map fun i => (q, i.seq))
  let s := s.onJnl fun j =>
    { j with
      scan := none
      scanFail := false
      seq := match best with | some x => x.2 + 1 | none => 0
      wpos := match best with
        | some x => slotOffset b ((if bitOf j.ctl 2 then p * (x.1 / p + 1) else x.1 + 1) % slotsInRegion b z)
        | none => 0 }
  if c.gateOpen then s
  else
    let open_ := slots.filterMap fun q => scanOpen c.bytes b q (fld s.jnl.base 0 32) s.erases
    let s := (s.rescan open_).forgetUpdates
    if s.jnl.slots.isEmpty then s.updateOpen.onJnl fun j => { j with gate := true }
    else (s.onPw fun p => { p with jopen := true }).onJnl fun j => { j with gateAfter := true }

/-- REPLAY_END (R336): the last close, or tombstone, is complete; one edge later the engine leaves RECOVERY. -/
def execReplayEnd (dt : Nat) (s : State) : Host.Outcome State Fault Refusal :=
  event dt (fun s => match s.jnl.replay with
    | some r =>
      if s.answering && decide (r.stage = .close) && !(s.jnl.slots.any fun o => o.replayed || o.wantTomb) && !s.later.contains .endRecovery then
        s.defer .endRecovery
      else s
    | none => s) s

end Sys2Proof.Machine
end

