-- ==== Sys2Proof/Machine/Memory.lean ====
section
/-! DEFINITION. The memory port: arbitration, transactions, the translation of accesses, what completion and failure of an access
mean for the unit that asked for it (spec/08; spec/10, spec/12, spec/15 for the units). -/

namespace Sys2Proof.Machine

/-! ### Windows (R165, R166) -/

/-- The windows that match a store address (R165). -/
def State.matching (s : State) (a : Nat) : List (Fin 8) := (List.finRange 8).filter fun n => s.applied.window.win[n].hits a

/-! ### Failures (R177, R131) -/

/-- What a log entry of a failure names (Table 7.25): code, ring, index. A journal record names the ring and entry of its slot. -/
def failureLog (a : Access) : Nat × RingNo × Nat :=
  let entry := a.index.toNat
  match a.asker with
  | .tail => (0x10, a.ring, entry)
  | .probe => (0x10, a.ring, entry)
  | .entry => (0x10, a.ring, entry)
  | .table => (0x11, a.ring, entry)
  | .aheadLegend _ => (0x11, a.ring, entry)
  | .aheadIndex _ => (0x11, a.ring, entry)
  | .oldImage => (0x11, a.ring, entry)
  | .newImage => (0x11, a.ring, entry)
  | .mask => (0x11, a.ring, entry)
  | .legend => (0x11, a.ring, entry)
  | .index => (0x11, a.ring, entry)
  | .record _ => (0x11, a.ring, entry)
  | .recordRest _ => (0x11, a.ring, entry)
  | .head v => (0x14, a.ring, v.toNat)
  | .scan => (0x13, 0, 0)
  | .erase => (0x12, a.ring, entry)
  | .intent => (0x12, a.ring, entry)
  | .progress _ => (0x12, a.ring, entry)
  | .close => (0x12, a.ring, entry)
  | .tomb => (0x12, a.ring, entry)
  | .replayIntent => (0x13, 0, 0)
  | .replayLegend => (0x13, 0, 0)
  | .replayIndex => (0x13, 0, 0)
  | .replayRecord _ => (0x13, 0, 0)
  | .replayRest _ => (0x13, 0, 0)

/-- The ring's update is discarded for a failed read and its ring stops (R265, R135). -/
def State.readFails (s : State) (n : RingNo) : State :=
  match s.rings[n].update? with
  | some (_, u) => if decide (u.stage = .reads) then (s.discardUpdate n).fetchFailure n else s
  | none => s

/-- Slot q has been closed or tombstoned: a replay that has it before it, or under work, leaves it (R336). -/
def State.dropReplaySlot (s : State) (q : Nat) : State :=
  let s := s.onJnl fun j => { j with
    queue := j.queue.filter fun a => !(a.slot == q && a.asker == .replayIntent)
    replay := j.replay.map fun r => { r with todo := r.todo.filter (· != q) } }
  match s.jnl.replayCur with
  | some c => if c.q = q then s.replayNext false else s
  | none => s

/-- A sector erase or intent write for slot q has failed: the update is discarded, or has been already, its ring stops, a tombstone is
written (R333, Table 15.4); a replay does not take the slot. -/
def State.intentFails (s : State) (n : RingNo) (q : Nat) : State :=
  let s := (s.dropReplaySlot q).onJnl fun j => { j with queue := j.queue.filter fun a => !(a.slot == q && a.asker == .intent) }
  let s := match s.rings[n].update? with
    | some (_, u) => if u.slot = some q then s.discardUpdate n else s.tombstone q
    | none => s.tombstone q
  s.fetchFailure n

/-- A failed close mark or tombstone is asked for again on later conversion results, at its position (R331, R333). -/
def State.retryLater (s : State) (a : Access) : State :=
  s.onSlot a.slot fun o => { o with retry := some a.asker, retryPos := (a.addr - o.base - 360) / 9 }

/-- A read of the replay has failed (R337, R80). -/
def State.replayFails (s : State) : State :=
  State.replayDischarge
    (s.onJnl fun j => { j with gate := false, gateAfter := false, scanFail := true, replay := j.replay.map fun r => { r with failed := true } })

/-- The unit's own answer to a failure of its access (R80, R135, R213, R223, R265, R333, R337). -/
def State.failUnit (s : State) (a : Access) : State :=
  match a.asker with
  | .tail => s.fetchFailure a.ring
  | .probe => s.fetchFailure a.ring
  | .entry => s.fetchFailure a.ring
  | .table => s.fetchFailure a.ring
  | .aheadLegend i => killAhead s a.ring i
  | .aheadIndex i => killAhead s a.ring i
  | .oldImage => s.readFails a.ring
  | .newImage => s.readFails a.ring
  | .mask => s.readFails a.ring
  | .legend => s.readFails a.ring
  | .index => s.readFails a.ring
  | .record _ => s.readFails a.ring
  | .recordRest _ => s.readFails a.ring
  | .head _ => s.fetchFailure a.ring
  | .scan => s.onJnl fun j => { j with scan := none, scanFail := true, gate := false }
  | .erase => s.intentFails a.ring a.slot
  | .intent => s.intentFails a.ring a.slot
  | .progress _ => s
  | .close => s.retryLater a
  | .tomb => s.retryLater a
  | .replayIntent => s.replayFails
  | .replayLegend => s.replayFails
  | .replayIndex => s.replayFails
  | .replayRecord _ => s.replayFails
  | .replayRest _ => s.replayFails
where
  /-- Every atlas record read ahead for the entry is discarded (R213). -/
  killAhead (s : State) (n : RingNo) (i : BitVec 16) : State :=
    let s := s.onRing n fun r => { r with fetched := r.fetched.map fun f =>
      if f.index = i then { f with ahead := { f.ahead with dead := true } } else f }
    match s.rings[n].update? with
    | some (j, u) => if j = i ∧ u.aheadTpan.isSome = true then s.onUpdate n fun u => { u with aheadTpan := none, legend := none, index := none } else s
    | none => s

/-- A failure is a journal write's, or the scan's (Table 7.7, jnl_fail). -/
def Asker.isJournal : Asker → Bool
  | .scan => true
  | .erase => true
  | .intent => true
  | .progress _ => true
  | .close => true
  | .tomb => true
  | _ => false

/-- The failure edge (R177, R131): registers, count, causes, log entry, then the unit. Data to be discarded concern no unit. -/
def State.memFailure (s : State) (code : Nat) (win addr : Nat) (drop : Bool) (a : Access) : State :=
  let w := put code 0 ||| put win 4 ||| bitIf a.write 7 ||| put a.user.toNat 8 ||| put a.ring.val 11
  let (log, ring, index) := failureLog a
  let s := s.onMem fun m => { m with fail := w, failAddr := put (addr % 2 ^ 32) 0 }
  let s := ((s.count .memFail).setCause (bitMask 6)).log_ log (fld w 0 8) ring index
  let s := if a.asker.isJournal then s.setCause (bitMask 7) else s
  if drop then s else s.failUnit a

/-! ### Transactions (Tables 8.1, 8.2) -/

/-- MCS_N falls at least 2 hc after the choice and 4 hc after the last rise (Table 8.1). -/
def State.fallEdge (s : State) : Nat := max (s.now + 2) (s.mem.rise + 4)

/-- A transaction of the access is chosen, with its edge F (Table 8.1). -/
def State.beginTxn (s : State) (o : OpenAccess) (kind : TxKind) (fall : Nat) : State :=
  s.onMem fun m => { m with cur := some o, txn := some (o.txn kind fall) }

/-- The first transaction of a read, or of the next piece of a write (R168, R169). -/
def State.beginPiece (s : State) (o : OpenAccess) : State :=
  let o := { o with polls := 0, fill := [] }
  let kind :=
    if !o.acc.write then TxKind.read
    else if o.win.profile = 2 then .h8write
    else if o.needsFill then .edgeFill
    else .writeEnable
  s.beginTxn o kind s.fallEdge

/-! ### What a completed access gives its unit -/

/-- An entry and its table are on chip: it is fetched (R210, R234), also where the read was open when SHUTDOWN or RECOVERY began (R216; DESIGN
CHOICE, log 66). -/
def State.gotEntry (s : State) (n : RingNo) (e : Entry) (table : List Byte) : State :=
  let r := s.rings[n]
  let f : Fetched := ⟨r.fetch, e, table, e.runsHere s.tile, ⟨none, none, s.applied.drive.atlas, s.thm.tpan, false⟩⟩
  (s.onRing n fun r =>
    { r with fetched := r.fetched ++ [f], fetch := r.fetch + 1, fetching := .none, probe := r.phaseMode }).onEdge
    fun x => { x with noAdmit := x.noAdmit ||| ringBit n }

/-- The tail word has been read (R202, R204): more than 2^k ahead of the head, or behind the tail read before, it is a host error. A head left
at 0 after RSTN is none: the engine runs what it finds from index 0 on (Table 20.5, log 56). -/
def State.gotTail (s : State) (n : RingNo) (bs : List Byte) : State :=
  let t := BitVec.ofNat 16 (fld (wordAt bs 0) 0 16)
  let r := s.rings[n]
  let far := decide (2 ^ ringExp r.ctl < (t - r.head).toNat)
  let s := if (far && !r.stale) || (r.tailRead && decide (2 ^ 15 ≤ (t - r.tail).toNat)) then s.err .tailSpan else s
  s.onRing n fun r => { r with tail := t, tailRead := true, stale := r.stale && far }

/-- A probe has read doublet 1 (R206, R208, R209). An index that is valid outside the span of the head is a host error (R199). -/
def State.gotProbe (s : State) (n : RingNo) (bs : List Byte) : State :=
  let r := s.rings[n]
  if phaseBit bs == !r.lap r.fetch then
    let s := if 2 ^ ringExp r.ctl ≤ (r.fetch - r.head).toNat then s.err .tailSpan else s
    s.onRing n fun r => { r with fetching := .entry }
  else s.onRing n fun r => { r with timer := some s.now }

/-- The reads of ring n's update are complete: states are checked, the drive is fixed; without a driven segment the update finishes,
a journaled one waits for its intent, another for the rails (R190, R264, R268, R270, R330). A gated update without a driven segment drops
its ring's barrier on this edge and loads no epoch (DESIGN CHOICE, log 67). -/
def State.readsDone (s : State) (n : RingNo) : State :=
  match s.rings[n].update? with
  | some (i, u) =>
    (match u.legend with
     | some lg =>
       if u.nextRead.isSome || decide (u.stage ≠ .reads) then s
       else
         let p := planOf (legendNs lg) (bandOf lg u.tpan) u.moves u.records
         let s := if u.statesBad (legendNs lg) then s.err .stateRange else s
         if !p.drives then (s.completeUpdate n i).onRing n fun r => if u.gated then { r with barrier := none } else r
         else s.onUpdate n fun u => { u with plan := some p, stage := if u.journaled then .waitIntent else .ready }
     | none => s)
  | none => s

/-- A read of ring n's update. -/
def State.gotUpdateRead (s : State) (n : RingNo) (f : Update → Update) : State := (s.onUpdate n f).readsDone n

/-- An atlas record read ahead: for the fetched entry, or for the update admitted meanwhile where R258 permits it (R394). -/
def State.gotAhead (s : State) (n : RingNo) (i : BitVec 16) (f : Fetched → Fetched) (g : Update → Update) : State :=
  let s := s.onRing n fun r => { r with fetched := r.fetched.map fun x => if x.index = i ∧ x.ahead.dead = false then f x else x }
  match s.rings[n].update? with
  | some (j, u) => if j = i ∧ u.aheadTpan.isSome = true then s.gotUpdateRead n g else s
  | none => s

/-- The legend read ahead is used only where its band is that of the fetch edge (R258). -/
def Update.takeLegend (u : Update) (bs : List Byte) : Update :=
  match u.aheadTpan with
  | some t => if bandOf bs t = bandOf bs u.tpan ∧ u.legend = none then { u with legend := some bs } else { u with aheadTpan := none }
  | none => u

/-- The slot in replay after a read; when all are there, its drive is fixed (R336). -/
def State.gotReplayRead (s : State) (f : ReplaySlot → ReplaySlot) : State :=
  let s := s.onReplaySlot f
  match s.jnl.replayCur with
  | some c =>
    (match c.intent, c.legend with
     | some i, some lg =>
       if (c.nextRead i).isSome then s
       else
         let s := if imageBad (legendNs lg) i.oldImg || imageBad (legendNs lg) i.newImg then s.err .stateRange else s
         s.onReplaySlot fun c => { c with plan := some (planOf (legendNs lg) i.band i.moves c.records) }
     | _, _ => s)
  | none => s

/-- The intent record as read back at replay; an invalid one is tombstoned and its update abandoned (R337). -/
def State.gotReplayIntent (s : State) (q : Nat) (bs : List Byte) : State :=
  match s.findSlot q with
  | none => s
  | some o =>
    let sel := if o.force then bs.take 36 else []
    let rec_ := if o.force then bs.drop 36 else bs
    match parseIntent sel rec_ with
    | some i =>
      ((s.onReplaySlot fun c => { c with intent := some i }).onJnl fun j => { j with replay := j.replay.map fun r => { r with last := some i } }).onSup
        fun u => { u with slew0 := s.now }
    | none =>
      let s := s.tombstone q
      let code := match o.cut with | some c => c.code | none => 1
      let s := (s.setStatus (bitMask 2)).log_ code 0 o.ring o.index.toNat
      let s := match s.rings[o.ring].update? with
        | some (j, u) => if u.slot = some q then s.finishEntry o.ring j else s
        | none => s
      s.replayNext false

/-- A read access is complete. -/
def State.readDone (s : State) (o : OpenAccess) (bs : List Byte) : State :=
  let n := o.acc.ring
  match o.acc.asker with
  | .tail => s.gotTail n bs
  | .probe => s.gotProbe n bs
  | .entry =>
    let e := entryOf bs
    if e.namesTable then s.onRing n fun r => { r with fetching := .table e } else s.gotEntry n e []
  | .table => (match s.rings[n].fetching with | .table e => s.gotEntry n e bs | _ => s)
  | .aheadLegend i => s.gotAhead n i (fun f => { f with ahead := { f.ahead with legend := some bs } }) (fun u => u.takeLegend bs)
  | .aheadIndex i =>
    s.gotAhead n i (fun f => { f with ahead := { f.ahead with index := some bs } }) (fun u => { u with index := some bs })
  | .oldImage => s.gotUpdateRead n fun u => { u with oldImg := some bs }
  | .newImage => s.gotUpdateRead n fun u => { u with newImg := some bs }
  | .mask => s.gotUpdateRead n fun u => { u with masks := u.masks ++ [bs] }
  | .legend => s.gotUpdateRead n fun u => { u with legend := some bs }
  | .index => s.gotUpdateRead n fun u => { u with index := some bs }
  | .record w => s.gotUpdateRead n fun u => { u with records := addRecord u.records w bs }
  | .recordRest w => s.gotUpdateRead n fun u => { u with records := addRest u.records w bs }
  | .scan =>
    (match s.jnl.scan with
     | some c =>
       let c := { c with bytes := c.bytes ++ bs }
       let s := s.onJnl fun j => { j with scan := some c }
       if regionBytes s.jnl.size ≤ c.bytes.length then s.scanEnd c else s.askScan
     | none => s)
  | .replayIntent => s.gotReplayIntent o.acc.slot bs
  | .replayLegend => s.gotReplayRead fun c => { c with legend := some bs }
  | .replayIndex => s.gotReplayRead fun c => { c with index := some bs }
  | .replayRecord w => s.gotReplayRead fun c => { c with records := addRecord c.records w bs }
  | .replayRest w => s.gotReplayRead fun c => { c with records := addRest c.records w bs }
  | .head _ => s
  | .erase => s
  | .intent => s
  | .progress _ => s
  | .close => s
  | .tomb => s

/-- A head write is complete: RINGn_HEAD, the MARK causes that it passes, and a further write where the completion point has moved on
(R221, R248, R356). -/
def State.headDone (s : State) (n : RingNo) (v : BitVec 16) : State :=
  let passes := fun (i : BitVec 16) => decide ((v - 1 - i).toNat < 2 ^ 15)
  let r := s.rings[n]
  let s := if r.marks.any passes then s.setCause (bitMask (16 + n.val)) else s
  (s.onRing n fun r =>
    { r with
      head := v
      headDue := r.headDue || decide (r.comp ≠ v)
      marks := r.marks.filter fun i => !passes i
      parkHead := r.parkHead.bind fun i => if passes i then none else some i }).onEdge fun e => { e with headTaken := e.headTaken ||| ringBit n }

/-- The slot is closed; without an open slot the flag clears (R39). -/
def State.closeSlot (s : State) (q : Nat) : State :=
  ((s.onJnl fun j => { j with slots := j.slots.filter fun o => o.q != q }).updateOpen).dropReplaySlot q

/-- A close mark is complete: the slot closes and its update finishes (R220, R271, R330, R336). -/
def State.closeDone (s : State) (q : Nat) : State :=
  match s.findSlot q with
  | none => s
  | some o =>
    let s := s.closeSlot q
    let s := if o.replayed then s.count .replays else s
    match s.rings[o.ring].update? with
    | some (i, u) => if u.slot = some q then s.completeUpdate o.ring i else s
    | none => s

/-- A write access is complete (R175, R221, R330 to R332). -/
def State.writeDone (s : State) (a : Access) : State :=
  match a.asker with
  | .head v => s.headDone a.ring v
  | .intent =>
    (match s.findSlot a.slot with
     | some o =>
       if o.wantTomb then s.requestMark a.slot .tomb
       else s.onUpdate o.ring fun u => if u.slot = some a.slot ∧ u.stage = .intent then { u with stage := .ready } else u
     | none => s)
  | .progress d => s.onSlot a.slot fun o => { o with done := d }
  | .close => s.closeDone a.slot
  | .tomb => (s.count .tomb).closeSlot a.slot
  | _ => s

/-! ### The commands -/

/-- The access's last transaction has ended. -/
def State.freePort (s : State) : State := s.onMem fun m => { m with cur := none, txn := none }

/-- An access that has not started is taken from its unit's request (R203, R209, R221). -/
def State.takeRequest (s : State) (a : Access) : State :=
  match a.asker with
  | .tail => s.onRing a.ring fun r => { r with bell := bitOf s.scNext (scDoor a.ring) }
  | .probe => s.onRing a.ring fun r => { r with bell := bitOf s.scNext (scDoor a.ring), probe := false, timer := none }
  | .head _ => s.onRing a.ring fun r => { r with headDue := false }
  | .erase => s.onJnl fun j => { j with queue := j.queue.erase a }
  | .intent => s.onJnl fun j => { j with queue := j.queue.erase a }
  | .progress _ => s.onJnl fun j => { j with queue := j.queue.erase a }
  | .close => s.onJnl fun j => { j with queue := j.queue.erase a }
  | .tomb => s.onJnl fun j => { j with queue := j.queue.erase a }
  | .scan => s.onJnl fun j => { j with queue := j.queue.erase a }
  | .replayIntent => s.onJnl fun j => { j with queue := j.queue.erase a }
  | _ => s

/-- The first access of a waveform record ends with its window at the latest (R264). -/
def Access.clip (a : Access) (w : Win) : Access :=
  match a.asker with
  | .record _ => { a with len := min a.len (w.last + 1 - a.addr) }
  | .replayRecord _ => { a with len := min a.len (w.last + 1 - a.addr) }
  | _ => a

/-- Another window than n matches one of the access's bytes (R165). -/
def State.doubleMatch (s : State) (n : Fin 8) (a : Access) : Bool :=
  let w := s.applied.window.win[n]
  (List.finRange 8).any fun m =>
    let v := s.applied.window.win[m]
    decide (m ≠ n) && v.on && decide (a.addr ≤ v.last) && decide (v.first ≤ min (a.addr + a.len - 1) w.last)

/-- The structures that the registers place in the store: first byte, length, owner (Table 10.3). Of an enabled ring its slots, its tail
word in index mode, its head word; the journal region while journaling is enabled. -/
def State.structures (s : State) : List (Nat × Nat) :=
  (s.rings.toList.flatMap fun r =>
    if r.enabled then
      [(fld r.base 0 32, 18 * 2 ^ ringExp r.ctl), (fld r.headAddr 0 32, 9)] ++ (if r.phaseMode then [] else [(fld r.tailAddr 0 32, 9)])
    else []) ++ (if bitOf s.jnl.ctl 0 then [(fld s.jnl.base 0 32, regionBytes s.jnl.size)] else [])

def spansMeet (a b : Nat × Nat) : Bool := decide (a.1 < b.1 + b.2) && decide (b.1 < a.1 + a.2)

/-- Some span of the list meets a later one. -/
def anyMeet : List (Nat × Nat) → Bool
  | [] => false
  | a :: t => t.any (spansMeet a) || anyMeet t

/-- A read of an image, a mask, a fragment table or the atlas. -/
def Asker.isData : Asker → Bool
  | .table => true
  | .aheadLegend _ => true
  | .aheadIndex _ => true
  | .replayLegend => true
  | .replayIndex => true
  | .replayRecord _ => true
  | .replayRest _ => true
  | k => k.isUpdateRead

/-- Where a run of store bytes lies at the targets: select code, first target address, length (R165). -/
def State.spot (s : State) (x : Nat × Nat) : Option (BitVec 3 × Nat × Nat) :=
  (s.matching x.1).head?.map fun n => (s.applied.window.win[n].selCode, s.applied.window.win[n].target x.1, x.2)

/-- Two runs share bytes of a target. -/
def State.spotsMeet (s : State) (x y : Nat × Nat) : Bool :=
  match s.spot x, s.spot y with
  | some (c, a), some (d, b) => c == d && spansMeet a b
  | _, _ => false

/-- Some window maps the journal region onto the data of this access, or of a ring (Table 17.3, R165). -/
def State.journalShared (s : State) (a : Access) : Bool :=
  let region := (fld s.jnl.base 0 32, regionBytes s.jnl.size)
  bitOf s.jnl.ctl 0 && ((s.structures.any fun x => x != region && s.spotsMeet x region) ||
    (a.asker.isData && s.spotsMeet (a.addr, a.len) region))

/-- Structures overlap in the store, as far as the registers and this access show it (Table 10.3, R8). -/
def State.structuresClash (s : State) (a : Access) : Bool :=
  anyMeet s.structures || (a.asker.isData && s.structures.any (spansMeet (a.addr, a.len)))

/-- The store address whose window the access belongs to: that of its first byte (R166); the rest of a waveform record belongs to the window
of the byte before it, in which the record has begun (R186, Table 9.2; DESIGN CHOICE, log 64). -/
def Access.anchor (a : Access) : Nat :=
  match a.asker with
  | .recordRest _ => a.addr - 1
  | .replayRest _ => a.addr - 1
  | _ => a.addr

/-- An access's window is resolved on its first arbitration (R165, R166, R169, R171, R159). -/
def State.startAccess (s : State) (a : Access) : State :=
  let s := s.takeRequest a
  match s.matching a.anchor with
  | [] => s.memFailure 3 0 a.addr false a
  | n :: more =>
    let w := s.applied.window.win[n]
    let a := a.clip w
    let s := if !more.isEmpty || s.doubleMatch n a || s.journalShared a then s.err .windowsOverlap else s
    let s := if s.structuresClash a then s.err .structuresOverlap else s
    if w.last < a.addr + a.len - 1 then s.memFailure 7 n.val a.addr false a
    else if a.write && !w.writable then s.memFailure 4 n.val a.addr false a
    else if a.asker == .erase && decide (w.profile = 2) then s.writeDone a
    else
      let s := if decide (w.profile ≠ 0) && decide (w.latency = 0) then s.err .zeroLatency else s
      s.beginPiece ⟨a, w, n.val, w.target a.addr, a.len, [], 0, [], false⟩

/-- The arbitration (R173). -/
def State.arbitrate (s : State) : State :=
  match s.choice with
  | none => s
  | some c =>
    let s := s.onEdge fun e => { e with arbitrated := true }
    match c with
    | .inl o => (s.onMem fun m => { m with parked := m.parked.erase o }).beginPiece o
    | .inr a => s.startAccess a

/-- The port may choose (R173, R176). -/
def State.mayArbitrate (s : State) : Bool :=
  s.answering && s.mem.cur.isNone && s.mem.txn.isNone && s.pend.window.isNone && !s.edge.windowApplied

/-- MEM_ARBITRATE (R173): once per edge; where this edge is used up, or before MCS_N has risen, on the next that may. -/
def execMemArbitrate (dt : Nat) (s : State) : Host.Outcome State Fault Refusal :=
  event dt (fun s =>
    let s := if s.mayArbitrate then (if s.edge.arbitrated then s.elapse 1 else s).waitUntil s.mem.rise else s
    if s.mayArbitrate && !s.edge.arbitrated then s.arbitrate else s) s

/-- n bytes of the bus; where the target returned fewer, the keepers' level (R397). -/
def busBytes (n : Nat) (bytes : List Byte) : List Byte := (List.range n).map fun k => bytes.getD k (Config.keeperByte k)

/-- MCS_N rises; the select code stays as the transaction had it. -/
def State.riseNow (s : State) : State :=
  s.onMem fun m =>
    { m with
      txn := none, rise := s.now
      sel := (match m.txn with | some t => t.sel | none => m.sel), lastIdle := (match m.txn with | some t => t.idle | none => m.lastIdle) }

/-- The access goes on after a piece, or is complete (R168, R169). -/
def State.pieceDone (s : State) (o : OpenAccess) (k : Nat) (bs : List Byte) : State :=
  let o := { o with target := (o.target + k) % 2 ^ 32, left := o.left - k, got := o.got ++ bs }
  if o.acc.write then
    if o.left = 0 ∨ o.acc.asker = .erase then (s.freePort).writeDone o.acc else s.beginPiece o
  else
    let s := s.freePort
    if o.drop then s
    else if o.left = 0 then s.readDone o o.got
    else s.onMem fun m => { m with parked := m.parked ++ [o] }

/-- Store address of the first byte of a transaction (R177). -/
def OpenAccess.txnAddr (o : OpenAccess) (t : Txn) : Nat := o.acc.addr + (o.acc.len - o.left) + t.lo - o.target

/-- A transaction fails: the access ends (R177). -/
def State.txnFails (s : State) (o : OpenAccess) (t : Txn) (code : Nat) : State :=
  (s.onMem fun m => { m with cur := none }).memFailure code o.wix (o.txnAddr t) o.drop o.acc

/-- Bytes that MDQS marks in a transaction (R158, R163): data first, then in H8 the status pair. -/
def OpenAccess.strobed (o : OpenAccess) (t : Txn) : Nat × Nat :=
  if o.win.profile = 0 then (0, 0)
  else match t.kind with
    | .read => if o.win.profile = 2 then ((t.count + 1) / 2 * 2, 2) else (t.count, 0)
    | .edgeFill => (t.count, 0)
    | .status => (2, 0)
    | .h8write => (0, 2)
    | _ => (0, 0)

/-- End of MSCK cycle k - 1 of the transaction, which is the start of cycle k, with the stretches so far (Table 8.1, R153). -/
def Txn.cycleAt (t : Txn) (d k : Nat) : Nat :=
  t.fall + d * (2 + k) + (((t.ready.zip t.stretch).filter fun p => decide (p.1 ≤ k)).map (·.2)).sum

/-- End of the cycle before k, without the stretch at k's own ready point. -/
def Txn.endBefore (t : Txn) (d k : Nat) : Nat :=
  t.fall + d * (2 + k) + (((t.ready.zip t.stretch).filter fun p => decide (p.1 < k)).map (·.2)).sum

/-- Every ready point of the transaction has been passed. -/
def Txn.decided (t : Txn) : Bool := decide (t.ready.length ≤ t.stretch.length)

/-- The transaction as it goes on from edge e if MRDY stays as it is at the pin: the two stages of the synchroniser first (R153). -/
def Txn.foresee (t : Txn) (m : MemPort) (d bound e : Nat) : Txn :=
  let t := if m.mrdy2 then t.pass d bound (e + 1) (e + 1) else t
  let t := if m.mrdy1 then t.pass d bound (e + 2) (e + 2) else t
  if m.mrdy then t.pass d bound (e + 3) (max (e + 3) (t.cycleAt d t.cycles + t.ready.length * bound)) else t

/-- The edge on which the stretch at the next ready point reaches its bound: the edge of the failure (R155). -/
def Txn.mrdyFails (t : Txn) (d bound : Nat) : Option Nat :=
  (t.ready[t.stretch.length]?).map fun k => t.fall + d * (2 + k) + t.stretch.sum - 1 + bound

/-- The status pair of an H8 transaction reports success (R163). -/
def h8Ok (st : List Byte) : Bool := st.getD 0 0xFF == 0x00 && st.getD 1 0x00 == 0xFF

/-- The end of a transaction: what the target returned is used (R150, R158, R168 to R171). -/
def State.txnEnd (s : State) (o : OpenAccess) (t : Txn) (bytes : List Byte) : State :=
  let s := s.riseNow
  match t.kind with
  | .read =>
    if o.win.profile = 2 then s.pieceDone o t.piece (busBytes t.piece bytes)
    else s.pieceDone o t.piece (((busBytes t.count bytes).drop (o.target - t.lo)).take t.piece)
  | .edgeFill =>
    let o' := { o with fill := o.fill ++ busBytes t.count bytes }
    s.beginTxn o' (if o.farEnds && o.fill.isEmpty then .edgeFill else .writeEnable) s.fallEdge
  | .writeEnable => s.beginTxn o (if o.acc.asker == .erase then .erase else .program) s.fallEdge
  | .program => s
  | .erase => s
  | .status =>
    if ((busBytes t.count bytes).getD 0 0).getLsbD 0 then
      if o.polls + 1 = o.win.pollMax then s.txnFails o t 2 else s.onMem fun m => { m with cur := some { o with polls := o.polls + 1 } }
    else s.pieceDone o t.piece []
  | .h8write => s.pieceDone o t.piece []

/-- A transaction is cut short by a failure; MCS_N rises d hc later (R177). -/
def State.abortTxn (s : State) (o : OpenAccess) (t : Txn) (code : Nat) : State :=
  let s := (s.txnFails o t code).elapse s.d
  s.riseNow

/-- The access of the transaction, on the edge given: it may have ended meanwhile. -/
def State.atEdge (s : State) (edge : Nat) (body : OpenAccess → State → State) : State :=
  let s := s.waitUntil edge
  match s.mem.cur with
  | some o => if s.mem.txn.isSome then body o s else s
  | none => s

/-- The edge after the 8th MSCK cycle after the last data cycle, or after the status cycle: that of a missing MDQS edge (R159). -/
def Txn.late (d last : Nat) : Nat := last + 8 * d + 1

/-- How a transaction ends where MRDY stays as it is now: a stretch that reaches its bound fails it (R155); an MDQS edge that is missing, or
later than 8 MSCK cycles, too (R159), of the data whatever the status cycle's ready point does; an H8 status pair that shows no success, on
the edge on which it is recognised (R163); otherwise MCS_N rises d hc after the last cycle, or the last MDQS edge. -/
def State.endTxn (s : State) (o : OpenAccess) (t : Txn) (wait : Nat) (bytes : List Byte) : State :=
  let d := s.d
  let bound := mrdyBound s.applied.window.ctl
  let t := t.foresee s.mem d bound s.now
  let (data, stat) := o.strobed t
  let lacks := decide (bytes.length < data)
  let lateData := Txn.late d (t.endBefore d (if stat = 0 then t.cycles else t.cycles - 1))
  match t.mrdyFails d bound with
  | some e =>
    if lacks && decide (stat ≠ 0) && decide (t.stretch.length + 1 = t.ready.length) && decide (lateData ≤ e) then
      s.atEdge lateData fun o s => s.abortTxn o t 5
    else s.atEdge e fun o s => s.abortTxn o t 1
  | none =>
    let last := t.cycleAt d t.cycles
    if lacks then s.atEdge lateData fun o s => s.abortTxn o t 5
    else if bytes.length < data + stat ∨ (0 < data + stat ∧ 8 * d < wait) then s.atEdge (Txn.late d last) fun o s => s.abortTxn o t 5
    else
      let wait := if 0 < data + stat then wait else 0
      if 0 < stat ∧ h8Ok (bytes.drop data) = false then s.atEdge (last + wait) fun o s => s.abortTxn o t 6
      else s.atEdge (last + wait + d) fun o s => s.txnEnd o t bytes

/-- MRDY takes the levels given, one for each HCK edge from the next one on; the last stays at the pin (R153, log 53). -/
def State.runMrdy : List Bool → State → State
  | [], s => s
  | b :: l, s => runMrdy l ((s.onMem fun m => { m with mrdy := b }).elapse 1)

/-- MEM_TRANSACTION_END (R150). It needs HCK alone: a transaction that DORMANT has held goes on with the next clocking (R50). -/
def execMemTransactionEnd (dt : Nat) (delay : BusDelay) (bytes : List Byte) (s : State) : Host.Outcome State Fault Refusal :=
  event dt (fun s =>
    if !s.ticking then s
    else
      let s := s.runMrdy delay.mrdy
      match s.mem.cur, s.mem.txn with
      | some o, some t => s.endTxn o t delay.wait bytes
      | _, _ => s) s

/-- A program or an erase is in progress and waits for its next poll: its gap in hc (R169, R171). -/
def State.pollGap (s : State) : Option (OpenAccess × Nat) :=
  match s.mem.cur, s.mem.txn with
  | some o, none => some (o, o.win.pollGap * (if o.acc.asker == .erase then 256 else 1))
  | _, _ => none

/-- STATUS_POLL (R169): the gap has passed since MCS_N rose. -/
def execStatusPoll (dt : Nat) (s : State) : Host.Outcome State Fault Refusal :=
  event dt (fun s => match s.pollGap with
    | some (o, gap) =>
      if s.ticking then
        let s := s.waitUntil (s.mem.rise + gap)
        match s.pollGap with
        | some _ => s.beginTxn o .status s.now
        | none => s
      else s
    | none => s) s

/-- MRDY_STRETCH_TIMEOUT (R155): after the levels given MRDY stays low; the stretch at the next ready point reaches its bound. -/
def execMrdyStretchTimeout (at_ : StretchSpan) (s : State) : Host.Outcome State Fault Refusal :=
  event at_.dt (fun s =>
    if !s.ticking then s
    else
      let s := s.runMrdy (at_.mrdy ++ [false])
      let b := mrdyBound s.applied.window.ctl
      match s.mem.cur, s.mem.txn with
      | some _, some t =>
        (match (t.foresee s.mem s.d b s.now).mrdyFails s.d b with
         | some e => s.atEdge e fun o s => s.abortTxn o t 1
         | none => s)
      | _, _ => s) s

/-- The transaction returns data with MDQS (R158, R163). -/
def usesMdqs (o : OpenAccess) (k : TxKind) : Bool :=
  match k with
  | .read => decide (o.win.profile ≠ 0)
  | .edgeFill => true
  | .status => decide (o.win.profile = 1)
  | .h8write => true
  | _ => false

/-- MDQS_TIMEOUT (R159): no MDQS edge has come; the edge after the 8th MSCK cycle after the last data cycle, or after the status cycle. -/
def execMdqsTimeout (at_ : StretchSpan) (s : State) : Host.Outcome State Fault Refusal :=
  event at_.dt (fun s =>
    if !s.ticking then s
    else
      let s := s.runMrdy at_.mrdy
      match s.mem.cur, s.mem.txn with
      | some o, some t => if usesMdqs o t.kind then s.endTxn o t 0 [] else s
      | _, _ => s) s

end Sys2Proof.Machine
end

