-- ==== Sys2Proof/Machine/Rings.lean ====
section
/-! DEFINITION. The admission of ring entries (spec/10 section 10.6, spec/11) and the poll timer (R209). -/

namespace Sys2Proof.Machine

/-- Ring n's oldest fetched entry is taken (R217, R218). -/
def State.takeEntry (s : State) (n : RingNo) : State :=
  (s.onRing n fun r => { r with fetched := r.fetched.tail }).onEdge
    fun e => { e with admitted := true, ran := e.ran ||| ringBit n }

/-- The form of the admission rows: where the edge is used up, or the ring's last entry has only just finished or been fetched, the
admission falls on the next edge (R218, R235); then the entry, if it is the one to be admitted and of the row's opcode. -/
def admitRow (dt : Nat) (n : RingNo) (ok : Fetched → Bool) (body : Fetched → State → State) (s : State) : Host.Outcome State Fault Refusal :=
  event dt (fun s =>
    if !s.answering then s
    else
      let s := if s.edge.noAdmit.getLsbD n.val || s.edge.admitted then s.elapse 1 else s
      match s.rings[n].fetched with
      | f :: _ =>
        if s.chosen n && ok f then
          let wrong := (s.rings[n].syncNext && !f.entry.isUpdate) || (s.rings[n].barrier.isSome && f.entry.op == 5)
          let s := if f.runsHere && wrong then s.err .syncOrder else s
          body f (s.takeEntry n)
        else s
      | [] => s) s

/-- The update of an admitted UPDATE or CLEAR, with everything that its admission edge fixes (R239, R240, R258, R261, R267, R325). -/
def State.newUpdate (s : State) (n : RingNo) (f : Fetched) : Update :=
  let lg := f.ahead.legend
  let same := match lg with | some l => bandOf l f.ahead.tpan == bandOf l s.thm.tpan | none => true
  let use := !f.ahead.dead && f.ahead.atlas == s.applied.drive.atlas && same
  let gangs := gangsOf s.applied.drive.gang
  { clear := f.entry.op == 2
    force := f.entry.flag
    journaled := bitOf s.jnl.ctl 0
    gated := s.rings[n].gatesNext
    preRamp := s.mayPreRamp
    old := BitVec.ofNat 32 (fld f.entry.w1 0 32)
    new_ := BitVec.ofNat 32 (fld f.entry.w2 0 32)
    state := BitVec.ofNat 4 (fld f.entry.w2 0 4)
    frags := f.entry.frags f.table
    claim := s.claimOfFetched f
    gangs := gangs
    tpan := s.thm.tpan
    aheadTpan := if use then some f.ahead.tpan else none
    atlas := s.applied.drive.atlas
    frameLen := effFrameLen s.applied.drive.frameLen
    tp := BitVec.ofNat 8 (fld s.applied.drive.tp 0 8)
    vpos := BitVec.ofNat 9 (fld s.applied.supply.vpos 0 9)
    vneg := BitVec.ofNat 9 (fld s.applied.supply.vneg 0 9)
    vcom := BitVec.ofNat 10 (fld s.applied.supply.vcom 0 10)
    stage := .reads
    oldImg := none
    newImg := none
    masks := []
    legend := if use then lg else none
    index := if use then f.ahead.index else none
    records := []
    plan := none
    slot := none }

/-- An UPDATE or CLEAR is admitted (R262); pre-ramp may be asked for again (R287). A range that no rule allows is a host error
(R250). -/
def State.admitUpdate (s : State) (n : RingNo) (f : Fetched) : State :=
  let u := s.newUpdate n f
  let s := if u.frags.all Frag.trusted then s else s.err .segmentRange
  (s.onRing n fun r => { r with work := some (f.index, .update u), syncNext := false }).onSup fun p => { p with noPreRamp := false }

/-- UPDATE (R262). -/
def execUpdate (dt : Nat) (ring : RingNo) (s : State) : Host.Outcome State Fault Refusal :=
  admitRow dt ring (fun f => f.runsHere && f.entry.op == 1) (fun f s => s.admitUpdate ring f) s

/-- CLEAR (R236): as an UPDATE whose new image holds its state in every segment. -/
def execClear (dt : Nat) (ring : RingNo) (s : State) : Host.Outcome State Fault Refusal :=
  admitRow dt ring (fun f => f.runsHere && f.entry.op == 2) (fun f s => s.admitUpdate ring f) s

/-- The groups that an ID_COMMIT of this edge has named (R118). -/
def State.commitsNow (s : State) : BitVec 4 :=
  let at_ := fun (t : Option Nat) => t == some s.now
  BitVec.ofNat 4 ((if at_ (s.pend.drive.map (·.at0)) then 1 else 0) + (if at_ (s.pend.supply.map (·.at0)) then 2 else 0) +
    (if at_ (s.pend.window.map (·.at0)) then 4 else 0) + (if at_ (s.pend.thermal.map (·.at0)) then 8 else 0))

/-- The records of a CFG in table order, and the commit of the groups it names, one with an ID_COMMIT of this edge; a set-up write of
this edge stays in the shadow copy for the next commit (R117, R118, R242, R243). -/
def State.admitCfg (s : State) (n : RingNo) (f : Fetched) : State :=
  let groups := f.entry.groups ||| s.commitsNow
  let s := { s with shadow := s.edge.shadow0.getD s.shadow }
  let s := (f.entry.records f.table).foldl (fun (s : State) (p : Nat × Word) => match recordReg p.1 with
    | some r => s.writeShadow r p.2
    | none => s.err .cfgTarget) s
  let s := s.commit groups s.shadow
  let s := { s with shadow := s.edge.shadowWrites.foldl (fun (g : Staged) (p : StReg × Word) => g.put p.1 p.2) s.shadow }
  s.onRing n fun r => { r with work := some (f.index, .cfg f.entry.groups) }

/-- CFG (R242). It finishes when the groups it names show 0 (Table 11.3). -/
def execCfg (dt : Nat) (ring : RingNo) (s : State) : Host.Outcome State Fault Refusal :=
  admitRow dt ring (fun f => f.runsHere && f.entry.op == 3) (fun f s => s.admitCfg ring f) s

/-- TEMP (R244, R305, R309): THM_HOST reads the value from the next edge, on which it becomes current. -/
def execTemp (dt : Nat) (ring : RingNo) (s : State) : Host.Outcome State Fault Refusal :=
  admitRow dt ring (fun f => f.runsHere && f.entry.op == 4) (fun f s =>
    ((s.onThm fun t => { t with arriving := BitVec.ofNat 12 (fld f.entry.w1 0 12) }).defer .tempCurrent).finishEntry ring f.index) s

/-- SYNC (R245, R246, R348): the barrier of its ring is armed. -/
def execSync (dt : Nat) (ring : RingNo) (s : State) : Host.Outcome State Fault Refusal :=
  admitRow dt ring (fun f => f.runsHere && f.entry.op == 5) (fun f s =>
    (s.onRing ring fun r => { r with
      syncNext := true
      barrier := some ⟨s.now, fld s.cnv.barto 0 24, f.entry.flag, BitVec.ofNat 32 (fld f.entry.w1 0 32), none⟩ }).finishEntry ring f.index) s

/-- PARK (R247, Table 11.3). -/
def execPark (dt : Nat) (ring : RingNo) (s : State) : Host.Outcome State Fault Refusal :=
  admitRow dt ring (fun f => f.runsHere && f.entry.op == 6) (fun f s =>
    if s.sup.railsUp then (s.onRing ring fun r => { r with work := some (f.index, .park) }).defer .enterParking
    else s.finishPark ring f.index) s

/-- MARK (R248): its cause is set when a head write passes it. -/
def execMark (dt : Nat) (ring : RingNo) (s : State) : Host.Outcome State Fault Refusal :=
  admitRow dt ring (fun f => f.runsHere && f.entry.op == 7) (fun f s =>
    (s.onRing ring fun r => { r with marks := r.marks ++ [f.index] }).finishEntry ring f.index) s

/-- NOP (R249), and every entry that does not run here (R234). A reserved opcode is a host error (R231). -/
def execNop (dt : Nat) (ring : RingNo) (s : State) : Host.Outcome State Fault Refusal :=
  admitRow dt ring (fun f => !f.runsHere || f.entry.op == 0 || decide (8 ≤ f.entry.op)) (fun f s =>
    let s := if f.runsHere && decide (8 ≤ f.entry.op) then s.err .reservedOpcode else s
    s.finishEntry ring f.index) s

/-- POLL_TIMER_EXPIRY (R209): a probe is due. -/
def execPollTimerExpiry (dt : Nat) (ring : RingNo) (s : State) : Host.Outcome State Fault Refusal :=
  event dt (fun s => match s.rings[ring].timer with
    | some t =>
      if s.answering then
        let s := s.waitUntil (t + pollInterval s.rings[ring].poll)
        if s.rings[ring].timer = some t then s.onRing ring fun r => { r with timer := none, probe := true } else s
      else s
    | none => s) s

end Sys2Proof.Machine
end

