-- ==== Sys2Proof/Machine/Supply.lean ====
section
/-! DEFINITION. The rails: sequencing, ramp, slew, timeout, controlled discharge, and the state changes that hang on them (spec/13
sections 13.3 to 13.7, spec/02 Table 2.4), with the wrap of the energy accumulator (R141). -/

namespace Sys2Proof.Machine

/-! ### Ramp -/

/-- The rails are off and may start (R286). -/
def State.maySequence (s : State) : Bool :=
  s.answering && !s.pw.busy && decide (s.sup.phase = .off) && !s.sup.railsUp && s.needed && s.gatesOpen

/-- SEQUENCING_START (R286): rails_up reads 1 from this edge. The set-points of a replay are taken here (R336). -/
def execSequencingStart (dt : Nat) (s : State) : Host.Outcome State Fault Refusal :=
  event dt (fun s =>
    if s.maySequence then
      s.completeSupply.takeTargets.onSup fun u => { u with phase := .sequencing s.now, railsUp := true, toHeld := false }
    else s) s

/-- The ramp begins on this edge; c is the larger of the effective codes. VCOM stands at 0 V, which is in regulation for a set-point within
20 mV (R285, R286, R289). -/
def State.beginRamp (s : State) : State :=
  let t := s.railTargets
  s.onSup fun u =>
    let n := nextDivider s.applied.supply.conv 1
    { u with
      phase := .ramp s.now (max t.1 t.2.1), started := false, tpos := 0, tneg := 0, rail0 := s.now, dac := 0, dac0 := s.now,
      vposOk := false, vnegOk := false, vcomOk := decide (u.vcom.natAbs ≤ 4), vmid := false, lfsr := 1, divider := n, swLeft := n }

/-- RAMP_START (R286): 16 hc after sequencing began, unless it has been abandoned. -/
def execRampStart (dt : Nat) (s : State) : Host.Outcome State Fault Refusal :=
  event dt (fun s => match s.sup.phase with
    | .sequencing t =>
      if s.answering then
        let s := s.waitUntil (t + 16)
        if decide (s.sup.phase = .sequencing t) && !s.later.contains .dropSequencing then s.beginRamp else s
      else s
    | _ => s) s

/-- One step of v toward w. -/
def towardZ (v w : Int) : Int := if v < w then v + 1 else if w < v then v - 1 else v
def towardN (v w : Nat) : Nat := if v < w then v + 1 else if w < v then v - 1 else v

/-- The VCOM DAC moves toward its set-point, every 8 hc (R286). -/
def State.dacStep (s : State) : State :=
  s.onSup fun u => { u with dac := towardZ u.dac u.vcom, dac0 := s.now }

/-- The targets of VPOS and VNEG rise together, every 128 hc; each stops at its set-point (R286). -/
def State.railStep (s : State) : State :=
  s.onSup fun u => { u with tpos := min (u.tpos + 1) (160 + u.vpos), tneg := min (u.tneg + 1) (160 + u.vneg), rail0 := s.now }

/-- The rails ramp, or are up and their last ramp steps follow. -/
def Supply.ramps (u : Supply) : Bool :=
  match u.phase with
  | .ramp _ _ => true
  | .up => true
  | _ => false

/-- The rail status bits follow what is sensed while the converter switches (R285, R288, R294); within a ramp all three at once are
regulation, which RAILS_IN_REGULATION reports (log 23). -/
def State.sense (s : State) (ok : BitVec 3) : State :=
  match s.sup.phase with
  | .ramp _ _ => if ok = 7 then s else s.senseOk ok
  | .up => s.senseOk ok
  | .discharge _ _ _ => s.senseOk ok
  | _ => s

/-- RAMP_STEP (R286). -/
def execRampStep (dt : Nat) (dac : Bool) (ok : BitVec 3) (s : State) : Host.Outcome State Fault Refusal :=
  event dt (fun s =>
    if s.answering && s.sup.ramps then
      if dac then
        if s.sup.dac = s.sup.vcom then s
        else
          let s := s.waitUntil (s.sup.dac0 + 8)
          if s.sup.ramps then s.dacStep.sense ok else s
      else if 160 + s.sup.vpos ≤ s.sup.tpos ∧ 160 + s.sup.vneg ≤ s.sup.tneg then s
      else
        let s := s.waitUntil (s.sup.rail0 + 128)
        if s.sup.ramps then s.railStep.sense ok else s
    else s) s

/-- Each set-point moves one step; the DAC that has reached its set-point moves with it (R288). -/
def State.slewAll (s : State) : State :=
  let t := s.railTargets
  let u := s.sup
  let v := towardZ u.vcom t.2.2
  (s.setPoints (towardN u.vpos t.1) (towardN u.vneg t.2.1) v).onSup fun w =>
    { w with dac := if decide (u.phase = .up) && decide (u.dac = u.vcom) then v else u.dac, slew0 := s.now }

/-- SET_POINT_SLEW_STEP (R288): the status bits compare each rail with its moving set-point, in a ramp, in regulation and in steps 1 and 2 of
a controlled discharge (R294); the group completes with the last step. Where every set-point has its value, the command only reports the
bits (log 23). -/
def execSetPointSlewStep (dt : Nat) (ok : BitVec 3) (s : State) : Host.Outcome State Fault Refusal :=
  event dt (fun s =>
    if !(s.answering && s.sup.railsUp && s.sup.switching) then s
    else if s.settled then s.sense ok
    else
      let s := s.waitUntil (s.sup.slew0 + slewStep s.applied.supply.conv)
      if s.sup.railsUp && s.sup.switching then (s.slewAll.sense ok).completeSupply else s) s

/-- RAILS_IN_REGULATION (R286, Table 2.4): ARMED begins on the edge after. Once the rails are up it reports that they are in regulation
again (R285, R299; log 23). -/
def execRailsInRegulation (dt : Nat) (s : State) : Host.Outcome State Fault Refusal :=
  event dt (fun s => match s.sup.phase with
    | .ramp _ _ =>
      if s.answering then
        (s.onSup fun u => { u with phase := .up, vposOk := true, vnegOk := true, vcomOk := true }).defer .enterArmed
      else s
    | .up => if s.answering then s.senseOk 7 else s
    | _ => s) s

/-! ### Ramp timeout (R287) -/

/-- An admitted update whose frame 1 waits for the rails. -/
def Ring.waitsForRails (r : Ring) : Bool :=
  match r.update? with
  | some (_, u) => (match u.stage with
    | .waitIntent => true
    | .intent => true
    | .ready => true
    | _ => false)
  | none => false

/-- Detail of log code 0x23: the rails that were not in regulation (Table 7.25). -/
def notOk (ok : BitVec 3) : Nat := (~~~ok).toNat

/-- The waiting update of ring n is discarded with its log entry, and the ring stops (R287, R135, R332). -/
def State.timeoutRing (s : State) (ok : BitVec 3) (n : RingNo) : State :=
  if s.rings[n].waitsForRails then
    let index := match s.rings[n].update? with | some (i, _) => i.toNat | none => 0
    ((s.log_ 0x23 (notOk ok) n index).discardUpdate n).fetchFailure n
  else s

/-- The timeout ends a replay as a failed read does, naming the slot in replay (R287, R337, Table 7.25). -/
def State.timeoutReplay (s : State) (ok : BitVec 3) : State :=
  let (n, i) := match s.jnl.replayCur with
    | some c => (match s.findSlot c.q with | some o => (o.ring, o.index.toNat) | none => (0, 0))
    | none => (0, 0)
  (s.log_ 0x23 (notOk ok) n i).replayFails

/-- The timeout edge (R287). -/
def State.timeout (s : State) (ok : BitVec 3) : State :=
  let s := ((s.senseOk ok).setCause (bitMask 26)).onSup fun u => { u with noPreRamp := true }
  let waits := s.rings.toList.any Ring.waitsForRails
  let s := (List.finRange 4).foldl (fun s n => s.timeoutRing ok n) s
  if s.jnl.replay.isSome then s.timeoutReplay ok
  else if waits then s.startDischarge
  else s.startDischarge.log_ 0x23 (notOk ok) 0 0

/-- RAMP_TIMEOUT (R287). -/
def execRampTimeout (dt : Nat) (ok : BitVec 3) (s : State) : Host.Outcome State Fault Refusal :=
  event dt (fun s => match s.sup.phase with
    | .ramp t c =>
      if s.answering then
        let s := s.waitUntil (t + 2 * (128 * (160 + c) + 2048))
        if s.sup.phase = .ramp t c then s.timeout ok else s
      else s
    | _ => s) s

/-! ### Discharge (R294) -/

/-- VCOM moves one step toward 0 V; vcom_ok falls with the first step away from its set-point. -/
def State.vcomStep (s : State) (p n j : Nat) : State :=
  s.onSup fun u => { u with phase := .discharge p n (j + 1), dac := towardZ u.dac 0, vcomOk := false }

/-- Switching stops and the rails bleed; the status bits follow the bleeding rails, where SUP_STATUS is read (log 10). -/
def State.beginBleed (s : State) : State :=
  s.onSup fun u =>
    { u with
      phase := .bleed, tpos := 0, tneg := 0, swLeft := 0, vmid := false, limited := [], foldback := false
      vposOk := false, vnegOk := false, vcomOk := false }

/-- DISCHARGE_VCOM_STEP (R294): steps on the edges P + 1 + 8j, switching stops on P + 2 + 8n. -/
def execDischargeVcomStep (dt : Nat) (s : State) : Host.Outcome State Fault Refusal :=
  event dt (fun s => match s.sup.phase with
    | .discharge p n j =>
      if !s.answering then s
      else if j < n then (s.waitUntil (p + 1 + 8 * (j + 1))).vcomStep p n j
      else (s.waitUntil (p + 2 + 8 * n)).beginBleed
    | _ => s) s

/-- DISCHARGE_END (R294, step 4; Table 2.9): both rails are within 0.5 V of ground. The rails need no clock; what follows in the
synchronous logic comes with the next edge where HCK stands or the core is held in reset (R25). -/
def execDischargeEnd (dt : Nat) (s : State) : Host.Outcome State Fault Refusal :=
  event dt (fun s =>
    if s.sup.phase = .bleed ∨ s.sup.phase = .fast then
      if s.ticking then s.railsOff.railsEnded else s.railsOff.defer .railsEnd
    else s) s

/-! ### State changes that wait (Table 2.4) -/

/-- PARKING_EXIT: 16 hc after the rails are off; a function-wide reset ends by RESET_BUSY_END instead (R72). -/
def execParkingExit (dt : Nat) (s : State) : Host.Outcome State Fault Refusal :=
  event dt (fun s =>
    let off := match s.sup.phase with
      | .discharge _ _ _ => false
      | .bleed => false
      | .fast => false
      | _ => true
    if s.answering && decide (s.pw.st = .parking) && off && !s.pw.busy then
      let s := s.waitUntil (s.pw.off0 + 16)
      if s.pw.busy then s else s.goTo .idle
    else s) s

/-- PWR_CTL.armto (Table 2.7). -/
def State.armto (s : State) : Nat := fld s.pw.ctl 0 16

/-- ARMED_TIMEOUT (Table 2.4): PARKING follows on the next edge. -/
def execArmedTimeout (dt : Nat) (s : State) : Host.Outcome State Fault Refusal :=
  event dt (fun s =>
    if s.answering && decide (s.pw.st = .armed) && !s.anyUpdate && decide (s.armto ≠ 0) && !s.later.contains .enterParking then
      let s := s.waitUntil (s.pw.armed0 + 65536 * s.armto)
      if decide (s.pw.st = .armed) && decide (s.armto ≠ 0) && decide (s.pw.armed0 + 65536 * s.armto ≤ s.now) then s.defer .enterParking else s
    else s) s

/-- An update admitted in HELD still awaits its reads. -/
def State.readsPending (s : State) : Bool :=
  s.rings.toList.any fun r => match r.update? with
    | some (_, u) => decide (u.stage = .reads)
    | none => false

/-- HELD_EXIT (Table 2.4): one edge later; not on an edge whose admission test admits an entry (R38). -/
def execHeldExit (dt : Nat) (s : State) : Host.Outcome State Fault Refusal :=
  event dt (fun s =>
    if s.answering && decide (s.pw.st = .held) && !s.heldFlag && !s.readsPending && !s.needed &&
        !s.later.contains .leaveHeld && !(List.finRange 4).any (s.admissible ·) then
      s.defer .leaveHeld
    else s) s

/-! ### Energy -/

/-- ENERGY_WRAP (R141, R291): the energy of the converter's last switching periods takes the accumulator past its top; what is left of a
conversion window that HCK has cut comes by this command too (log 8). -/
def execEnergyWrap (dt : Nat) (pj : Nat) (s : State) : Host.Outcome State Fault Refusal :=
  event dt (fun s => if s.ticking && decide (s.pw.st ≠ .dormant) then s.addEnergy pj else s) s

end Sys2Proof.Machine
end

