-- ==== Sys2Proof/Machine/Thermal.lean ====
section
/-! DEFINITION. The conversion result: Tdie, the self-heating model, Tpan, the thresholds, and what waits for a result (spec/14). -/

namespace Sys2Proof.Machine

/-- THM_TDIE.t of a mean in 0.0001 degC: nearest 0.125 degC, halves up, saturated (R304). -/
def convert (mean : Int) : Temp := BitVec.ofInt 12 (clampZ (-440) 1400 ((2 * mean + 1250) / 2500))

/-- The set-points of VPOS and VNEG in effect on the edge of count e, in 50 mV (R307, Table 7.16). -/
def pointAt (points : List (Nat × Nat × Nat)) (e : Nat) : Nat × Nat :=
  match (points.find? fun p => decide (p.1 ≤ e)).or points.getLast? with
  | some (_, a, b) => (160 + a, 160 + b)
  | none => (160, 160)

/-- E_k in nJ (R307): pC times 50 mV are 1/20,000 nJ. A switching period has the set-points of the edge on which it ends (log 52). -/
def periodEnergy (points : List (Nat × Nat × Nat)) (start : Nat) (charge : List (Nat × Int × Int)) : Nat :=
  (charge.foldl (fun acc (c : Nat × Int × Int) =>
    let v := pointAt points (start + c.1)
    acc + c.2.1 * (v.1 : Int) + c.2.2 * (v.2 : Int)) 0).toNat / 20000

/-- dT_k (R307, R308). -/
def nextRise (model : Word) (energy : Nat) (rise : Int) : Int :=
  let target : Int := ((fld model 0 12 * energy / 12800 : Nat) : Int)
  let tau := fld model 12 12
  if tau = 0 then 0 else rise + (target - rise).tdiv tau

/-- Tpan_model (R307). -/
def modelTpan (tdie : Temp) (rise : Int) : Temp := BitVec.ofInt 12 (clampZ (-440) 1400 (tempInt tdie - rise / 256))

/-- A pending thermal group applies, if its commit lies on an earlier edge (R306, step 1). -/
def State.applyThermal (s : State) : State :=
  match s.pend.thermal with
  | some p =>
    if p.at0 < s.now then { s with applied := { s.applied with thermal := p.val }, pend := { s.pend with thermal := none } } else s
  | none => s

/-- Steps 2 to 4 of R306: the result, the rise, the TEMP value's age, Tpan in use (R307, R309). -/
def State.takeResult (s : State) (mean : Int) (energy : Nat) : State :=
  s.onThm fun t =>
    let tdie := convert mean
    let rise := nextRise s.applied.thermal.model energy t.rise
    let limit := fld s.applied.thermal.ctl 8 8
    let current := t.current && (decide (limit = 0) || decide (t.age + 1 < limit))
    let host := bitOf s.applied.thermal.ctl 0 && current
    { t with
      tdie := tdie, valid := true, rise := rise, current := current, age := t.age + 1, source := host
      tpan := if host then t.host else modelTpan tdie rise }

/-- A threshold with its hysteresis (R312). -/
def overT (asserted : Bool) (t threshold hysteresis : Int) : Bool :=
  if asserted then !decide (t < threshold - hysteresis) else decide (threshold ≤ t)

/-- The die charge range (Table 14.3). -/
def coldT (asserted : Bool) (t : Int) : Bool := if asserted then !decide (-304 ≤ t) else decide (t < -320)

/-- Step 5 of R306, with the effects of Table 14.4. -/
def State.thresholds (s : State) : State :=
  let t := tempInt s.thm.tdie
  let g := s.applied.thermal
  let warn := overT s.thm.warn t (warnT g.warn) (hyst g.warn)
  let throttle := overT s.thm.throttle t (throtT g.throt) (hyst g.throt)
  let newWarn := warn && !s.thm.warn
  let newThrottle := throttle && !s.thm.throttle
  let s := (s.onThm fun m => { m with warn := warn, throttle := throttle, cold := coldT m.cold t }).evalWrange
  let s := if newWarn then s.setCause (bitMask 9) else s
  if newThrottle then ((s.setCause (bitMask 10)).count .throttle).log_ 0x31 0 0 0 else s

/-- The next update waits for the temperature, or an admitted one asks for the rails below the die charge range (Table 2.4). -/
def State.mustHold (s : State) : Bool := s.heldFlag || (s.needed && !s.sup.railsUp && s.thm.cold)

/-- IDLE or ARMED to HELD on a result on which no update runs, at once or by way of the discharge (Table 2.4, R263). -/
def State.resultHolds (s : State) : State :=
  if (decide (s.pw.st = .idle) || decide (s.pw.st = .armed)) && s.mustHold && !s.anyDriving && !s.pw.busy && !s.later.contains .enterParking then
    if !s.sup.railsUp then s.enterHeld
    else
      let s := match s.sup.phase with
        | .discharge _ _ _ => s
        | .bleed => s
        | .fast => s
        | _ => s.startDischarge
      s.onSup fun u => { u with toHeld := true }
  else s

/-- Close marks and tombstones that have failed are requested again, at their positions (R331, R333). -/
def State.retryMarks (s : State) : State :=
  s.jnl.slots.foldl (fun s o => match o.retry with
    | some k => (s.enqueue (markAccess o k o.retryPos)).onSlot o.q fun x => { x with retry := none }
    | none => s) s

/-- The result edge (R306). -/
def State.result (s : State) (mean : Int) (charge : List (Nat × Int × Int)) (pj : Nat) : State :=
  let energy := periodEnergy s.thm.points s.thm.window0 charge
  let s := s.onThm fun t => { t with window0 := s.now, points := t.points.take 1 }
  let s := ((s.applyThermal.takeResult mean energy).thresholds.onEdge fun e => { e with thermal := true })
  (s.addEnergy pj).resultHolds.retryMarks

/-- CONVERSION_RESULT (R304, R306): 65,536 hc after the window began. -/
def execConversionResult (dt : Nat) (mean : Int) (charge : List (Nat × Int × Int)) (pj : Nat) (s : State) :
    Host.Outcome State Fault Refusal :=
  event dt (fun s => if s.answering then (s.waitUntil (s.thm.window0 + 65536)).result mean charge pj else s) s

end Sys2Proof.Machine
end

