-- ==== Sys2Proof/Machine/Dispatch.lean ====
section
/-! DEFINITION. One arm per command: its meaning (spec/opcode_table.json). -/

namespace Sys2Proof.Machine

/-- The effect of a command on everything but the queue. -/
def exec (i : Instr) (s : State) : Host.Outcome State Fault Refusal :=
  match i with
  | .powerOnReset dt => Sys2Proof.Machine.execPowerOnReset dt s
  | .porRelease dt => Sys2Proof.Machine.execPorRelease dt s
  | .rstnAssert dt => Sys2Proof.Machine.execRstnAssert dt s
  | .rstnRelease dt => Sys2Proof.Machine.execRstnRelease dt s
  | .strapFirstSample dt adr0 adr1 => Sys2Proof.Machine.execStrapFirstSample dt adr0 adr1 s
  | .strapSecondSample dt adr0 adr1 => Sys2Proof.Machine.execStrapSecondSample dt adr0 adr1 s
  | .addressLatch dt => Sys2Proof.Machine.execAddressLatch dt s
  | .hckStart dt => Sys2Proof.Machine.execHckStart dt s
  | .wakeQualifierEnd dt => Sys2Proof.Machine.execWakeQualifierEnd dt s
  | .replayEnd dt => Sys2Proof.Machine.execReplayEnd dt s
  | .clockLoss dt => Sys2Proof.Machine.execClockLoss dt s
  | .shutdownTrip dt => Sys2Proof.Machine.execShutdownTrip dt s
  | .shutdownRelease dt => Sys2Proof.Machine.execShutdownRelease dt s
  | .shutdownExit dt => Sys2Proof.Machine.execShutdownExit dt s
  | .uvloAssert dt => Sys2Proof.Machine.execUvloAssert dt s
  | .uvloRelease dt => Sys2Proof.Machine.execUvloRelease dt s
  | .i2cStart dt lines => Sys2Proof.Machine.execI2cStart dt lines s
  | .slotCommit dt lines => Sys2Proof.Machine.execSlotCommit dt lines s
  | .readCapture bus barIn => Sys2Proof.Machine.execReadCapture bus barIn s
  | .sclStretchRelease bus => Sys2Proof.Machine.execSclStretchRelease bus s
  | .i2cStop bus => Sys2Proof.Machine.execI2cStop bus s
  | .framingAbort dt lines after => Sys2Proof.Machine.execFramingAbort dt lines after s
  | .driveGroupApply dt => Sys2Proof.Machine.execDriveGroupApply dt s
  | .supplyGroupApply dt => Sys2Proof.Machine.execSupplyGroupApply dt s
  | .windowGroupApply dt => Sys2Proof.Machine.execWindowGroupApply dt s
  | .resetDrainEnd dt => Sys2Proof.Machine.execResetDrainEnd dt s
  | .resetBusyEnd dt => Sys2Proof.Machine.execResetBusyEnd dt s
  | .memArbitrate dt => Sys2Proof.Machine.execMemArbitrate dt s
  | .memTransactionEnd dt delay bytes => Sys2Proof.Machine.execMemTransactionEnd dt delay bytes s
  | .statusPoll dt => Sys2Proof.Machine.execStatusPoll dt s
  | .mrdyStretchTimeout at_ => Sys2Proof.Machine.execMrdyStretchTimeout at_ s
  | .mdqsTimeout at_ => Sys2Proof.Machine.execMdqsTimeout at_ s
  | .pollTimerExpiry dt ring => Sys2Proof.Machine.execPollTimerExpiry dt ring s
  | .update dt ring => Sys2Proof.Machine.execUpdate dt ring s
  | .clear dt ring => Sys2Proof.Machine.execClear dt ring s
  | .cfg dt ring => Sys2Proof.Machine.execCfg dt ring s
  | .temp dt ring => Sys2Proof.Machine.execTemp dt ring s
  | .sync dt ring => Sys2Proof.Machine.execSync dt ring s
  | .park dt ring => Sys2Proof.Machine.execPark dt ring s
  | .mark dt ring => Sys2Proof.Machine.execMark dt ring s
  | .nop dt ring => Sys2Proof.Machine.execNop dt ring s
  | .intentWrite dt ring => Sys2Proof.Machine.execIntentWrite dt ring s
  | .updateStart dt ring => Sys2Proof.Machine.execUpdateStart dt ring s
  | .frameEnd dt qpos qneg bad vmid => Sys2Proof.Machine.execFrameEnd dt qpos qneg bad vmid s
  | .dwellEnd dt => Sys2Proof.Machine.execDwellEnd dt s
  | .outputLimited dt m held sink ok => Sys2Proof.Machine.execOutputLimited dt m held sink ok s
  | .outputLimitRelease dt m ok => Sys2Proof.Machine.execOutputLimitRelease dt m ok s
  | .outputFault dt limit => Sys2Proof.Machine.execOutputFault dt limit s
  | .pairContention dt p => Sys2Proof.Machine.execPairContention dt p s
  | .sequencingStart dt => Sys2Proof.Machine.execSequencingStart dt s
  | .rampStart dt => Sys2Proof.Machine.execRampStart dt s
  | .rampStep dt dac ok => Sys2Proof.Machine.execRampStep dt dac ok s
  | .setPointSlewStep dt ok => Sys2Proof.Machine.execSetPointSlewStep dt ok s
  | .railsInRegulation dt => Sys2Proof.Machine.execRailsInRegulation dt s
  | .rampTimeout dt ok => Sys2Proof.Machine.execRampTimeout dt ok s
  | .dischargeVcomStep dt => Sys2Proof.Machine.execDischargeVcomStep dt s
  | .dischargeEnd dt => Sys2Proof.Machine.execDischargeEnd dt s
  | .parkingExit dt => Sys2Proof.Machine.execParkingExit dt s
  | .armedTimeout dt => Sys2Proof.Machine.execArmedTimeout dt s
  | .heldExit dt => Sys2Proof.Machine.execHeldExit dt s
  | .conversionResult dt mean charge pj => Sys2Proof.Machine.execConversionResult dt mean charge pj s
  | .barNRecognised bar => Sys2Proof.Machine.execBarNRecognised bar s
  | .barrierStart dt ring => Sys2Proof.Machine.execBarrierStart dt ring s
  | .barrierTimeout dt ring => Sys2Proof.Machine.execBarrierTimeout dt ring s
  | .testLogicReset dt => Sys2Proof.Machine.execTestLogicReset dt s
  | .extest tap => Sys2Proof.Machine.execExtest tap s
  | .samplePreload tap => Sys2Proof.Machine.execSamplePreload tap s
  | .idcode tap => Sys2Proof.Machine.execIdcode tap s
  | .clamp tap => Sys2Proof.Machine.execClamp tap s
  | .highz tap => Sys2Proof.Machine.execHighz tap s
  | .segtest tap => Sys2Proof.Machine.execSegtest tap s
  | .bypass tap op => Sys2Proof.Machine.execBypass tap op s
  | .captureDr tap pins observe => Sys2Proof.Machine.execCaptureDr tap pins observe s
  | .updateDr tap => Sys2Proof.Machine.execUpdateDr tap s
  | .i2cDataByte dt lines ack => Sys2Proof.Machine.execI2cDataByte dt lines ack s
  | .tapShift tap ir tdi => Sys2Proof.Machine.execTapShift tap ir tdi s
  | .captureIr tap => Sys2Proof.Machine.execCaptureIr tap s
  | .energyWrap dt pj => Sys2Proof.Machine.execEnergyWrap dt pj s

end Sys2Proof.Machine
end

