-- ==== Sys2Proof/Machine/Step.lean ====
section
/-! DEFINITION. One step: the command at the front of the queue, or one HCK edge when none waits. -/

namespace Sys2Proof.Machine

/-- The front command runs with the queue's rest; on an empty queue one HCK edge passes (DESIGN CHOICE, log 1), or after a host error
whatever may come (log 5). -/
def step (s : State) : Host.Outcome State Fault Refusal :=
  match s.pending with
  | [] => .next (s.elapse 1).disturb
  | c :: rest => exec c { s with pending := rest }

/-- The command that the word spells, put at the front of the queue; no row of the table has bits, so s itself. -/
def State.withFetchWord (s : State) (nbits w : Nat) : State :=
  match decodeTableWord nbits w with
  | some c => { s with pending := c :: s.pending }
  | none => s

end Sys2Proof.Machine
end

