-- ==== Sys2Proof/Machine/Pins.lean ====
section
/-! DEFINITION. What the engine's pins show (spec/03 section 3.5, spec/08 sections 8.2 to 8.6, Table 18.2, Table 18.4): functions of the
state. A line changes with an HCK rising edge or, with one hc in an MSCK cycle, with the falling edge after it; shifts of less than half an
hc, such as the centring of D8 data on MSCK, are timing (log 53). -/

namespace Sys2Proof.Machine

/-- The logic pins that the engine can drive (Table 3.3). -/
inductive LogicPin where
  | mcsa (k : Fin 3) | mcsN | msck | mdq (j : Fin 8) | barN | attnN | sda | scl | tdo
deriving DecidableEq, Repr

/-! ### The frame of a transaction (Table 8.1) -/

/-- The frame of the transaction has begun: 2 hc before MCS_N falls. -/
def State.frame (s : State) : Option Txn := s.mem.txn.filter fun t => decide (t.fall ≤ s.now + 2)

/-- MCSA2 to MCSA0 (Table 8.1, Table 3.6). -/
def State.mcsa (s : State) : BitVec 3 := match s.frame with | some t => t.sel | none => s.mem.sel

/-- MSCK cycle k has started by edge e: no ready point up to it holds it any longer (R153). -/
def Txn.started (t : Txn) (d e k : Nat) : Bool := (t.ready.drop t.stretch.length).all (k < ·) && decide (t.cycleAt d k ≤ e)

/-- The last MSCK cycle that has started by edge e. -/
def Txn.cycle (t : Txn) (d e : Nat) : Option Nat := (List.range t.cycles).reverse.find? fun k => t.started d e k

/-- MSCK between its first and its second edge in cycle k; low: after the falling edge of HCK that follows edge e (Table 8.1). -/
def Txn.firstHalf (t : Txn) (d e : Nat) (low : Bool) (k : Nat) : Bool := decide (e = t.cycleAt d k) && (decide (d = 2) || !low)

/-- A status poll, which falls when its gap has passed, takes MSCK to its idle level 2 hc before (Table 8.1, R169). -/
def State.pollNear (s : State) : Bool :=
  match s.pollGap with
  | some (o, gap) => o.win.idleHigh && decide (s.mem.rise + gap ≤ s.now + 2)
  | none => false

/-- MSCK (Table 8.1, R151, R156): at its idle level in a frame outside the cycles, low from 2 hc after the rise of MCS_N; a stretch
holds it at its idle level (R153). -/
def State.msck (s : State) (low : Bool) : Bool :=
  match s.frame with
  | some t =>
    (match t.cycle s.d s.now with
     | some k => if t.firstHalf s.d s.now low k then !t.idle else t.idle
     | none => t.idle)
  | none => s.mem.lastIdle && decide (s.now < s.mem.rise + 2) || s.pollNear

/-! ### The data lines (R156 to R158, R163, Table 3.6) -/

/-- Bit n of a byte sequence sent most significant bit first. -/
def msbFirst (bs : List Byte) (n : Nat) : Option Bool := (bs[n / 8]?).map fun b => b.getLsbD (7 - n % 8)

/-- Bit k that the engine sends in an S1 transaction: command, address and data, low in the latency cycles, then released (R157). -/
def Txn.serialBit (t : Txn) (k : Nat) : Option Bool :=
  match msbFirst t.sent k with
  | some b => some b
  | none => if t.kind = .read ∧ k + 8 * t.count < t.cycles then some false else none

/-- What the engine drives on MDQj; none: released, the keeper is on. In S1 with s1_edge = 0, MDQ0 changes to the next bit on the second
MSCK edge of a cycle, the first bit stands from F (R156, R387); with s1_edge = 1 a bit comes with the first edge of its cycle. In D8 and H8 a
byte goes with each MSCK edge; the engine releases the lines in the first cycle in which it sends nothing (R158, R163). A stretch holds what
it drives (R153). -/
def State.mdq (s : State) (j : Fin 8) (low : Bool) : Option Bool :=
  match s.frame with
  | some t =>
    if t.decided && decide (t.cycleAt s.d t.cycles ≤ s.now) then none
    else
      (match t.cycle s.d s.now with
       | some k =>
         if t.serial then (if j = 0 then t.serialBit (if t.early && !t.firstHalf s.d s.now low k then k + 1 else k) else none)
         else (t.sent[2 * k + (if t.firstHalf s.d s.now low k then 0 else 1)]?).map fun b => b.getLsbD j.val
       | none => if t.serial ∧ t.early ∧ t.fall ≤ s.now ∧ j = 0 then t.serialBit 0 else none)
  | none => none

/-! ### All pins (Tables 3.6, 18.2, 18.4) -/

/-- What the core makes of its pins: some level, or released; low as in `State.msck`. -/
def State.corePin (s : State) (low : Bool) : LogicPin → Option Bool
  | .mcsa k => some (s.mcsa.getLsbD k.val)
  | .mcsN => some (!s.mcsLow)
  | .msck => some (s.msck low)
  | .mdq j => s.mdq j low
  | .barN => if s.cnv.drv then some false else none
  | .attnN => if s.attn then some false else none
  | .sda => if s.port.sdaLow then some false else none
  | .scl => if s.port.sclLow s.now then some false else none
  | .tdo => s.tap.tdo

/-- An open-drain pin of the boundary register: 0 drives it low, 1 releases it (R374). -/
def openDrain (level : Bool) : Option Bool := if level then none else some false

/-- The output and control cells of each pin (Table 18.4). -/
def boundaryPin (bnd : BitVec 44) : LogicPin → Option Bool
  | .mcsa k => if bnd.getLsbD 4 then some (bnd.getLsbD (2 - k.val)) else none
  | .mcsN => if bnd.getLsbD 4 then some (bnd.getLsbD 3) else none
  | .msck => if bnd.getLsbD 4 then some (bnd.getLsbD 31) else none
  | .mdq j => if bnd.getLsbD (9 + 3 * (7 - j.val)) then some (bnd.getLsbD (8 + 3 * (7 - j.val))) else none
  | .barN => openDrain (bnd.getLsbD 35)
  | .attnN => openDrain (bnd.getLsbD 37)
  | .sda => openDrain (bnd.getLsbD 39)
  | .scl => openDrain (bnd.getLsbD 41)
  | .tdo => none

/-- What the engine drives on a logic pin (Table 18.2, Table 3.6). TDO has no cell and follows the controller alone (R368). -/
def State.logicPin (s : State) (low : Bool) (p : LogicPin) : Option Bool :=
  match p with
  | .tdo => s.tap.tdo
  | p =>
    (match s.boundaryPins with
     | some bnd => boundaryPin bnd p
     | none => if testMode s.tap.ir then none else s.corePin low p)

/-- The VCOM pin: pulled to ground, at the DAC's value in 5 mV steps, or floating. -/
inductive VcomPin where
  | ground | dac (v : Int) | float
deriving DecidableEq, Repr

/-- The VCOM pin (Table 3.6, Table 18.2): the DAC drives it while the converter runs or the rails stand, and is off otherwise. -/
def State.vcomPin (s : State) : VcomPin :=
  if s.tap.ir = 4 then .float
  else if testMode s.tap.ir || !s.sup.railsUp then .ground
  else match s.sup.phase with
    | .ramp _ _ => .dac s.sup.dac
    | .up => .dac s.sup.dac
    | .discharge _ _ _ => .dac s.sup.dac
    | _ => .ground

end Sys2Proof.Machine
end

