-- ==== Sys2Proof/Safety.lean ====
section
/-! DEFINITION. What counts as a safe run, and the views of the state that the statements are made of: the settings that only the
host makes, the reserved bits of the registers, the commands by which settings may change. -/

namespace Sys2Proof.Safety

open Machine

/-! ### Safe steps -/

/-- A step is safe: it answers a next state. -/
def Safe (s : State) : Prop := ∃ t, step s = .next t

/-- A run of steps. -/
def runs : Nat → State → Host.Outcome State Fault Refusal
  | 0, s => .next s
  | n + 1, s => match step s with
    | .next t => runs n t
    | .fault f => .fault f
    | .refused r => .refused r

/-! ### What only the host, a reset or the tester changes -/

end Sys2Proof.Safety

namespace Sys2Proof.Machine

/-- The settings of a ring: every field of RINGn_CTL but enable, and its address and poll registers (Table 7.11). -/
def Ring.kept (r : Ring) : Ring :=
  { Ring.reset with ctl := r.ctl &&& ~~~(1#36), base := r.base, tailAddr := r.tailAddr, headAddr := r.headAddr, poll := r.poll }

/-- What the engine's own working never changes, every other field erased: the registers and shadow copies that only a set-up write, a
CFG entry or a reset writes (spec/07), the set-up port, the levels of power-on reset, RSTN and HCK, the TAP and the queue. -/
def State.kept (s : State) : State :=
  { State.reset with
    pending := s.pending
    wild := s.wild
    pw := { Power.reset with ctl := s.pw.ctl, por := s.pw.por, rstn := s.pw.rstn, hck := s.pw.hck }
    port := s.port
    tile := s.tile
    tileWritten := s.tileWritten
    lock := s.lock
    shadow := s.shadow
    enable := s.enable
    rings := s.rings.map Ring.kept
    drv := { Drive.reset with dcbSel := s.drv.dcbSel }
    sup := { Supply.reset with vlim := s.sup.vlim }
    jnl := { Journal.reset with ctl := s.jnl.ctl, base := s.jnl.base, size := s.jnl.size }
    cnv := { Convoy.reset with ctl := s.cnv.ctl, barto := s.cnv.barto }
    tap := s.tap }

/-- The same without the set-up port, which follows its bus in every command that carries bus levels. -/
def State.settings (s : State) : State := { s.kept with wild := none, port := SetupPort.reset }

end Sys2Proof.Machine

namespace Sys2Proof.Safety

open Machine

/-- The registers and shadow copies that hardware never changes of its own (spec/07), every other field erased. -/
def hostSet (s : State) : State :=
  { s.settings with
    pending := []
    pw := { Power.reset with ctl := s.pw.ctl }
    port := { SetupPort.reset with setup := s.port.setup }
    tap := Tap.reset }

/-- The commands that may change such a register: levels on the set-up bus, a CFG entry, a reset, a test-mode instruction. -/
def mayChangeSettings : Instr → Bool
  | .i2cStart _ _ => true
  | .slotCommit _ _ => true
  | .readCapture _ _ => true
  | .sclStretchRelease _ => true
  | .i2cStop _ => true
  | .framingAbort _ _ _ => true
  | .i2cDataByte _ _ _ => true
  | .cfg _ _ => true
  | .powerOnReset _ => true
  | .rstnAssert _ => true
  | .extest _ => true
  | .clamp _ => true
  | .highz _ => true
  | .segtest _ => true
  | _ => false

/-- The commands that may meet a host error with an unpredictable result (R7): register writes, ring admissions, memory-port results, the
intent write. -/
def mayErr : Instr → Bool
  | .i2cStart _ _ => true
  | .slotCommit _ _ => true
  | .readCapture _ _ => true
  | .sclStretchRelease _ => true
  | .i2cStop _ => true
  | .framingAbort _ _ _ => true
  | .i2cDataByte _ _ _ => true
  | .memArbitrate _ => true
  | .memTransactionEnd _ _ _ => true
  | .mdqsTimeout _ => true
  | .update _ _ => true
  | .clear _ _ => true
  | .cfg _ _ => true
  | .temp _ _ => true
  | .sync _ _ => true
  | .park _ _ => true
  | .mark _ _ => true
  | .nop _ _ => true
  | .intentWrite _ _ => true
  | _ => false

/-- The commands that hold the core in reset: they act on it as RSTN does (R69, R371), or as power-on reset (R68). -/
def resetsCore : Instr → Bool
  | .powerOnReset _ => true
  | .rstnAssert _ => true
  | .extest _ => true
  | .clamp _ => true
  | .highz _ => true
  | .segtest _ => true
  | _ => false

/-- The commands of the set-up bus (spec/05). -/
def isPort : Instr → Bool
  | .i2cStart _ _ => true
  | .slotCommit _ _ => true
  | .readCapture _ _ => true
  | .sclStretchRelease _ => true
  | .i2cStop _ => true
  | .framingAbort _ _ _ => true
  | .i2cDataByte _ _ _ => true
  | _ => false

/-- The lines of a command of the set-up bus. -/
def busLines : Instr → List (Bool × Bool)
  | .i2cStart _ l => l
  | .slotCommit _ l => l
  | .readCapture b _ => b.lines
  | .sclStretchRelease b => b.lines
  | .i2cStop b => b.lines
  | .framingAbort _ l m => l ++ m
  | .i2cDataByte _ l m => l ++ m
  | _ => []

/-- The recognised level of SDA, 2 hc later (R386), rises while SCL is high between two states: a STOP (R102). -/
def stopSeen (s t : State) : Bool := s.port.scl.level && t.port.scl.level && !s.port.sda2 && t.port.sda2

/-- The recognised level of SDA, 2 hc later (R386), falls while SCL is high: a START (R84). -/
def startSeen (s t : State) : Bool := s.port.scl.level && t.port.scl.level && s.port.sda2 && !t.port.sda2

/-- The recognised level of SCL falls (R98). -/
def sclFalls (s t : State) : Bool := s.port.scl.level && !t.port.scl.level

/-- The recognised level of SCL rises (R98). -/
def sclRises (s t : State) : Bool := !s.port.scl.level && t.port.scl.level

/-- The edge of the bus that is recognised between two states comes too soon by R99. -/
def tooSoon (s t : State) : Bool :=
  if sclFalls s t then t.port.tooSoon t.now true
  else if sclRises s t then t.port.tooSoon t.now false
  else (startSeen s t || stopSeen s t) && t.port.setupShort t.now

/-- The engine takes no part in the transaction, or R99 has been kept in it so far and is kept by this edge. -/
def inTime (s t : State) : Bool := !t.port.broken && !(t.port.phase.takesPart && tooSoon s t)

/-- The transactions that store at the target (Table 8.2). -/
def stores : TxKind → Bool
  | .program => true
  | .erase => true
  | .h8write => true
  | _ => false

/-- The commands that may change a data register, an instruction register or TDO of the test access port. -/
def isTap : Instr → Bool
  | .testLogicReset _ => true
  | .extest _ => true
  | .samplePreload _ => true
  | .idcode _ => true
  | .clamp _ => true
  | .highz _ => true
  | .segtest _ => true
  | .bypass _ _ => true
  | .captureDr _ _ _ => true
  | .updateDr _ => true
  | .tapShift _ _ _ => true
  | .captureIr _ => true
  | _ => false

/-! ### The end of a transaction (spec/08) -/

/-- After the levels of MRDY given, transaction x of access o is open at y, with the stretches that it will have if MRDY stays as it is
(R153). -/
def meets (s : State) (dt : Nat) (mrdy : List Bool) (y : State) (o : OpenAccess) (x : Txn) : Prop :=
  (s.arrive dt).ticking = true ∧ y = (s.arrive dt).runMrdy mrdy ∧ y.mem.cur = some o ∧
    ∃ x0, y.mem.txn = some x0 ∧ x = x0.foresee y.mem y.d (mrdyBound y.applied.window.ctl) y.now

/-- Every MDQS edge has come in time, and an H8 status pair shows success (R159, R163). -/
def answered (o : OpenAccess) (x : Txn) (d wait : Nat) (bytes : List Byte) : Prop :=
  (o.strobed x).1 + (o.strobed x).2 ≤ bytes.length ∧ (0 < (o.strobed x).1 + (o.strobed x).2 → wait ≤ 8 * d) ∧
    (0 < (o.strobed x).2 → h8Ok (bytes.drop (o.strobed x).1) = true)

/-- The edge on which MCS_N rises: d hc after the last MSCK cycle, or after the last MDQS edge (R150, Table 8.1). -/
def endEdge (o : OpenAccess) (x : Txn) (d wait : Nat) : Nat :=
  x.cycleAt d x.cycles + (if 0 < (o.strobed x).1 + (o.strobed x).2 then wait else 0) + d

/-- The access of the open transaction at w. -/
def holds (w : State) (q : OpenAccess) : Prop := w.mem.cur = some q ∧ w.mem.txn.isSome = true

/-- The data of a read that its transaction has brought: in D8 without the bytes around them (R170). -/
def brought (q : OpenAccess) (x : Txn) (bytes : List Byte) : List Byte :=
  if q.win.profile = 2 then busBytes x.piece bytes else ((busBytes x.count bytes).drop (q.target - x.lo)).take x.piece

/-! ### Register classes and reset values (spec/07) -/

/-- The reset value of a register (Tables 7.3 to 7.24); PWR_STATE reads IDLE with quiet. -/
def resetValue : Reg → Word
  | .ident => if Config.filmDelivery then 0x0D5012120 else 0x0D5011120
  | .pwrState => 0x21
  | .pwrCtl => 0x10
  | .pwrSetup => 0x12
  | .atnEnable => 0x1000000
  | .st .memCtl => 0x28
  | .st .frameLen => 0x30D40
  | .st .drvCtl => 1
  | .st .throttle => 2
  | .st .vpos => 0x8C
  | .st .vneg => 0x8C
  | .st .conv => 0xF14
  | .st .supCtl => 0x140
  | .st .warn => 0x283C0
  | .st .throt => 0x28410
  | .st .wrange => 0x230F60
  | .st .model => 0x40140
  | .ringCtl _ => 0x20
  | .ringPoll _ => 0x10000
  | .vlim => 0x7D140A0
  | .jnlCtl => 0x20
  | .jnlSize => 1
  | .cnvCtl => 1
  | _ => 0

/-- The registers that RSTN keeps: ID_TILE_ID, the lock bits and every LK register (Table 4.2). -/
def keptByRstn : Reg → Bool
  | .tileId => true
  | .lock => true
  | .st (.winBase _) => true
  | .st (.winSize _) => true
  | .st (.winTgt _) => true
  | .st (.winCfg _) => true
  | .st .warn => true
  | .st .throt => true
  | .st .wrange => true
  | .vlim => true
  | .jnlBase => true
  | .jnlSize => true
  | _ => false

/-- The registers that show levels of analog comparators or the rails, which no reset clears at once. -/
def showsPins : Reg → Bool
  | .pwrState => true
  | .supStatus => true
  | .thmStatus => true
  | _ => false

/-- The RO registers: every committed write is ignored (Table 6.1). -/
def readOnly : Reg → Bool
  | .ident => true
  | .addr => true
  | .cfgPending => true
  | .pwrState => true
  | .memFail => true
  | .memFailAddr => true
  | .ringStatus _ => true
  | .dcbVal => true
  | .active => true
  | .charge => true
  | .supStatus => true
  | .tdie => true
  | .tpan => true
  | .thmHost => true
  | .thmStatus => true
  | .jnlStatus => true
  | .jnlSeq => true
  | .jnlWpos => true
  | .cnvStatus => true
  | .logStat => true
  | .logA _ => true
  | .logB _ => true
  | _ => false

/-- The registers a write to which may be a host error (R125, R321). -/
def mayErrWrite : Reg → Bool
  | .st (.winCfg _) => true
  | .ringCtl _ => true
  | .jnlCtl => true
  | _ => false

/-! ### Reserved bits (R16) -/

/-- The bits of w outside m are 0. -/
abbrev within (w m : Word) : Prop := w &&& ~~~m = 0

/-- Bits of a register that the host writes whole and hardware leaves alone; the others are reserved (spec/07). -/
def hostMask : Reg → Option Word
  | .st r => some (stMask r)
  | .lock => some 0x1F
  | .pwrCtl => some 0xFFFF
  | .pwrSetup => some 0x1F
  | .atnEnable => some 0x7FFFFFF
  | .ringCtl _ => some 0xF7
  | .ringBase _ => some 0xFFFFFFFF
  | .ringTail _ => some 0xFFFFFFFF
  | .ringHeadAddr _ => some 0xFFFFFFFF
  | .ringPoll _ => some 0xFFFFFF
  | .dcbSel => some 0x1FF
  | .vlim => some 0x7FFFFFF
  | .jnlBase => some 0xFFFFFFFF
  | .jnlSize => some 0x7F
  | .cnvCtl => some 1
  | .barto => some 0xFFFFFF
  | _ => none

/-- Every staged register of a copy has its reserved bits 0. -/
def stagedWithin (g : Staged) : Prop := ∀ r, within (g.get r) (stMask r)

/-- Every register that the host writes has its reserved bits 0, in its applied, shadow and pending copies; JNL_CTL's too. -/
def Reserved (s : State) : Prop :=
  (∀ r m, hostMask r = some m → within (s.readReg r) m) ∧
  within s.jnl.ctl 0x7D ∧ within s.port.inForce 0x1F ∧
  stagedWithin s.shadow ∧ (∀ g, s.edge.shadow0 = some g → stagedWithin g) ∧
  (∀ p, s.pend.drive = some p → stagedWithin { s.shadow with drive := p.val }) ∧
  (∀ p, s.pend.supply = some p → stagedWithin { s.shadow with supply := p.val }) ∧
  (∀ p, s.pend.window = some p → stagedWithin { s.shadow with window := p.val }) ∧
  (∀ p, s.pend.thermal = some p → stagedWithin { s.shadow with thermal := p.val })

end Sys2Proof.Safety
end

