-- ==== Sys2Proof/Certificates/Slice0/Obligations.lean ====
section
/-! DEFINITION. The statements for the provers. Each docstring says which rule of spec/ the statement formalises. In every statement
`s.arrive dt` is the state on the edge on which the command acts, dt HCK edges after the command before it (log 2); `waitUntil` gives the
edge on which a timed event falls due; `settle` is what then follows by itself on every edge. Settling changes no more than the fields that
`State.lasting` erases, so what a statement says of any other field of `b` holds of `b.settle`; the engine's state changes by it only where
a check owes a replay (`State.settleCheck`, log 71). On every HCK edge the set-up port takes its part (`closeEdge`); while its bus rests
(`SetupPort.resting`) that part changes nothing. -/

open Sys2Proof Sys2Proof.Machine Sys2Proof.Safety

/-! ### The step and the queue -/

/-- A step takes the command at the front of the queue and runs exec on it with the queue's rest. The form of a block with a queue is the
model's choice (log 1). -/
def Obligations.StepRunsFrontCommand : Prop :=
  ∀ (s : State) (c : Instr) (rest : List Instr), s.pending = c :: rest → step s = exec c { s with pending := rest }

/-- On an empty queue one HCK edge passes: the edge count and PWR_HCCNT advance by one (R41 for the wrap), from what the set-up port has
left on the edge before. Without HCK, or in reset, nothing changes, unless a host error has made the engine unpredictable (R7). That the
empty queue means an edge is the model's choice (log 1). -/
def Obligations.IdleStepIsOneEdge : Prop :=
  ∀ s : State, s.pending = [] →
    ∃ t, step s = .next t ∧ (s.ticking = true → t.now = s.now + 1 ∧ t.pw.hccnt = s.closeEdge.pw.hccnt + 1) ∧
      (s.ticking = true → s.port.resting = true → t.pw.hccnt = s.pw.hccnt + 1) ∧
      (s.ticking = false → s.wild = none → t = s)

/-- Every command answers a next state from every state, and leaves the queue alone. R7 and R8: while the set-up bus rests, only the
commands of `mayErr` can make a host error with an unpredictable result; while one holds, the set-points stay within SUP_VLIM and the ranges
of Table 7.16, the rails count as up in every phase but off, a write access that is open lies, every byte of it, in one enabled writable
window, and a transaction that stores sends what its access has it send, to that window's target; a function-wide reset recovers the engine
once no register holds the error: also where one is in progress, and every unit starts afresh. The free states behind a host error and the
form of the recovery are the model's choice (log 5). -/
def Obligations.CommandsAnswer : Prop :=
  (∀ (c : Instr) (s : State), ∃ t, exec c s = .next t ∧ t.pending = s.pending) ∧
  (∀ (c : Instr) (s t : State), mayErr c = false → s.port.resting = true → exec c s = .next t → s.wild = none → t.wild = none) ∧
  (∀ (s : State) (e : HostError), s.wild = some e →
    s.disturb.sup.vlim = s.sup.vlim ∧
    s.disturb.sup.vpos ≤ min 160 (fld s.sup.vlim 0 9) ∧ s.disturb.sup.vneg ≤ min 160 (fld s.sup.vlim 9 9) ∧
    s.disturb.sup.vcom.natAbs ≤ min 500 (fld s.sup.vlim 18 9) ∧
    (s.disturb.sup.railsUp = true ↔ s.disturb.sup.phase ≠ .off) ∧
    (∀ o, s.disturb.mem.cur = some o → o.acc.write = true →
      ∃ w ∈ s.applied.window.win.toList, o.win = w ∧ w.writable = true ∧ w.hits o.acc.addr = true ∧ o.acc.addr + o.acc.len - 1 ≤ w.last) ∧
    (∀ x, s.disturb.mem.txn = some x → stores x.kind = true →
      ∃ o f, s.disturb.mem.cur = some o ∧ o.acc.write = true ∧ x.sel = o.win.selCode ∧ x.sent = (o.txn x.kind f).sent)) ∧
  (∀ (s t : State), s.wild.isSome = true → s.errorHeld = false → t = s.writeReg .pwrReset 0xC3 →
    t.wild = none ∧ t.pw.busy = true ∧ t.pw.drain = some s.now ∧ t.mem.cur = none ∧ t.mem.txn = none ∧ t.mem.parked = [] ∧
      t.jnl.replay = none ∧ ∀ n : RingNo, t.rings[n].work = none ∧ t.rings[n].enabled = false)

/-! ### Reset values -/

/-- Every register right after power-on reset reads its reset value (Tables 7.3 to 7.24); shadow copies equal the applied values, nothing
is pending, the engine is DORMANT, and the queue is empty. ID_ADDR before its first latch reads 0 by the model's choice (log 4). The
invariants that every step keeps hold there: reserved bits read 0 (R16), counters, log and energy wraps are within their widths (R146,
R147). -/
def Obligations.ResetState : Prop :=
  (∀ r : Reg, State.reset.readReg r = resetValue r) ∧ State.reset.shadow = State.reset.applied ∧
    State.reset.pend = ⟨none, none, none, none⟩ ∧ State.reset.pw.st = .dormant ∧ State.reset.pending = [] ∧ Reserved State.reset ∧
    (∀ c : Cnt, (State.reset.cnt.get c).toNat ≤ c.max.toNat) ∧ State.reset.log.length ≤ 16 ∧ State.reset.sup.wraps.toNat ≤ 255

/-! ### Rules over every command -/

/-- R16: a reserved field reads 0 and a write to it is ignored: in every register that the host writes, and in every shadow and pending
copy, the reserved bits are 0, and every step keeps that, whatever the host writes. -/
def Obligations.ReservedKept : Prop :=
 ∀ s t : State, Reserved s → step s = .next t → Reserved t

/-- The registers that only the host sets (enables, addresses, limits, shadow copies, ID_TILE_ID, ID_LOCK) change, while the set-up bus
rests, by no command but a set-up byte, a CFG entry, a reset or a test-mode instruction: none of the engine's own events touches them (R109,
R110). -/
def Obligations.HostRegistersKept : Prop :=
  ∀ (c : Instr) (s t : State), mayChangeSettings c = false → s.port.resting = true → exec c s = .next t → hostSet t = hostSet s

/-- The TAP is changed by its own commands and by power-on reset only (R368, R369). The set-up port is changed by the bus, by resets and
by clock loss only: while its bus rests no other command touches it; clock loss keeps its pointer and its registers (R89, R42, Table 2.9).
-/
def Obligations.PortsIsolated : Prop :=
  (∀ (c : Instr) (s t : State), isTap c = false → (∀ dt, c ≠ .powerOnReset dt) → exec c s = .next t → t.tap = s.tap) ∧
  ((∀ (c : Instr) (s t : State), isPort c = false → resetsCore c = false → (∀ dt, c ≠ .clockLoss dt) → s.port.resting = true →
    exec c s = .next t → t.port = s.port) ∧
  (∀ (dt : Nat) (s t : State), s.port.resting = true → exec (.clockLoss dt) s = .next t →
    t.port.ptr = s.port.ptr ∧ t.port.setup = s.port.setup ∧ t.port.inForce = s.port.inForce ∧ t.port.setupst = s.port.setupst))

/-- Every counter of Table 7.23 stays within its width, the fault log within 16 entries and SUP_ENERGY_WRAP within 8 bits, over every step
(R146, R147). -/
def Obligations.CountersAndLogBounded : Prop :=
  ∀ s t : State, step s = .next t →
    ((∀ c : Cnt, (s.cnt.get c).toNat ≤ c.max.toNat) ∧ s.log.length ≤ 16 ∧ s.sup.wraps.toNat ≤ 255) →
    (∀ c : Cnt, (t.cnt.get c).toNat ≤ c.max.toNat) ∧ t.log.length ≤ 16 ∧ t.sup.wraps.toNat ≤ 255

/-- An open transaction always belongs to the one access in progress, and every step keeps that (R149, R173, R174); reset has none. -/
def Obligations.TransactionHasItsAccess : Prop :=
  (State.reset.mem.txn = none ∧ State.reset.mem.cur = none) ∧
  ∀ s t : State, (s.mem.txn.isSome = true → s.mem.cur.isSome = true) → step s = .next t →
    (t.mem.txn.isSome = true → t.mem.cur.isSome = true)

/-- R102: a change of PWR_SETUP takes effect on the edge on which the engine recognises the next STOP: that edge puts the register's value
in force; a write of the register does not; no other edge of the bus does, so a transaction runs to its end with the old values; nor,
while the bus rests, does a command without bus levels, resets apart. -/
def Obligations.SetupInForceAtStop : Prop :=
  (∀ (s w : State) (dt : Nat) (c d : Bool), w = (s.arrive dt).busEdge.setPins c d → w.answering = true → stopSeen w w.sampleBit = true →
    ∃ t, exec (.i2cStop ⟨dt, [(c, d)]⟩) s = .next t ∧ t.port.inForce = w.port.setup ∧ t.port.setup = w.port.setup) ∧
  (∀ (s : State) (v : Word), (s.writeReg .pwrSetup v).port = { s.port with setup := v &&& 0x1F }) ∧
  (∀ w : State, w.sampleBus.port.inForce = (if w.answering && stopSeen w w.sampleBit then w.port.setup else w.port.inForce)) ∧
  (∀ (c : Instr) (s t : State), busLines c = [] → resetsCore c = false → s.port.resting = true → exec c s = .next t →
    t.port.inForce = s.port.inForce)

/-! ### The set-up port (spec/05)

`w` is the state on the edge on which the port samples the levels given, `u` the same with the bit that this edge takes; `inTime`: R99 has
been kept in this transaction, or the engine takes no part in it. -/

/-- R84: a START begins an address byte, whose bits the engine takes as the filtered level of SDA (R98). On the falling edge that ends its
last bit the byte is compared with the strap address: a match is acknowledged, from the next edge on; a mismatch is not, SDA is let go,
and from then on every edge of the bus but a START or STOP is ignored. The pointer stays (R87). -/
def Obligations.StartByteIsAddress : Prop :=
  (∀ (s w u : State) (dt : Nat) (c d : Bool), w = (s.arrive dt).busEdge.setPins c d → w.answering = true → u = w.sampleBit →
    inTime w u = true →
    (startSeen w u = true →
      ∃ t, exec (.i2cStart dt [(c, d)]) s = .next t ∧ t.port.phase = .address ∧ t.port.bits = 0 ∧ t.port.shift = 0 ∧ t.port.ack = false ∧
        t.port.sdaLow = false ∧ t.port.ptr = w.port.ptr ∧ t.port.buf = none ∧ t.port.cap = none ∧ t.port.broken = false) ∧
    (sclFalls w u = true → u.port.phase = .address → u.port.bits = 8 →
      ∃ t, exec (.i2cStart dt [(c, d)]) s = .next t ∧ t.port.ptr = w.port.ptr ∧
        (u.port.shift.extractLsb' 1 7 = w.pw.addr → t.port.ack = true ∧ t.port.drive = some true ∧
          t.port.phase = (if u.port.shift.getLsbD 0 then .read else .ptrHigh)) ∧
        (u.port.shift.extractLsb' 1 7 ≠ w.pw.addr → t.port.ack = u.port.ack ∧ t.port.drive = some false ∧ t.port.phase = .away))) ∧
  (∀ w : State, w.port.phase.takesPart = true → w.port.rose = true → w.port.bits < 8 →
    w.sampleBit.port.bits = w.port.bits + 1 ∧
    w.sampleBit.port.shift.toNat = 2 * w.port.shift.toNat % 256 + w.sampleLines.port.sda.level.toNat) ∧
  (∀ w : State, w.answering = true → w.port.phase = .away → w.port.broken = false → startSeen w w.sampleBit = false →
    stopSeen w w.sampleBit = false →
    ∃ a f, w.sampleBus = w.sampleLines.onPort fun p => { p with rose := sclRises w w.sampleLines, sclAt := a, fallAt := f })

/-- R87: with the address as byte 1 and the pointer as bytes 2 and 3 (Table 5.2), byte 2 of a write leaves the pointer alone; byte 3
changes it to bytes 2 and 3 and nothing but the port; a START or STOP leaves it, so that a write ends after any byte with the pointer as it
then is. R90: after each data byte of a write bits [4:0] of the pointer increment modulo 32 and bits [15:5] stay. -/
def Obligations.PointerBytes : Prop :=
  ∀ (s w u : State) (dt : Nat) (c d : Bool), w = (s.arrive dt).busEdge.setPins c d → w.answering = true → u = w.sampleBit →
    inTime w u = true →
    (sclFalls w u = true → u.port.bits = 8 →
      (u.port.phase = .ptrHigh →
        ∃ p, exec (.i2cDataByte dt [(c, d)] []) s = .next { w with port := p }.markSampled.settle ∧ p.ptr = w.port.ptr ∧
          p.phase = .ptrLow u.port.shift ∧ p.ack = true ∧ p.drive = some true) ∧
      (∀ hi : Byte, u.port.phase = .ptrLow hi →
        ∃ p, exec (.i2cDataByte dt [(c, d)] []) s = .next { w with port := p }.markSampled.settle ∧
          p.ptr.toNat = 256 * hi.toNat + u.port.shift.toNat ∧ p.phase = .write ∧ p.ack = true ∧ p.drive = some true) ∧
      (u.port.phase = .write →
        ∃ t, exec (.i2cDataByte dt [(c, d)] []) s = .next t ∧ exec (.slotCommit dt [(c, d)]) s = .next t ∧
          t.port.ptr.extractLsb' 0 5 = w.port.ptr.extractLsb' 0 5 + 1 ∧ t.port.ptr.extractLsb' 5 11 = w.port.ptr.extractLsb' 5 11)) ∧
    (startSeen w u = true ∨ stopSeen w u = true →
      ∃ t, exec (.i2cStop ⟨dt, [(c, d)]⟩) s = .next t ∧ exec (.i2cStart dt [(c, d)]) s = .next t ∧ t.port.ptr = w.port.ptr)

/-- R91: bytes 0 to 3 of a slot, in order, go to the holding buffer and write no register; the end of byte 4 commits the slot, to whatever
register it names, with bits [35:32] from its low nibble; nothing else follows on that edge (R109, log 44) but what an SC action starts on
its commit edge (R110, Table 6.1); bytes 5 to 7 are ignored. R92: a slot that has not committed is discarded, with PWR_SETUPST.short_slot
and the cause setup_err and no other effect, on the edge of the START or STOP, or on that which takes bit 7 of a byte outside it; a slot
that has committed leaves no mark. -/
def Obligations.SlotCommits : Prop :=
  (∀ (s w u : State) (dt : Nat) (c d : Bool), w = (s.arrive dt).busEdge.setPins c d → w.answering = true → u = w.sampleBit →
    inTime w u = true →
    (sclFalls w u = true → u.port.phase = .write → u.port.bits = 8 →
      (∀ (k : Nat) (bs : List Byte), u.port.ptr.toNat % 8 = k → k < 4 →
        u.port.buf.getD ⟨slotOf u.port.ptr, 0, false, []⟩ = ⟨slotOf u.port.ptr, k, false, bs⟩ →
        ∃ p, exec (.i2cDataByte dt [(c, d)] []) s = .next { w with port := p }.markSampled.settle ∧
          p.buf = some ⟨slotOf u.port.ptr, k + 1, false, bs ++ [u.port.shift]⟩ ∧ p.ack = true ∧ p.drive = some true) ∧
      (∀ bs : List Byte, u.port.ptr.toNat % 8 = 4 → u.port.buf = some ⟨slotOf u.port.ptr, 4, false, bs⟩ →
        ∃ p x, x = ({ w with port := p } : State).writeSlot (slotOf u.port.ptr) (slotWord (bs ++ [u.port.shift])) ∧
          exec (.slotCommit dt [(c, d)]) s = .next
            ((if (regOfSlot (slotOf u.port.ptr)).any Reg.actsAtOnce then x.settle else x).onEdge fun e =>
              { e with committed := true }).markSampled ∧
          p.buf = some ⟨slotOf u.port.ptr, 5, false, bs ++ [u.port.shift]⟩ ∧ p.ptr = pageNext u.port.ptr ∧ p.ack = true ∧
          p.drive = some true) ∧
      (∀ bs : List Byte, 4 < u.port.ptr.toNat % 8 → u.port.buf = some ⟨slotOf u.port.ptr, 5, false, bs⟩ →
        ∃ p, exec (.i2cDataByte dt [(c, d)] []) s = .next { w with port := p }.markSampled.settle ∧ p.buf = u.port.buf ∧ p.ack = true)) ∧
    (∀ h : HoldBuf, startSeen w u = true ∨ stopSeen w u = true → u.port.buf = some h →
      ∃ t, exec (.i2cStop ⟨dt, [(c, d)]⟩) s = .next t ∧ t.port.buf = none ∧
        (h.short = true →
          bitOf t.port.setupst 1 = true ∧ ∃ p e, t = { w with port := p, cause := w.cause ||| bitMask 13, edge := e }.settle) ∧
        (h.short = false → bitOf t.port.setupst 1 = bitOf w.port.setupst 1))) ∧
  (∀ (w : State) (h : HoldBuf), w.port.rose = true → w.port.phase = .write → w.port.bits = 0 → w.port.buf = some h →
    h.slot ≠ slotOf w.port.ptr →
    ∃ p, (h.short = true → (∃ e, w.sampleBit = { w with port := p, cause := w.cause ||| bitMask 13, edge := e }) ∧
        bitOf p.setupst 1 = true) ∧
      (h.short = false → w.sampleBit = { w with port := p } ∧ p.setupst = w.port.setupst) ∧ p.buf = none ∧ p.bits = 1) ∧
  (∀ b0 b1 b2 b3 b4 : Byte, slotWord [b0, b1, b2, b3, b4] = b4.extractLsb' 0 4 ++ b3 ++ b2 ++ b1 ++ b0)

/-- R103: a START or STOP anywhere but at the end of an acknowledge bit ends the transaction; an engine that takes part drops the slot,
lets SDA and SCL go and sets PWR_SETUPST.framing; another engine, or one at the end of an acknowledge bit, sets nothing by it. The pointer
stays. R100, R101: with stretch = 1 an acknowledged byte stretches SCL, low from the edge after the recognition, released on the fourth;
with stretch = 0 the engine never drives SCL. R99: an edge of the bus that comes too soon in a transaction that the engine takes part in is a
host error, and that transaction is broken; that it stays so until the next START or STOP is the model's choice (log 59). -/
def Obligations.FramingAndStretch : Prop :=
  (∀ (s w u : State) (dt : Nat) (c d : Bool), w = (s.arrive dt).busEdge.setPins c d → w.answering = true → u = w.sampleBit →
    inTime w u = true → startSeen w u = true ∨ stopSeen w u = true →
    ∃ t, exec (.framingAbort dt [(c, d)] []) s = .next t ∧ t.port.phase = (if startSeen w u then .address else .idle) ∧ t.port.buf = none ∧
      t.port.ptr = w.port.ptr ∧ t.port.hold = none ∧ t.port.sdaLow = false ∧
      bitOf t.port.setupst 0 = (bitOf w.port.setupst 0 || (u.port.phase.takesPart && !u.port.atEnd))) ∧
  (∀ (s w : State) (dt k : Nat) (lines : List (Bool × Bool)), w = (s.arrive dt).runBus lines → w.ticking = true → w.port.hold = some k →
    exec (.sclStretchRelease ⟨dt, lines⟩) s = .next (w.waitUntil (k + 4)).settle ∧ k + 4 ≤ (w.waitUntil (k + 4)).now) ∧
  (∀ s : State, s.acknowledge.port.hold = (if bitOf s.port.inForce 4 then some s.now else s.port.hold)) ∧
  (∀ (p : SetupPort) (k e : Nat), p.hold = some k → (p.sclLow e = true ↔ k < e ∧ e < k + 4)) ∧
  (∀ w u : State, w.answering = true → u = w.sampleBit → u.port.phase.takesPart = true → tooSoon w u = true →
    (u.timed true).wild.isSome = true ∧ (u.timed true).port.broken = true ∧
      (sclFalls w u = false → w.sampleBus.wild.isSome = true ∧ w.sampleBus.port.broken = true))

/-- R95, R96: the falling edge before the first bit of a byte captures the whole register of its slot, once per transaction and slot: a
read that goes on into a further slot captures that one; the byte comes from the captured value, the high nibble of byte 4 and bytes 5 to 7
as 0. R88, R98: its bits follow most significant first, each on SDA from the edge after the falling edge; after its last bit the pointer
increments over 16 bits and SDA is let go; a byte that the controller does not acknowledge ends the read. Nothing but the port and the
sampled BAR_N changes: a read has no side effect. -/
def Obligations.ReadBytes : Prop :=
  (∀ (s w u : State) (dt : Nat) (bar c d : Bool), (s.arrive dt).answering = true →
    w = ((s.arrive dt).barSeen bar).busEdge.setPins c d → w.answering = true → u = w.sampleBit → inTime w u = true →
    sclFalls w u = true → u.port.phase = .read → u.port.bits = 9 →
    ∃ p v x, exec (.readCapture ⟨dt, [(c, d)]⟩ bar) s = .next (State.settle x) ∧
      x = (if bar then { w with port := p }.markSampled else { w with port := p }.markSampled.barLow) ∧ p.cap.map (·.2) = some v ∧
      (u.port.cap = none → p.cap = some (slotOf u.port.ptr, w.readSlot (slotOf u.port.ptr))) ∧
      (∀ k y, u.port.cap = some (k, y) → k ≠ slotOf u.port.ptr → p.cap = some (slotOf u.port.ptr, w.readSlot (slotOf u.port.ptr))) ∧
      (∀ y, u.port.cap = some (slotOf u.port.ptr, y) → v = y) ∧
      p.tx = (if u.port.ptr.toNat % 8 < 5 then BitVec.ofNat 8 (v.toNat / 256 ^ (u.port.ptr.toNat % 8)) else 0) ∧
      p.drive = some (!p.tx.getLsbD 7) ∧ p.bits = 0 ∧ p.ptr = w.port.ptr) ∧
  (∀ (s w u : State) (dt : Nat) (c d : Bool), w = (s.arrive dt).busEdge.setPins c d → w.answering = true → u = w.sampleBit →
    inTime w u = true → sclFalls w u = true → u.port.phase = .read →
    (0 < u.port.bits → u.port.bits < 8 →
      ∃ p, exec (.i2cDataByte dt [(c, d)] []) s = .next { w with port := p }.markSampled.settle ∧
        p.drive = some (!u.port.tx.getLsbD (7 - u.port.bits)) ∧ p.ptr = w.port.ptr) ∧
    (u.port.bits = 8 →
      ∃ p, exec (.i2cDataByte dt [(c, d)] []) s = .next { w with port := p }.markSampled.settle ∧ p.drive = some false ∧
        p.ptr = w.port.ptr + 1)) ∧
  (∀ w : State, w.port.rose = true → w.port.phase = .read → w.port.bits = 8 → w.port.ack = false →
    w.sampleBit.port.phase = (if w.sampleLines.port.sda.level then .away else .read)) ∧
  (∀ s : State, s.tick.port.sdaLow = s.closeEdge.port.drive.getD s.closeEdge.port.sdaLow)

/-! ### Registers (spec/06, spec/07) -/

/-- R124: an unimplemented slot reads 0, and a write to it changes nothing, CNT_LOCK_VIOL included. A committed write to a register of
class RO is ignored (Table 6.1). R110 and R112: a write to a staged register goes to its shadow copy; the applied value, which a read
returns, does not change; with the lock bit of an LK register set, the shadow copy stays too, and the write counts as a lock violation. Of
the registers of class RW that keep what is written the implemented bits read back, at once; ATN_ENABLE bit 24 stays 1. -/
def Obligations.RegisterClasses : Prop :=
  ((∀ (s : State) (slot : BitVec 13) (v : Word), regOfSlot slot = none → s.readSlot slot = 0 ∧ s.writeSlot slot v = s) ∧
  (∀ (s : State) (r : Reg) (v : Word), readOnly r = true → s.writeReg r v = s)) ∧
  (∀ (s : State) (r : StReg) (v : Word),
    (s.writeReg (.st r) v).applied = s.applied ∧
    (s.locked r = false → (s.writeReg (.st r) v).shadow = s.shadow.put r v ∧ (s.writeReg (.st r) v).cnt = s.cnt ∧
      (s.writeReg (.st r) v).cause = s.cause) ∧
    (s.locked r = true → (s.writeReg (.st r) v).shadow = s.shadow ∧
      (s.writeReg (.st r) v).cnt.lockViol = satAdd 0xFFFF s.cnt.lockViol 1 ∧ bitOf (s.writeReg (.st r) v).cause 3 = true)) ∧
  (∀ (s : State) (v : Word),
    (s.writeReg .pwrCtl v).readReg .pwrCtl = v &&& 0xFFFF ∧
    (s.writeReg .pwrSetup v).readReg .pwrSetup = v &&& 0x1F ∧
    (s.writeReg .atnEnable v).readReg .atnEnable = v &&& 0x7FFFFFF ||| bitMask 24 ∧
    (s.writeReg .dcbSel v).readReg .dcbSel = v &&& 0x1FF ∧
    (s.writeReg .cnvCtl v).readReg .cnvCtl = v &&& 1 ∧
    (s.writeReg .barto v).readReg .barto = v &&& 0xFFFFFF ∧
    (∀ n, (s.writeReg (.ringPoll n) v).readReg (.ringPoll n) = v &&& 0xFFFFFF) ∧
    (s.lock.getLsbD 2 = false → (s.writeReg .vlim v).readReg .vlim = v &&& 0x7FFFFFF) ∧
    (s.edge.energy = 0 → (s.writeReg .energy v).readReg .energy = v) ∧
    (∀ c : Cnt, s.edge.cnts = [] → (s.writeReg (.cnt c) v).readReg (.cnt c) = v &&& c.max))

/-- R120: ID_LOCK is set-only: a write of 1 sets a bit, of 0 leaves it, no violation counts; a step clears a lock bit by power-on reset
alone, which clears them all. Each LK register names its bit: windows 3, the write range 0, the thresholds 1, SUP_VLIM 2, the journal
region 4. ID_TILE_ID once written stays likewise (Table 4.2). -/
def Obligations.LockBitsSetOnly : Prop :=
  (∀ (s : State) (v : Word), s.writeReg .lock v = { s with lock := s.lock ||| v.extractLsb' 0 5 }) ∧
  (∀ (c : Instr) (s t : State), (∀ dt, c ≠ .powerOnReset dt) → exec c s = .next t →
    s.lock &&& t.lock = s.lock ∧ (s.tileWritten = true → t.tileWritten = true ∧ t.tile = s.tile)) ∧
  (∀ (s : State) (dt : Nat), ∃ t, exec (.powerOnReset dt) s = .next t ∧ t.lock = 0) ∧
  (∀ n, stLock (.winBase n) = some 3 ∧ stLock (.winSize n) = some 3 ∧ stLock (.winTgt n) = some 3 ∧ stLock (.winCfg n) = some 3) ∧
  stLock .wrange = some 0 ∧ stLock .warn = some 1 ∧ stLock .throt = some 1 ∧
  (∀ (s : State) (v : Word), (s.writeReg .vlim v).sup.vlim ≠ s.sup.vlim → s.lock.getLsbD 2 = false) ∧
  (∀ (s : State) (v : Word), (s.writeReg .jnlBase v).jnl ≠ s.jnl ∨ (s.writeReg .jnlSize v).jnl ≠ s.jnl → s.lock.getLsbD 4 = false)

/-- R121: a write that class WO1 or LK ignores leaves its register, counts one on CNT_LOCK_VIOL, which saturates, and sets the cause
lock_viol; ATTN_N follows on the next edge only where that cause is enabled. The first write of ID_TILE_ID applies, whatever its value.
R144: with the lock bit clear, writes of JNL_BASE and JNL_SIZE are ignored while JNL_CTL.enable = 1, while JNL_STATUS.open = 1 and during
a check or a replay, and count as no violation; otherwise they are written. -/
def Obligations.IgnoredWrites : Prop :=
  ((∀ (s t : State) (v : Word),
    ((s.tileWritten = true ∧ t = s.writeReg .tileId v) ∨ (s.lock.getLsbD 2 = true ∧ t = s.writeReg .vlim v) ∨
      (s.lock.getLsbD 4 = true ∧ (t = s.writeReg .jnlBase v ∨ t = s.writeReg .jnlSize v))) →
    t.tile = s.tile ∧ t.tileWritten = s.tileWritten ∧ t.sup = s.sup ∧ t.jnl = s.jnl ∧
      t.cnt.lockViol = satAdd 0xFFFF s.cnt.lockViol 1 ∧ bitOf t.cause 3 = true ∧ t.attn = s.attn) ∧
  (∀ (s : State) (v : Word), s.tileWritten = false →
    s.writeReg .tileId v = { s with tile := v.extractLsb' 0 16, tileWritten := true })) ∧
  (∀ (s : State) (v : Word), s.lock.getLsbD 4 = false →
    (bitOf s.jnl.ctl 0 = true ∨ s.pw.jopen = true ∨ s.jnl.scan.isSome = true ∨ s.jnl.replay.isSome = true →
      s.writeReg .jnlBase v = s ∧ s.writeReg .jnlSize v = s) ∧
    (bitOf s.jnl.ctl 0 = false → s.pw.jopen = false → s.jnl.scan = none → s.jnl.replay = none →
      s.writeReg .jnlBase v = s.onJnl (fun j => { j with base := v &&& 0xFFFFFFFF }) ∧
      s.writeReg .jnlSize v = s.onJnl (fun j => { j with size := v &&& 0x7F })))

/-- Table 6.1, W1C, with the same-edge rule of Table 6.5: a bit written 1 clears unless hardware has set it on this edge; a bit written 0
stays. R129: ATTN_N follows the AND of ATN_CAUSE and ATN_ENABLE one edge later, and in DORMANT it holds its level (R43); a cause cleared
does not clear PWR_STATUS, nor the other way. -/
def Obligations.WriteOneClears : Prop :=
  (∀ (s : State) (v : Word) (i : Nat), i < 36 →
    bitOf ((s.writeReg .pwrStatus v).readReg .pwrStatus) i = (bitOf s.pw.status i && !(bitOf v i && !bitOf s.edge.status i)) ∧
    bitOf ((s.writeReg .pwrSetupst v).readReg .pwrSetupst) i = (bitOf s.port.setupst i && !(bitOf v i && !bitOf s.edge.setupst i)) ∧
    bitOf ((s.writeReg .atnCause v).readReg .atnCause) i = (bitOf s.cause i && !(bitOf v i && !bitOf s.edge.cause i)) ∧
    (∀ j : Fin 9, 36 * j.val + i < 292 →
      (s.writeReg (.fault j) v).sup.fault.getLsbD (36 * j.val + i) =
        (s.sup.fault.getLsbD (36 * j.val + i) && !(bitOf v i && !s.edge.fault.getLsbD (36 * j.val + i))))) ∧
  ((∀ s r : State, r = s.closeEdge → s.tick.attn = (if r.pw.st = .dormant then r.attn else decide (r.cause &&& r.enable ≠ 0))) ∧
  (∀ (s : State) (v : Word), (s.writeReg .atnCause v).pw.status = s.pw.status ∧ (s.writeReg .pwrStatus v).cause = s.cause))

/-- R113 and R114: ID_COMMIT takes the shadow copy of each group that it names as the group's pending copy, in place of an earlier one;
the group's bit of ID_CFG_PENDING reads 1; a group not named keeps its pending copy; while PWR_RESET.busy = 1 nothing happens (R115).
R113, R176, R288: at its safe point a group applies whole and its pending bit clears: the drive group at the edge after its commit while
the frame clock stands, the window group while the port is idle, the supply group at once while the rails are off. -/
def Obligations.CommitAndApply : Prop :=
  (∀ (s : State) (v : Word),
    (s.pw.busy = true → s.writeReg .commit v = s) ∧
    (s.pw.busy = false →
      (s.writeReg .commit v).pend.drive = (if bitOf v 0 then some ⟨s.shadow.drive, s.now⟩ else s.pend.drive) ∧
      (s.writeReg .commit v).pend.supply = (if bitOf v 1 then some ⟨s.shadow.supply, s.now⟩ else s.pend.supply) ∧
      (s.writeReg .commit v).pend.window = (if bitOf v 2 then some ⟨s.shadow.window, s.now⟩ else s.pend.window) ∧
      (s.writeReg .commit v).pend.thermal = (if bitOf v 3 then some ⟨s.shadow.thermal, s.now⟩ else s.pend.thermal) ∧
      (s.writeReg .commit v).applied = s.applied ∧ (s.writeReg .commit v).shadow = s.shadow ∧
      (∀ i < 4, bitOf v i = true → bitOf ((s.writeReg .commit v).readReg .cfgPending) i = true))) ∧
  ((∀ (s : State) (dt : Nat) (p : Pending DriveGroup), (s.arrive dt).answering = true → (s.arrive dt).pend.drive = some p →
    (s.arrive dt).drv.frames = none → p.at0 < (s.arrive dt).now →
    ∃ b : State, exec (.driveGroupApply dt) s = .next b.settle ∧ b.applied = { (s.arrive dt).applied with drive := p.val } ∧
      b.pend = { (s.arrive dt).pend with drive := none }) ∧
  (∀ (s : State) (dt : Nat) (p : Pending WindowGroup), (s.arrive dt).answering = true → (s.arrive dt).pend.window = some p →
    (s.arrive dt).mem.cur = none → (s.arrive dt).mem.txn = none → (s.arrive dt).edge.arbitrated = false →
    p.at0 < (s.arrive dt).now → (s.arrive dt).mem.rise < (s.arrive dt).now →
    ∃ b : State, exec (.windowGroupApply dt) s = .next b.settle ∧ b.applied = { (s.arrive dt).applied with window := p.val } ∧
      b.pend = { (s.arrive dt).pend with window := none } ∧ b.mayArbitrate = false) ∧
  (∀ (s : State) (dt : Nat) (p : Pending SupplyGroup), (s.arrive dt).answering = true → (s.arrive dt).pend.supply = some p →
    (s.arrive dt).sup.railsUp = false → p.at0 < (s.arrive dt).now →
    ∃ b : State, exec (.supplyGroupApply dt) s = .next b.settle ∧ b.applied = { (s.arrive dt).applied with supply := p.val } ∧
      b.pend = { (s.arrive dt).pend with supply := none } ∧
      (b.sup.vpos, b.sup.vneg, b.sup.vcom) = b.railTargets))

/-- The safe points of the groups in a working engine. R113: while the frame clock runs, the drive group applies at the start edge of the
next frame: by DRIVE_GROUP_APPLY, by the end of a frame or by the start of an update on it. R288: with the rails up the supply group's codes
are taken on the edge after its commit, and its pending bit clears when every set-point has its value. R306, step 1: a thermal group
committed before the result edge applies on it, and the result, the modelled rise and the thresholds follow the new values; one committed on
that very edge waits for the next. -/
def Obligations.SafePoints : Prop :=
  ((∀ (s w : State) (dt : Nat) (p : Pending DriveGroup) (f : Frames), (s.arrive dt).answering = true → (s.arrive dt).pend.drive = some p →
    (s.arrive dt).drv.frames = some f → w = (s.arrive dt).waitUntil (max (p.at0 + 1) (f.start + f.len)) → w.pend.drive = some p →
    ∃ b : State, exec (.driveGroupApply dt) s = .next b.settle ∧ b.applied = { w.applied with drive := p.val } ∧ b.pend.drive = none ∧
      p.at0 < b.now ∧ f.start + f.len ≤ b.now) ∧
  (∀ (s w : State) (dt qpos qneg : Nat) (bad : BitVec 292) (vmid : Bool) (f g : Frames) (p : Pending DriveGroup),
    (s.arrive dt).answering = true → (s.arrive dt).drv.frames = some g → w = (s.arrive dt).waitUntil (g.start + g.len) →
    w.drv.frames = some f → w.pend.drive = some p → p.at0 < w.now →
    ∃ b : State, exec (.frameEnd dt qpos qneg bad vmid) s = .next b.settle ∧ b.applied.drive = p.val ∧ b.pend.drive = none) ∧
  (∀ (s : State) (dt : Nat) (n : RingNo) (p : Pending DriveGroup), (s.arrive dt).startable n = true → (s.arrive dt).gated n = false →
    (s.arrive dt).drv.frames = none → (s.arrive dt).pend.drive = some p → p.at0 < (s.arrive dt).now →
    ∃ b : State, exec (.updateStart dt n) s = .next b.settle ∧ b.applied.drive = p.val ∧ b.pend.drive = none)) ∧
  (∀ (s : State) (dt : Nat) (p : Pending SupplyGroup), (s.arrive dt).answering = true → (s.arrive dt).pend.supply = some p →
    (s.arrive dt).sup.railsUp = true → p.at0 < (s.arrive dt).now →
    ∃ b : State, exec (.supplyGroupApply dt) s = .next b.settle ∧ b.applied.supply = p.val ∧
      (b.settled = true → b.pend.supply = none) ∧ (b.settled = false → b.pend.supply = some p)) ∧
  (∀ (s w : State) (dt pj : Nat) (mean : Int) (charge : List (Nat × Int × Int)) (p : Pending ThermalGroup),
    (s.arrive dt).answering = true → w = (s.arrive dt).waitUntil ((s.arrive dt).thm.window0 + 65536) → w.pend.thermal = some p →
    ∃ b : State, exec (.conversionResult dt mean charge pj) s = .next b.settle ∧ b.thm.tdie = convert mean ∧
      (w.now ≤ p.at0 → b.applied.thermal = w.applied.thermal ∧ b.pend.thermal = some p) ∧
      (p.at0 < w.now → b.applied.thermal = p.val ∧ b.pend.thermal = none ∧
        b.thm.rise = nextRise p.val.model (periodEnergy w.thm.points w.thm.window0 charge) w.thm.rise ∧
        b.thm.warn = overT w.thm.warn (tempInt (convert mean)) (warnT p.val.warn) (hyst p.val.warn) ∧
        b.thm.throttle = overT w.thm.throttle (tempInt (convert mean)) (throtT p.val.throt) (hyst p.val.throt) ∧
        b.thm.wrangeOut = !inRange p.val.wrange b.thm.tpan))

/-- R133: while a ring is enabled, a write of RINGn_CTL changes at most the enable bit, that bit stays with stop_mode = 1, and writes of
RINGn_BASE, TAILADDR, HEADADDR and HEAD do nothing; RINGn_HEAD ignores writes while an entry runs, too; no such write is a violation. A
disable that hardware makes on the same edge takes part by Table 6.5. R134, R203, R209: enabling a ring sets its fetch index to
RINGn_HEAD.head and asks for the tail read or a probe; a function-wide reset clears every enable and sets every fetch index to the head,
which it keeps. -/
def Obligations.RingWrites : Prop :=
  (∀ (s : State) (n : RingNo) (v : Word),
    (s.rings[n].enabled = true →
      s.writeReg (.ringBase n) v = s ∧ s.writeReg (.ringTail n) v = s ∧ s.writeReg (.ringHeadAddr n) v = s ∧
      s.writeReg (.ringHead n) v = s ∧
      ((s.writeReg (.ringCtl n) v).rings[n].ctl &&& ~~~(1#36)) = s.rings[n].ctl &&& ~~~(1#36) ∧
      ((s.writeReg (.ringCtl n) v).rings[n].enabled = (bitOf v 0 || s.rings[n].hard || s.edge.enableCleared.getLsbD n.val)) ∧
      (s.writeReg (.ringCtl n) v).cnt = s.cnt ∧ (s.writeReg (.ringCtl n) v).cause = s.cause) ∧
    (s.rings[n].work.isSome = true → s.writeReg (.ringHead n) v = s)) ∧
  (∀ (s : State) (n : RingNo) (v : Word), s.rings[n].enabled = false → s.rings[n].work = none → bitOf v 0 = true →
    s.edge.enableCleared.getLsbD n.val = false →
    (s.writeReg (.ringCtl n) v).rings[n].enabled = true ∧ (s.writeReg (.ringCtl n) v).rings[n].fetch = s.rings[n].head ∧
      (s.writeReg (.ringCtl n) v).rings[n].head = s.rings[n].head ∧
      (s.writeReg (.ringCtl n) v).rings[n].bell = !bitOf v 1 ∧ (s.writeReg (.ringCtl n) v).rings[n].probe = bitOf v 1) ∧
  (∀ (s : State) (n : RingNo), s.pw.busy = false →
    (s.writeReg .pwrReset 0xC3).pw.busy = true ∧ (s.writeReg .pwrReset 0xC3).rings[n].enabled = false ∧
      (s.writeReg .pwrReset 0xC3).rings[n].fetch = s.rings[n].head ∧ (s.writeReg .pwrReset 0xC3).rings[n].head = s.rings[n].head ∧
      (s.writeReg .pwrReset 0xC3).rings[n].fetched = [] ∧ (s.writeReg .pwrReset 0xC3).shadow = s.applied ∧
      (s.writeReg .pwrReset 0xC3).pend = ⟨none, none, none, none⟩)

/-- What a committed slot sets going. R203: a doorbell of an enabled ring asks for its tail read or a probe and reads 1 on the next edge;
of a disabled ring it does nothing. R78, R79, R80, R334: JNL_CTL.check = 1 begins the scan of the region with its first 512 bytes, or with
journaling disabled and the gate closed puts the gate's opening and the end of what is held as open on the next edge; while a check or a
replay is in progress, or slots are open behind an open gate, it does nothing. R137, R147: DRV_DCB_CLR and CNT_LOGCLR clear on the edge
after. R225: a disable of a soft ring drops what it has fetched, its bell, its barrier and its open reads, discards an update whose frame 1
has not started and lets a running one run. R132, R133: the registers of a disabled ring take what is written; that a write of enable = 0
does so too where stop_mode is 1 is the model's choice (log 61). -/
def Obligations.SlotActions : Prop :=
  (∀ (s : State) (n : RingNo) (v : Word), bitOf v 0 = true →
    (s.rings[n].enabled = true →
      (s.writeReg (.ringDoor n) v).rings[n].bell = true ∧ bitOf (s.writeReg (.ringDoor n) v).scNext (4 + n.val) = true) ∧
    (s.rings[n].enabled = false → s.writeReg (.ringDoor n) v = s)) ∧
  ((∀ (s t : State) (v : Word), t = s.writeReg .jnlCtl v → bitOf v 1 = true → s.jnl.scan = none → s.jnl.replay = none →
    (s.pw.jopen = false ∨ s.jnl.gate = false) →
    (bitOf v 0 = true → t.jnl.scan = some ⟨s.jnl.gate, []⟩ ∧
      ∃ a, t.jnl.queue = s.jnl.queue ++ [a] ∧ a.asker = .scan ∧ a.addr = fld s.jnl.base 0 32 ∧ a.len = 512 ∧ a.write = false ∧ a.prio = 1) ∧
    (bitOf v 0 = false → s.jnl.gate = false → t.jnl.scanFail = false ∧ t.later = s.later ++ [.openGate, .forgetSlots])) ∧
  (∀ (s t : State) (v : Word), t = s.writeReg .jnlCtl v → s.jnl.scan.isSome = true ∨ s.jnl.replay.isSome = true ∨
    (s.pw.jopen = true ∧ s.jnl.gate = true) → t.jnl = { s.jnl with ctl := v &&& 0x7D } ∧ t.later = s.later) ∧
  (∀ s : State, (s.runDeferred .openGate).jnl.gate = true ∧ (s.runDeferred .forgetSlots).jnl.slots = [] ∧
    (s.runDeferred .forgetSlots).pw.jopen = false)) ∧
  ((∀ (s : State) (v : Word), bitOf v 0 = true → Deferred.clearDcb ∈ (s.writeReg .dcbClr v).later ∧
    Deferred.clearLog ∈ (s.writeReg .logClr v).later ∧ (s.writeReg .dcbClr v).drv = s.drv ∧ (s.writeReg .logClr v).log = s.log) ∧
  (∀ (s : State) (n : Nat), (s.runDeferred .clearDcb).drv.dcb.getD n 0 = 0 ∧ (s.runDeferred .clearLog).log = [] ∧
    (s.runDeferred .clearLog).overflow = 0)) ∧
  (∀ (s t : State) (n : RingNo) (v : Word), t = s.writeReg (.ringCtl n) v → s.rings[n].enabled = true → bitOf v 0 = false →
    s.rings[n].hard = false → s.edge.enableCleared.getLsbD n.val = false →
    t.rings[n].enabled = false ∧ t.rings[n].fetched = [] ∧ t.rings[n].bell = false ∧ t.rings[n].barrier = none ∧
      t.rings[n].probe = false ∧ (∀ o, t.mem.cur = some o → o.acc.ring = n → o.acc.asker.isFetch = true → o.drop = true) ∧
      (∀ i u, s.rings[n].update? = some (i, u) →
        (u.stage.unstarted = true → t.rings[n].work = none) ∧
        (u.stage.unstarted = false → t.rings[n].update? = some (i, { u with gated := false })))) ∧
  (∀ (s : State) (n : RingNo) (v : Word), s.rings[n].enabled = false →
    (s.writeReg (.ringBase n) v).rings[n].base = v &&& 0xFFFFFFFF ∧ (s.writeReg (.ringTail n) v).rings[n].tailAddr = v &&& 0xFFFFFFFF ∧
      (s.writeReg (.ringHeadAddr n) v).rings[n].headAddr = v &&& 0xFFFFFFFF ∧
      (s.rings[n].work = none → s.edge.headTaken.getLsbD n.val = false → (s.writeReg (.ringHead n) v).rings[n].head = v.extractLsb' 0 16) ∧
      (bitOf v 0 = false → s.edge.enableCleared.getLsbD n.val = false → (s.writeReg (.ringCtl n) v).rings[n].ctl = v &&& 0xF7 ∧
        (s.writeReg (.ringCtl n) v).rings[n].fetch = s.rings[n].fetch))

/-- R146 and R147: an event adds one to its counter, which holds at its maximum, and cnt_sat is set whenever the count is then the
maximum; the log takes entries up to 16 in order and then counts the rest in overflow with the cause log_ovf. -/
def Obligations.CountersAndLog : Prop :=
  (∀ (s : State) (c d : Cnt), ((s.count c).cnt.get d).toNat =
      (if d = c then min c.max.toNat ((s.cnt.get c).toNat + 1) else (s.cnt.get d).toNat)) ∧
  (∀ (s : State) (c : Cnt), c.max.toNat ≤ (s.cnt.get c).toNat + 1 → bitOf (s.count c).cause 25 = true) ∧
  (∀ (s : State) (code detail : Nat) (n : RingNo) (i : Nat), s.log.length < 16 →
    ∃ e, s.log_ code detail n i = { s with log := s.log ++ [e] } ∧ e.b = s.pw.hccnt ∧
      (code < 256 → detail < 256 → i < 65536 →
        fld e.a 0 8 = code ∧ fld e.a 8 8 = detail ∧ fld e.a 16 2 = n.val ∧ fld e.a 18 16 = i)) ∧
  (∀ (s : State) (code detail : Nat) (n : RingNo) (i : Nat), 16 ≤ s.log.length →
    (s.log_ code detail n i).log = s.log ∧ (s.log_ code detail n i).overflow.toNat = min 65535 (s.overflow.toNat + 1) ∧
      bitOf (s.log_ code detail n i).cause 14 = true)

/-! ### Power, resets, clocking (spec/02, spec/04, section 14.7) -/

/-- R68, R73 and Table 4.2 for power-on reset: every register takes its reset value, nothing waits, the engine is DORMANT and the TAP is
in Test-Logic-Reset; rails that have begun their ramp discharge at once (Table 2.9), a sequencing just ends (R286). It recovers the engine
from every host error (R7). The levels of SCL, SDA and MRDY are not the engine's. -/
def Obligations.PowerOnResetClears : Prop :=
  ∀ (s : State) (dt : Nat), ∃ t, exec (.powerOnReset dt) s = .next t ∧ t.pw.por = true ∧ t.pw.st = .dormant ∧ t.wild = none ∧
    (∀ r : Reg, showsPins r = false → t.readReg r = resetValue r) ∧
    t.shadow = t.applied ∧ t.pend = ⟨none, none, none, none⟩ ∧ t.rings = State.reset.rings ∧ t.jnl = Journal.reset ∧
    t.mem = { MemPort.reset with mrdy := (s.arrive dt).mem.mrdy } ∧
    t.port = { SetupPort.reset with pinScl := (s.arrive dt).port.pinScl, pinSda := (s.arrive dt).port.pinSda } ∧
    t.tap = Tap.reset ∧ t.drv = Drive.reset ∧ t.thm = Thermal.reset ∧
    ((s.arrive dt).sup.rampBegun = true → t.sup.phase = .fast ∧ t.sup.railsUp = true) ∧
    (∀ k, (s.arrive dt).sup.railsUp = true → (s.arrive dt).sup.phase = .sequencing k → t.sup.phase = .off ∧ t.sup.railsUp = false)

/-- R69, R73 and Table 4.2 for RSTN: ID_TILE_ID, the lock bits and every LK register stay; every other register takes its reset value; the
TAP is not touched. That it recovers the engine from a host error which no register that it keeps still holds, and from no other, is the
model's choice (R7; log 5). -/
def Obligations.RstnKeepsLocks : Prop :=
  ∀ (s : State) (dt : Nat), (s.arrive dt).pw.por = false →
    ∃ t, exec (.rstnAssert dt) s = .next t ∧ t.pw.rstn = false ∧ t.pw.st = .dormant ∧ (t.errorHeld = false → t.wild = none) ∧
      (t.errorHeld = true → t.wild = (s.arrive dt).wild) ∧
      (∀ r : Reg, keptByRstn r = true → t.readReg r = (s.arrive dt).readReg r) ∧
      (∀ r : Reg, keptByRstn r = false → showsPins r = false → t.readReg r = resetValue r) ∧
      t.shadow = t.applied ∧ t.pend = ⟨none, none, none, none⟩ ∧ t.rings = Vector.replicate 4 { Ring.reset with stale := true } ∧
      t.tap = s.tap ∧ ((s.arrive dt).sup.rampBegun = true → t.sup.phase = .fast ∧ t.sup.railsUp = true)

/-- R48, R68 and R70: a clocking begins with edge 1: at the release of power-on reset or RSTN where HCK runs, at HCK's first edge
otherwise; without HCK the release leaves the engine DORMANT. A first clocking has no trims and no strap samples yet, also where one
before it was cut short (R76; the model's choice, log 45). -/
def Obligations.ClockingBegins : Prop :=
  (∀ (s : State) (dt : Nat), (s.arrive dt).pw.por = true → (s.arrive dt).pw.rstn = true → testMode (s.arrive dt).tap.ir = false →
    (s.arrive dt).pw.hck = true →
    ∃ t, exec (.porRelease dt) s = .next t ∧ t.pw.por = false ∧ t.pw.first = true ∧ t.pw.qual = true ∧ t.edgeNo = 1 ∧ t.pw.trim = false) ∧
  (∀ (s : State) (dt : Nat), (s.arrive dt).pw.por = true → (s.arrive dt).pw.hck = false →
    ∃ t, exec (.porRelease dt) s = .next t ∧ t.pw.por = false ∧ t.pw.first = true ∧ t.pw.qual = false ∧ t.pw.st = .dormant) ∧
  (∀ (s : State) (dt : Nat), (s.arrive dt).pw.rstn = false → (s.arrive dt).pw.por = false → testMode (s.arrive dt).tap.ir = false →
    (s.arrive dt).pw.hck = true →
    ∃ t, exec (.rstnRelease dt) s = .next t ∧ t.pw.rstn = true ∧ t.pw.first = true ∧ t.pw.qual = true ∧ t.edgeNo = 1 ∧ t.pw.trim = false) ∧
  (∀ (s : State) (dt : Nat), (s.arrive dt).pw.rstn = false → (s.arrive dt).pw.hck = false →
    ∃ t, exec (.rstnRelease dt) s = .next t ∧ t.pw.rstn = true ∧ t.pw.first = true) ∧
  (∀ (s : State) (dt : Nat), (s.arrive dt).pw.hck = false → (s.arrive dt).heldInReset = false →
    ∃ t, exec (.hckStart dt) s = .next t ∧ t.pw.hck = true ∧ t.pw.qual = true ∧ t.edgeNo = 1 ∧
      t.pw.first = (s.arrive dt).pw.first ∧
      ((s.arrive dt).pw.first = true → t.pw.strap1 = none ∧ t.pw.strap2 = none ∧ t.pw.trim = false))

/-- R58, R59, R76 and Table 4.3: in a first clocking the trims are loaded by edge 16, the straps are sampled no earlier than edges 24 and
56, and from edge 25 to edge 56 each carries the pull opposite to its first sample; on edge 64 the engine takes the address
0x60 + 4 L1 + L0 and enters IDLE, or SHUTDOWN while the comparator shows a trip (R37). -/
def Obligations.StrapsGiveAddress : Prop :=
  (∀ s : State, s.pw.first = true → s.pw.qual = true → s.pw.clk0 + 16 ≤ s.now + 1 → s.tick.pw.trim = true) ∧
  (∀ (s : State) (dt : Nat) (x y : Bool), (s.arrive dt).ticking = true → (s.arrive dt).pw.qual = true → (s.arrive dt).pw.first = true →
    (s.arrive dt).pw.strap1 = none →
    ∃ t, exec (.strapFirstSample dt x y) s = .next t ∧ t.pw.strap1 = some (x, y) ∧ t.pw.clk0 + 24 ≤ t.now) ∧
  (∀ (s : State) (a0 a1 : Bool), s.pw.first = true → s.pw.qual = true → s.pw.strap1 = some (a0, a1) →
    (s.pw.clk0 + 25 ≤ s.now → s.now < s.pw.clk0 + 57 → s.strapPull 0 = some (!a0) ∧ s.strapPull 1 = some (!a1)) ∧
    (s.now < s.pw.clk0 + 25 ∨ s.pw.clk0 + 57 ≤ s.now → s.strapPull 0 = none ∧ s.strapPull 1 = none)) ∧
  (∀ (s : State) (dt : Nat) (x y : Bool), (s.arrive dt).ticking = true → (s.arrive dt).pw.qual = true → (s.arrive dt).pw.first = true →
    (s.arrive dt).pw.strap1.isSome = true → (s.arrive dt).pw.strap2 = none →
    ∃ t, exec (.strapSecondSample dt x y) s = .next t ∧ t.pw.strap2 = some (x, y) ∧ t.pw.clk0 + 56 ≤ t.now) ∧
  (∀ (s : State) (dt : Nat) (a0 a1 b0 b1 : Bool), (s.arrive dt).ticking = true → (s.arrive dt).pw.qual = true →
    (s.arrive dt).pw.first = true → (s.arrive dt).pw.strap1 = some (a0, a1) → (s.arrive dt).pw.strap2 = some (b0, b1) →
    ∃ b : State, exec (.addressLatch dt) s = .next b.settle ∧ b.pw.l0 = strapLevel a0 b0 ∧ b.pw.l1 = strapLevel a1 b1 ∧
      b.pw.addr.toNat = 0x60 + 4 * b.pw.l1.toNat + b.pw.l0.toNat ∧ b.pw.qual = false ∧ b.pw.first = false ∧
      b.pw.st = (if (s.arrive dt).pw.sd then .shutdown else .idle) ∧ b.pw.clk0 + 64 ≤ b.now ∧ b.thm.window0 = b.now)

/-- R36, R46, R305 and R349 on edge 64 of a wake: RECOVERY, IDLE or SHUTDOWN; the last conversion result, the modelled rise and the TEMP
value are dropped, a conversion window begins, and no barrier stays armed. The address stays (R59). -/
def Obligations.WakeEnds : Prop :=
  ∀ (s w : State) (dt : Nat), (s.arrive dt).ticking = true → (s.arrive dt).pw.qual = true → (s.arrive dt).pw.first = false →
    w = (s.arrive dt).waitUntil ((s.arrive dt).pw.clk0 + 64) →
    ∃ b : State, exec (.wakeQualifierEnd dt) s = .next b.settle ∧ b.pw.qual = false ∧ b.pw.clk0 + 64 ≤ b.now ∧
      b.pw.addr = (s.arrive dt).pw.addr ∧
      b.thm.valid = false ∧ b.thm.rise = 0 ∧ b.thm.current = false ∧ b.thm.wrangeOut = true ∧ b.thm.window0 = b.now ∧
      (∀ n : RingNo, b.rings[n].barrier = none) ∧
      b.pw.st = (if w.pw.sd then .shutdown else if w.pw.jopen then .recovery else .idle)

/-- R45 and Table 2.9: on a clock loss the engine is DORMANT, lets the set-up bus go and keeps the transaction of the memory port (R50);
with the rails up it sets PWR_STATUS.clk_loss with its cause and discharges at once; with the rails off it does neither. R396: every update
whose frame 1 has started and that has not finished, or whose intent write has been requested, is interrupted with the rails up; that it is
with the rails off too, which only an update with an open slot can meet, is the model's reading (log 13). `w`: what the last HCK edge leaves
(log 44). -/
def Obligations.ClockLossActions : Prop :=
  ∀ (s w : State) (dt : Nat), w = (s.arrive dt).closeEdge → w.pw.hck = true → w.heldInReset = false →
    ∃ t, exec (.clockLoss dt) s = .next t ∧ t.pw.hck = false ∧ t.pw.st = .dormant ∧ t.port.phase = .idle ∧ t.port.buf = none ∧
      t.port.hold = none ∧ t.port.sdaLow = false ∧ t.jnl.replay = none ∧ t.now = w.now ∧ t.mem.txn = w.mem.txn ∧
      (∀ (n : RingNo) (i : BitVec 16) (u : Update), w.rings[n].update? = some (i, u) → u.interruptible = true →
        ∃ v, t.rings[n].update? = some (i, v) ∧ v.stage = .cut .clockLoss ∧ v.gated = false) ∧
      (w.sup.railsUp = true → bitOf t.pw.status 0 = true ∧ bitOf t.cause 0 = true ∧ t.drv.frames = none ∧
        (w.sup.rampBegun = true → t.sup.phase = .fast)) ∧
      (w.sup.railsUp = false → t.pw.status = w.pw.status ∧ t.cause = w.cause ∧ t.sup = w.sup)

/-- R47, R317 to R319: a trip sets PWR_STATUS.thermal_trip with its cause and, unless the engine is DORMANT, enters SHUTDOWN and drops
every barrier; that it does so on the trip's own edge, within the 2 hc of R318, is the model's choice (log 21). The release clears
THM_STATUS.sd; 64 hc later the engine leaves SHUTDOWN for RECOVERY or IDLE by the journal-open flag. R75: VIN undervoltage sets
SUP_STATUS.uvlo; once the ramp has begun it discharges the rails at once; on an HCK edge, at once where HCK runs (R25), it sets the cause
vin_uv and, with those rails, writes log code 0x08, drops the barriers and leaves ARMED, DRIVING and PARKING for RECOVERY or IDLE; otherwise
the state stays. The release clears the status bit; that a journaled update that waits for VIN is replayed from then on is the model's
reading (R335; log 20). -/
def Obligations.ShutdownAndUvlo : Prop :=
  ((∀ (s : State) (dt : Nat), (s.arrive dt).pw.sd = false → (s.arrive dt).heldInReset = false →
    ∃ b : State, exec (.shutdownTrip dt) s = .next b.settle ∧ b.pw.sd = true ∧ bitOf b.pw.status 1 = true ∧ bitOf b.cause 1 = true ∧
      b.pw.st = (if (s.arrive dt).pw.st = .dormant then .dormant else .shutdown) ∧
      ((s.arrive dt).pw.st ≠ .dormant → ∀ n : RingNo, b.rings[n].barrier = none) ∧
      ((s.arrive dt).sup.rampBegun = true → b.sup.phase = .fast)) ∧
  (∀ (s : State) (dt : Nat), (s.arrive dt).pw.sd = true →
    ∃ b : State, exec (.shutdownRelease dt) s = .next b.settle ∧ b.pw.sd = false ∧ b.pw.sdClear = b.now ∧
      bitOf (b.readReg .thmStatus) 4 = false ∧ b.pw.st = (s.arrive dt).pw.st) ∧
  (∀ (s w : State) (dt : Nat), (s.arrive dt).answering = true → (s.arrive dt).pw.st = .shutdown → (s.arrive dt).pw.sd = false →
    w = (s.arrive dt).waitUntil ((s.arrive dt).pw.sdClear + 64) →
    ∃ b : State, exec (.shutdownExit dt) s = .next b.settle ∧ (s.arrive dt).pw.sdClear + 64 ≤ b.now ∧
      b.pw.st = (if w.pw.jopen then .recovery else .idle))) ∧
  ((∀ (s : State) (dt : Nat), (s.arrive dt).pw.uvlo = false → (s.arrive dt).heldInReset = false →
    ∃ b : State, exec (.uvloAssert dt) s = .next b.settle ∧ bitOf (b.readReg .supStatus) 4 = true ∧
      ((s.arrive dt).ticking = true → bitOf b.cause 12 = true) ∧
      ((s.arrive dt).ticking = false → ∃ hit, Deferred.uvloSeen hit ∈ b.later) ∧
      ((s.arrive dt).sup.rampBegun = false → b.pw.st = (s.arrive dt).pw.st ∧ b.log = (s.arrive dt).log) ∧
      ((s.arrive dt).sup.rampBegun = true →
        b.sup.phase = .fast ∧
        ((s.arrive dt).ticking = true → (∀ n : RingNo, b.rings[n].barrier = none) ∧
          ((s.arrive dt).log = [] → ∃ e l, b.log = e :: l ∧ fld e.a 0 8 = 8) ∧
          ((s.arrive dt).pw.st = .armed ∨ (s.arrive dt).pw.st = .driving ∨ (s.arrive dt).pw.st = .parking →
            b.pw.st = (if (s.arrive dt).pw.jopen then .recovery else .idle))))) ∧
  (∀ (s : State) (hit : Bool), bitOf (s.runDeferred (.uvloSeen hit)).cause 12 = true) ∧
  (∀ (s : State) (dt : Nat), ∃ b : State, exec (.uvloRelease dt) s = .next b.settle ∧ bitOf (b.readReg .supStatus) 4 = false ∧
    b.pw.st = (if (s.arrive dt).answering && (s.arrive dt).replayOwed && !(s.arrive dt).pw.busy && !(s.arrive dt).checking then .recovery
      else (s.arrive dt).pw.st)))

/-- R72, steps 2 to 4: the drain ends when no access is open, and accesses of priorities 3 to 5 go; with the rails up the engine is in
PARKING from the next edge on, whatever discharge the rails are in, but not in SHUTDOWN (R82); that it is the edge after the drain's end is
the model's reading (log 22). 16 hc after the later of the drain's end and the rails' end busy clears and the engine is in RECOVERY or
IDLE. A reset that SHUTDOWN has met ends 16 hc after the drain, with the exit from SHUTDOWN or after it, in the state that Table 2.4 has
given. -/
def Obligations.FunctionResetSteps : Prop :=
  ((∀ (s : State) (dt : Nat), (s.arrive dt).answering = true → (s.arrive dt).pw.busy = true → (s.arrive dt).pw.drain = none →
    (s.arrive dt).mem.cur = none → (s.arrive dt).mem.txn = none →
    ∃ b : State, exec (.resetDrainEnd dt) s = .next b.settle ∧ b.pw.drain = some (s.arrive dt).now ∧
      (∀ o ∈ b.mem.parked, o.acc.prio < 3) ∧ (∀ o ∈ (s.arrive dt).mem.parked, o.acc.prio < 3 → o ∈ b.mem.parked) ∧
      ((s.arrive dt).sup.railsUp = true → (s.arrive dt).pw.st ≠ .shutdown → Deferred.enterParking ∈ b.later) ∧
      ((s.arrive dt).pw.st = .shutdown → b.later = (s.arrive dt).later)) ∧
  (∀ s : State, s.pw.busy = true → s.pw.st ≠ .shutdown → s.pw.st ≠ .dormant → s.sup.rampBegun = true →
    (s.runDeferred .enterParking).pw.st = .parking ∧
      (s.sup.ramps = true → (s.runDeferred .enterParking).sup.phase = .discharge s.now s.sup.dac.natAbs 0) ∧
      (s.sup.ramps = false → (s.runDeferred .enterParking).sup.phase = s.sup.phase))) ∧
  (∀ (s y : State) (dt d : Nat), y = (s.arrive dt).waitUntil (max d (s.arrive dt).pw.off0 + 16) →
    (s.arrive dt).answering = true → (s.arrive dt).pw.busy = true → (s.arrive dt).pw.drain = some d → (s.arrive dt).pw.shut = false →
    (s.arrive dt).sup.railsUp = false → Deferred.enterParking ∉ (s.arrive dt).later → (s.arrive dt).pw.st ≠ .shutdown →
    y.jnl.replay = none →
    ∃ b : State, exec (.resetBusyEnd dt) s = .next b.settle ∧ b.pw.busy = false ∧ b.pw.drain = none ∧ d + 16 ≤ b.now ∧
      (s.arrive dt).pw.off0 + 16 ≤ b.now ∧ b.pw.st = (if y.pw.jopen then .recovery else .idle)) ∧
  (∀ (s y : State) (dt d : Nat), y = (s.arrive dt).waitUntil (d + 16) →
    (s.arrive dt).answering = true → (s.arrive dt).pw.busy = true → (s.arrive dt).pw.drain = some d → (s.arrive dt).pw.shut = true →
    (s.arrive dt).pw.st ≠ .shutdown →
    ∃ b : State, exec (.resetBusyEnd dt) s = .next b.settle ∧ b.pw.busy = false ∧ b.pw.drain = none ∧ d + 16 ≤ b.now ∧
      b.pw.st = y.pw.st) ∧
  (∀ (s w : State) (dt d : Nat), (s.arrive dt).answering = true → (s.arrive dt).pw.st = .shutdown → (s.arrive dt).pw.sd = false →
    w = (s.arrive dt).waitUntil ((s.arrive dt).pw.sdClear + 64) → w.pw.busy = true → w.pw.drain = some d →
    ∃ b : State, exec (.shutdownExit dt) s = .next b.settle ∧ b.pw.busy = !decide (d + 16 ≤ w.now))

/-! ### The memory port (spec/08)

`meets s dt mrdy y o x`: the transaction x of access o is open, with the stretches that MRDY's levels give it; `holds w q`: it is still
open on the edge w, for the access q. -/

/-- R165, R166 and Table 8.1: on the arbitration edge an access whose bytes all lie in one matching window opens its first transaction, at
the target address of R165 and with the window's select code, with MCS_N falling 2 hc after the choice and at least 4 hc after its last
rise, until which PWR_STATE.mbusy reads 0 (Table 2.5). That the rest of a waveform record belongs to the window in which the record has begun
is the model's choice (`anchor`; log 64). R174: a read that has given way goes on with its next transaction. -/
def Obligations.ArbitrationStarts : Prop :=
  ∀ (s : State) (dt : Nat), (s.arrive dt).mayArbitrate = true → (s.arrive dt).edge.arbitrated = false →
    (s.arrive dt).mem.rise ≤ (s.arrive dt).now →
    (∀ (a : Access) (n : Fin 8) (w : Win), (s.arrive dt).choice = some (.inr a) → (s.arrive dt).matching a.anchor = [n] →
      w = (s.arrive dt).applied.window.win[n] →
      a.addr + (a.clip w).len - 1 ≤ w.last → (a.write = true → w.writable = true) → (a.asker = .erase → w.profile ≠ 2) →
      ∃ (b : State) (o : OpenAccess) (x : Txn), exec (.memArbitrate dt) s = .next b.settle ∧ b.mem.cur = some o ∧ b.mem.txn = some x ∧
        o.acc = a.clip w ∧ o.win = w ∧ o.target = (a.addr - w.first + fld w.tgt 0 32) % 2 ^ 32 ∧ o.left = (a.clip w).len ∧
        x.fall = max ((s.arrive dt).now + 2) ((s.arrive dt).mem.rise + 4) ∧ x.sel = w.selCode ∧ x.stretch = [] ∧
        (a.write = false → x.kind = .read) ∧ (a.write = true → w.profile = 2 → x.kind = .h8write) ∧ b.mbusy = false) ∧
    (∀ o : OpenAccess, (s.arrive dt).choice = some (.inl o) → o.acc.write = false →
      ∃ (b : State) (x : Txn), exec (.memArbitrate dt) s = .next b.settle ∧ b.mem.cur = some { o with polls := 0, fill := [] } ∧
        b.mem.txn = some x ∧ x.kind = .read ∧ x.sel = o.win.selCode ∧ x.fall = max ((s.arrive dt).now + 2) ((s.arrive dt).mem.rise + 4) ∧
        b.mem.parked = (s.arrive dt).mem.parked.erase o)

/-- R150, R153, R168, R169 and R174: at its end a transaction's MCS_N rises d hc after its last MSCK cycle, or after the last MDQS edge,
each stretch at a ready point counted; without a stretch cycle k begins on edge F + d (2 + k). MRDY passes two stages of a synchroniser; while
it is low no ready point is passed, and one that finds it high on edge e has been stretched up to e. A read that has not yet all its bytes
gives way with what it has got; data to be discarded go nowhere; a write goes from write enable to its program or erase, and then waits for
the first poll; a poll that still shows write-in-progress waits for the next one, which STATUS_POLL opens after the window's gap. -/
def Obligations.TransactionsEnd : Prop :=
  (∀ (s y w : State) (dt wait : Nat) (mrdy : List Bool) (bytes : List Byte) (o q : OpenAccess) (x : Txn), meets s dt mrdy y o x →
    x.mrdyFails y.d (mrdyBound y.applied.window.ctl) = none → answered o x y.d wait bytes → w = y.waitUntil (endEdge o x y.d wait) →
    holds w q →
    endEdge o x y.d wait ≤ w.now ∧
    (x.kind = .read → q.acc.write = false → q.drop = true →
      exec (.memTransactionEnd dt ⟨mrdy, wait⟩ bytes) s = .next w.riseNow.freePort.settle) ∧
    (x.kind = .read → q.acc.write = false → x.piece < q.left → q.drop = false →
      ∃ (b : State) (p : OpenAccess), exec (.memTransactionEnd dt ⟨mrdy, wait⟩ bytes) s = .next b.settle ∧ b.mem.cur = none ∧
        b.mem.txn = none ∧ b.mem.rise = w.now ∧ b.mem.parked = w.mem.parked ++ [p] ∧ p.left = q.left - x.piece ∧ p.acc = q.acc ∧
        p.target = (q.target + x.piece) % 2 ^ 32 ∧ p.got = q.got ++ brought q x bytes) ∧
    (x.kind = .writeEnable →
      ∃ (b : State) (z : Txn), exec (.memTransactionEnd dt ⟨mrdy, wait⟩ bytes) s = .next b.settle ∧ b.mem.rise = w.now ∧
        b.mem.txn = some z ∧ b.mem.cur = some q ∧ z.kind = (if q.acc.asker = .erase then .erase else .program) ∧ z.fall = w.now + 4) ∧
    (x.kind = .program ∨ x.kind = .erase →
      ∃ b : State, exec (.memTransactionEnd dt ⟨mrdy, wait⟩ bytes) s = .next b.settle ∧ b.mem.rise = w.now ∧ b.mem.txn = none ∧
        b.mem.cur = some q) ∧
    (x.kind = .status → ((busBytes x.count bytes).getD 0 0).getLsbD 0 = true → q.polls + 1 ≠ q.win.pollMax →
      ∃ b : State, exec (.memTransactionEnd dt ⟨mrdy, wait⟩ bytes) s = .next b.settle ∧ b.mem.rise = w.now ∧ b.mem.txn = none ∧
        b.mem.cur = some { q with polls := q.polls + 1 })) ∧
  ((∀ (x : Txn) (d k : Nat), x.stretch = [] → x.cycleAt d k = x.fall + d * (2 + k)) ∧
  (∀ s : State, (s.passMrdy 1).mem.mrdy1 = s.mem.mrdy ∧ (s.passMrdy 1).mem.mrdy2 = s.mem.mrdy1 ∧
    (s.mem.mrdy2 = false → (s.passMrdy 1).mem.txn = s.mem.txn)) ∧
  (∀ (x : Txn) (d bound e k p : Nat), x.ready[x.stretch.length]? = some k → p = x.fall + x.stretch.sum + d * (2 + k) - 1 →
    (e < p → (x.pass d bound e e).stretch = x.stretch) ∧
    (p ≤ e → e < p + bound → ∃ l, (x.pass d bound e e).stretch = x.stretch ++ (e - p) :: l) ∧
    (p + bound ≤ e → (x.pass d bound e e).stretch = x.stretch))) ∧
  (∀ (s w : State) (dt gap : Nat) (o : OpenAccess), (s.arrive dt).ticking = true → (s.arrive dt).pollGap = some (o, gap) →
    w = (s.arrive dt).waitUntil ((s.arrive dt).mem.rise + gap) → w.pollGap.isSome = true →
    gap = o.win.pollGap * (if o.acc.asker = .erase then 256 else 1) ∧
    ∃ (b : State) (x : Txn), exec (.statusPoll dt) s = .next b.settle ∧ b.mem.cur = some o ∧ b.mem.txn = some x ∧ x.kind = .status ∧
      x.fall = w.now ∧ (s.arrive dt).mem.rise + gap ≤ b.now ∧ b.mbusy = true)

/-- What a complete access gives the unit that has asked for it. A read whose last transaction ends is complete with all its bytes (R168); a
write with the poll that shows no write-in-progress, or the H8 write that ends it, and goes on with its next piece where bytes are left
(R169). An entry without a fragment table is fetched, and one with a table when the table is there (R210); a probe finds an entry where the
phase bit differs from the lap bit (R206, R208); the tail read gives the tail, whose span is the host's (R203, R204); a read of an
update takes its place in it, and with the last of them a journaled update waits for its intent and another for the rails, one without a
driven segment finishes (R264, R268, R270); that it drops its ring's barrier then is the model's choice (log 67). The scan asks for the
next 512 bytes or ends, with the gate open where no slot is open (R78, R79, R334). A complete intent makes its update ready, a progress mark
counts, a tombstone closes its slot (R330 to R332). -/
def Obligations.AccessesComplete : Prop :=
  (∀ (s y w : State) (dt wait : Nat) (mrdy : List Bool) (bytes : List Byte) (o q : OpenAccess) (x : Txn), meets s dt mrdy y o x →
    x.mrdyFails y.d (mrdyBound y.applied.window.ctl) = none → answered o x y.d wait bytes → w = y.waitUntil (endEdge o x y.d wait) →
    holds w q →
    (x.kind = .read → q.acc.write = false → q.left ≤ x.piece → q.drop = false →
      ∃ p : OpenAccess, p.acc = q.acc ∧ p.got = q.got ++ brought q x bytes ∧
        exec (.memTransactionEnd dt ⟨mrdy, wait⟩ bytes) s = .next (w.riseNow.freePort.readDone p p.got).settle) ∧
    (q.acc.write = true → x.kind = .h8write ∨ (x.kind = .status ∧ ((busBytes x.count bytes).getD 0 0).getLsbD 0 = false) →
      (q.left ≤ x.piece ∨ q.acc.asker = .erase →
        exec (.memTransactionEnd dt ⟨mrdy, wait⟩ bytes) s = .next (w.riseNow.freePort.writeDone q.acc).settle) ∧
      (x.piece < q.left → q.acc.asker ≠ .erase →
        ∃ p : OpenAccess, p.left = q.left - x.piece ∧ p.target = (q.target + x.piece) % 2 ^ 32 ∧ p.acc = q.acc ∧
          exec (.memTransactionEnd dt ⟨mrdy, wait⟩ bytes) s = .next (w.riseNow.beginPiece p).settle))) ∧
  (∀ (s t : State) (o : OpenAccess) (bs : List Byte) (n : RingNo), n = o.acc.ring → t = s.readDone o bs →
    (o.acc.asker = .entry → (entryOf bs).namesTable = false →
      ∃ f : Fetched, t.rings[n].fetched = s.rings[n].fetched ++ [f] ∧ f.index = s.rings[n].fetch ∧ f.entry = entryOf bs ∧ f.table = [] ∧
        f.runsHere = f.entry.runsHere s.tile ∧ t.rings[n].fetch = s.rings[n].fetch + 1 ∧ t.rings[n].fetching = .none) ∧
    (o.acc.asker = .entry → (entryOf bs).namesTable = true → t.rings[n].fetching = .table (entryOf bs) ∧
      t.rings[n].fetched = s.rings[n].fetched) ∧
    (∀ e, o.acc.asker = .table → s.rings[n].fetching = .table e →
      ∃ f : Fetched, t.rings[n].fetched = s.rings[n].fetched ++ [f] ∧ f.index = s.rings[n].fetch ∧ f.entry = e ∧ f.table = bs ∧
        f.runsHere = e.runsHere s.tile ∧ t.rings[n].fetch = s.rings[n].fetch + 1 ∧ t.rings[n].fetching = .none) ∧
    (o.acc.asker = .probe →
      (phaseBit bs ≠ s.rings[n].lap s.rings[n].fetch → t.rings[n].fetching = .entry ∧
        ((s.rings[n].fetch - s.rings[n].head).toNat < 2 ^ ringExp s.rings[n].ctl → t.wild = s.wild)) ∧
      (phaseBit bs = s.rings[n].lap s.rings[n].fetch → t.rings[n].timer = some s.now ∧ t.rings[n].fetching = s.rings[n].fetching)) ∧
    (∀ v : BitVec 16, o.acc.asker = .tail → v.toNat = fld (wordAt bs 0) 0 16 →
      t.rings[n].tail = v ∧ t.rings[n].tailRead = true ∧
      ((v - s.rings[n].head).toNat ≤ 2 ^ ringExp s.rings[n].ctl →
        s.rings[n].tailRead = false ∨ (v - s.rings[n].tail).toNat < 2 ^ 15 → t.wild = s.wild) ∧
      ((s.rings[n].stale = false ∧ 2 ^ ringExp s.rings[n].ctl < (v - s.rings[n].head).toNat) ∨
        (s.rings[n].tailRead = true ∧ 2 ^ 15 ≤ (v - s.rings[n].tail).toNat) → t.wild.isSome = true)) ∧
    (∀ (i : BitVec 16) (u v : Update), s.rings[n].update? = some (i, u) →
      (o.acc.asker, v) ∈ [(Asker.oldImage, { u with oldImg := some bs }), (.newImage, { u with newImg := some bs }),
        (.mask, { u with masks := u.masks ++ [bs] }), (.legend, { u with legend := some bs }), (.index, { u with index := some bs })] ∨
      (∃ w, (o.acc.asker, v) ∈ [(Asker.record w, { u with records := addRecord u.records w bs }),
        (.recordRest w, { u with records := addRest u.records w bs })]) →
      t = (s.onUpdate n fun _ => v).readsDone n ∧ (s.onUpdate n fun _ => v).rings[n].update? = some (i, v)) ∧
    (∀ c : Scan, o.acc.asker = .scan → s.jnl.scan = some c →
      (c.bytes.length + bs.length < regionBytes s.jnl.size →
        ∃ a, t.jnl.queue = s.jnl.queue ++ [a] ∧ t.jnl.scan = some { c with bytes := c.bytes ++ bs } ∧ a.asker = .scan ∧
          a.addr = fld s.jnl.base 0 32 + (c.bytes.length + bs.length) ∧
          a.len = min 512 (regionBytes s.jnl.size - (c.bytes.length + bs.length))) ∧
      (regionBytes s.jnl.size ≤ c.bytes.length + bs.length → t.jnl.scan = none ∧ t.jnl.scanFail = false ∧
        ((∀ q, scanIntent (c.bytes ++ bs) (sectorBytes s.jnl.ctl) q = none) → t.jnl.seq = 0 ∧ t.jnl.wpos = 0) ∧
        (c.gateOpen = true → t.jnl.gate = s.jnl.gate ∧ t.jnl.slots = s.jnl.slots) ∧
        (c.gateOpen = false → t.jnl.slots = [] → t.jnl.gate = true ∧ t.pw.jopen = false) ∧
        (c.gateOpen = false → t.jnl.slots ≠ [] → t.jnl.gate = s.jnl.gate ∧ t.jnl.gateAfter = true ∧ t.pw.jopen = true)))) ∧
  ((∀ (s : State) (n : RingNo) (i : BitVec 16) (u : Update), s.rings[n].update? = some (i, u) → u.stage = .reads →
    (u.legend = none ∨ u.nextRead.isSome = true → s.readsDone n = s) ∧
    (∀ (lg : List Byte) (p : Plan), u.legend = some lg → u.nextRead = none →
      p = planOf (legendNs lg) (bandOf lg u.tpan) u.moves u.records →
      ((s.readsDone n).wild = (if u.statesBad (legendNs lg) then s.wild.or (some .stateRange) else s.wild)) ∧
      (p.drives = true → (s.readsDone n).rings[n].update? =
        some (i, { u with plan := some p, stage := if u.journaled then .waitIntent else .ready })) ∧
      (p.drives = false → (s.readsDone n).rings[n].work = none ∧ (s.readsDone n).rings[n].comp = s.rings[n].compAfter i ∧
        (s.readsDone n).cnt.updates = satAdd 0xFFFFFFFFF s.cnt.updates 1 ∧
        (s.readsDone n).rings[n].barrier = (if u.gated then none else s.rings[n].barrier)))) ∧
  (∀ (s t : State) (a : Access) (o : OpenSlot), s.findSlot a.slot = some o → t = s.writeDone a →
    (a.asker = .intent → o.wantTomb = false → ∀ i u, s.rings[o.ring].update? = some (i, u) → u.slot = some a.slot → u.stage = .intent →
      t.rings[o.ring].update? = some (i, { u with stage := .ready })) ∧
    (a.asker = .intent → o.wantTomb = true → t = s.requestMark a.slot .tomb) ∧
    (∀ d, a.asker = .progress d → t.findSlot a.slot = some { o with done := d }) ∧
    (a.asker = .tomb → t.findSlot a.slot = none ∧ t.cnt.tomb = satAdd 0xFFFF s.cnt.tomb 1 ∧
      ((∀ x ∈ s.jnl.slots, x.q = a.slot) → t.pw.jopen = false))))

/-- R177, R131 and Table 7.25: an access fails before any transaction where no window matches its first byte (code 0x3), where it runs past
its window (0x7, R166) and where it writes to a window that is not writable (0x4); a poll fails at its limit (0x2, R169), a stretch of MRDY
at its bound (0x1, R155), an MDQS edge that is missing or late on the edge after the 8th MSCK cycle (0x5, R159), of the data whatever the
status cycle's ready point does, an H8 status pair that shows no success (0x6, R163). MCS_N rises d hc after the failure edge. A failure
fills MEM_FAIL and MEM_FAIL_ADDR, counts on CNT_MEMFAIL, sets the cause mem_fail, and jnl_fail for the journal, and makes a log entry with
bits [7:0] of MEM_FAIL. R135, R224: a failed fetch disables a soft ring and stalls a hard one. -/
def Obligations.MemoryFailures : Prop :=
  ((∀ (s : State) (dt : Nat) (a : Access), (s.arrive dt).mayArbitrate = true → (s.arrive dt).edge.arbitrated = false →
    (s.arrive dt).mem.rise ≤ (s.arrive dt).now → (s.arrive dt).choice = some (.inr a) →
    ((s.arrive dt).matching a.anchor = [] →
      ∃ b : State, exec (.memArbitrate dt) s = .next b.settle ∧ b.mem.txn = none ∧ b.mem.cur = none ∧ fld b.mem.fail 0 4 = 3 ∧
        b.mem.failAddr = put (a.addr % 2 ^ 32) 0) ∧
    (∀ (n : Fin 8) (more : List (Fin 8)) (w : Win), (s.arrive dt).matching a.anchor = n :: more →
      w = (s.arrive dt).applied.window.win[n] →
      (w.last < a.addr + (a.clip w).len - 1 →
        ∃ b : State, exec (.memArbitrate dt) s = .next b.settle ∧ b.mem.txn = none ∧ b.mem.cur = none ∧ fld b.mem.fail 0 4 = 7 ∧
          fld b.mem.fail 4 3 = n.val ∧ b.mem.failAddr = put (a.addr % 2 ^ 32) 0) ∧
      (a.addr + (a.clip w).len - 1 ≤ w.last → a.write = true → w.writable = false →
        ∃ b : State, exec (.memArbitrate dt) s = .next b.settle ∧ b.mem.txn = none ∧ b.mem.cur = none ∧ fld b.mem.fail 0 4 = 4 ∧
          fld b.mem.fail 4 3 = n.val ∧ b.mem.failAddr = put (a.addr % 2 ^ 32) 0))) ∧
  (∀ (s t : State) (code win addr : Nat) (drop : Bool) (a : Access), code < 16 → win < 8 → t = s.memFailure code win addr drop a →
    fld t.mem.fail 0 4 = code ∧ fld t.mem.fail 4 3 = win ∧ bitOf t.mem.fail 7 = a.write ∧ fld t.mem.fail 8 3 = a.user.toNat ∧
      fld t.mem.fail 11 2 = a.ring.val ∧ t.mem.failAddr = put (addr % 2 ^ 32) 0 ∧
      t.cnt.memFail = satAdd 0xFFFF s.cnt.memFail 1 ∧ bitOf t.cause 6 = true ∧ (a.asker.isJournal = true → bitOf t.cause 7 = true) ∧
      (s.log.length < 16 → ∃ e, t.log[s.log.length]? = some e ∧ fld e.a 0 8 = (failureLog a).1 ∧ fld e.a 8 8 = fld t.mem.fail 0 8 ∧
        fld e.a 16 2 = (failureLog a).2.1.val ∧ fld e.a 18 16 = (failureLog a).2.2)) ∧
  (∀ a : Access,
    (a.asker = .tail ∨ a.asker = .probe ∨ a.asker = .entry → failureLog a = (0x10, a.ring, a.index.toNat)) ∧
    (a.asker.isUpdateRead = true ∨ a.asker = .table → failureLog a = (0x11, a.ring, a.index.toNat)) ∧
    (a.asker = .intent ∨ a.asker = .erase ∨ a.asker = .close ∨ a.asker = .tomb → failureLog a = (0x12, a.ring, a.index.toNat)) ∧
    (a.asker = .scan ∨ a.asker.isReplay = true → failureLog a = (0x13, 0, 0)) ∧
    (∀ v, a.asker = .head v → failureLog a = (0x14, a.ring, v.toNat))) ∧
  (∀ (s t : State) (n : RingNo), t = s.fetchFailure n → bitOf t.cause (20 + n.val) = true ∧
    (s.rings[n].hard = false → t.rings[n].enabled = false ∧ t.rings[n].fetched = [] ∧ t.rings[n].barrier = none) ∧
    (s.rings[n].hard = true → t.rings[n].stalled = true ∧ t.rings[n].enabled = s.rings[n].enabled ∧
      t.rings[n].fetched = s.rings[n].fetched ∧ t.rings[n].fetching = .none ∧
      (∀ o, t.mem.cur = some o → o.acc.ring = n → o.acc.asker.isNextRead = true → o.drop = true)))) ∧
  ((∀ (s y w : State) (dt wait : Nat) (mrdy : List Bool) (bytes : List Byte) (o q : OpenAccess) (x : Txn), meets s dt mrdy y o x →
    x.mrdyFails y.d (mrdyBound y.applied.window.ctl) = none → holds w q →
    (answered o x y.d wait bytes → w = y.waitUntil (endEdge o x y.d wait) → x.kind = .status →
      ((busBytes x.count bytes).getD 0 0).getLsbD 0 = true → q.polls + 1 = q.win.pollMax →
      ∃ b : State, exec (.memTransactionEnd dt ⟨mrdy, wait⟩ bytes) s = .next b.settle ∧ b.mem.txn = none ∧ b.mem.cur = none ∧
        fld b.mem.fail 0 4 = 2) ∧
    (∀ e, e = Txn.late y.d (x.endBefore y.d (if (o.strobed x).2 = 0 then x.cycles else x.cycles - 1)) → w = y.waitUntil e →
      bytes.length < (o.strobed x).1 →
      ∃ b : State, exec (.memTransactionEnd dt ⟨mrdy, wait⟩ bytes) s = .next b.settle ∧ b.mem.txn = none ∧ b.mem.cur = none ∧
        fld b.mem.fail 0 4 = 5 ∧ e + y.d ≤ b.mem.rise) ∧
    (∀ e, e = Txn.late y.d (x.cycleAt y.d x.cycles) → w = y.waitUntil e → (o.strobed x).1 ≤ bytes.length →
      bytes.length < (o.strobed x).1 + (o.strobed x).2 ∨ (0 < (o.strobed x).1 + (o.strobed x).2 ∧ 8 * y.d < wait) →
      ∃ b : State, exec (.memTransactionEnd dt ⟨mrdy, wait⟩ bytes) s = .next b.settle ∧ b.mem.txn = none ∧ b.mem.cur = none ∧
        fld b.mem.fail 0 4 = 5 ∧ e + y.d ≤ b.mem.rise) ∧
    (∀ e, e = x.cycleAt y.d x.cycles + wait → w = y.waitUntil e → (o.strobed x).1 + (o.strobed x).2 ≤ bytes.length → wait ≤ 8 * y.d →
      0 < (o.strobed x).2 → h8Ok (bytes.drop (o.strobed x).1) = false →
      ∃ b : State, exec (.memTransactionEnd dt ⟨mrdy, wait⟩ bytes) s = .next b.settle ∧ b.mem.txn = none ∧ b.mem.cur = none ∧
        fld b.mem.fail 0 4 = 6 ∧ e + y.d ≤ b.mem.rise)) ∧
  (∀ (s y w : State) (dt e : Nat) (mrdy : List Bool) (o q : OpenAccess) (x : Txn), meets s dt (mrdy ++ [false]) y o x →
    x.mrdyFails y.d (mrdyBound y.applied.window.ctl) = some e → w = y.waitUntil e → holds w q →
    ∃ b : State, exec (.mrdyStretchTimeout ⟨dt, mrdy⟩) s = .next b.settle ∧ b.mem.txn = none ∧ b.mem.cur = none ∧ fld b.mem.fail 0 4 = 1 ∧
      fld b.mem.fail 4 3 = q.wix % 8 ∧ e + y.d ≤ b.mem.rise) ∧
  (∀ (x : Txn) (d bound k : Nat), x.ready[x.stretch.length]? = some k →
    x.mrdyFails d bound = some (x.fall + d * (2 + k) + x.stretch.sum - 1 + bound)) ∧
  (∀ (s y w : State) (dt e : Nat) (mrdy : List Bool) (o q : OpenAccess) (x : Txn), meets s dt mrdy y o x → usesMdqs o x.kind = true →
    x.mrdyFails y.d (mrdyBound y.applied.window.ctl) = none → 0 < (o.strobed x).1 + (o.strobed x).2 →
    e = Txn.late y.d (if (o.strobed x).1 = 0 then x.cycleAt y.d x.cycles
      else x.endBefore y.d (if (o.strobed x).2 = 0 then x.cycles else x.cycles - 1)) → w = y.waitUntil e → holds w q →
    ∃ b : State, exec (.mdqsTimeout ⟨dt, mrdy⟩) s = .next b.settle ∧ b.mem.txn = none ∧ b.mem.cur = none ∧ fld b.mem.fail 0 4 = 5 ∧
      e + y.d ≤ b.mem.rise) ∧
  (∀ (s y w : State) (dt wait e f : Nat) (mrdy : List Bool) (bytes : List Byte) (o q : OpenAccess) (x : Txn), meets s dt mrdy y o x →
    x.mrdyFails y.d (mrdyBound y.applied.window.ctl) = some e → bytes.length < (o.strobed x).1 → 0 < (o.strobed x).2 →
    x.stretch.length + 1 = x.ready.length → f = Txn.late y.d (x.endBefore y.d (x.cycles - 1)) → f ≤ e → w = y.waitUntil f → holds w q →
    ∃ b : State, exec (.memTransactionEnd dt ⟨mrdy, wait⟩ bytes) s = .next b.settle ∧ b.mem.txn = none ∧ b.mem.cur = none ∧
      fld b.mem.fail 0 4 = 5 ∧ f + y.d ≤ b.mem.rise))

/-! ### Rings and their entries (spec/10, spec/11)

An admission edge carries one entry; `chosen n` holds where ring n's oldest fetched entry is the one that this edge admits (R218, R235). -/

/-- R209: when the poll interval of a phase-mode ring has passed, a probe is due. R221, R248, R356: a head write that is complete becomes
RINGn_HEAD; the MARK entries that its value passes set ATN_CAUSE.mark, and a PARK that it passes is published; where the completion point
has moved on meanwhile, a further head write falls due. -/
def Obligations.PollingAndHeads : Prop :=
  (∀ (s w : State) (dt k : Nat) (n : RingNo), (s.arrive dt).answering = true → (s.arrive dt).rings[n].timer = some k →
    w = (s.arrive dt).waitUntil (k + pollInterval (s.arrive dt).rings[n].poll) → w.rings[n].timer = some k →
    ∃ b : State, exec (.pollTimerExpiry dt n) s = .next b.settle ∧ b.rings[n].probe = true ∧ b.rings[n].timer = none ∧
      k + pollInterval (s.arrive dt).rings[n].poll ≤ b.now) ∧
  (∀ (s : State) (n : RingNo) (v : BitVec 16),
    (s.headDone n v).rings[n].head = v ∧
    ((s.headDone n v).rings[n].headDue = (s.rings[n].headDue || decide (s.rings[n].comp ≠ v))) ∧
    (∀ i ∈ s.rings[n].marks, (v - 1 - i).toNat < 2 ^ 15 →
      bitOf (s.headDone n v).cause (16 + n.val) = true ∧ i ∉ (s.headDone n v).rings[n].marks) ∧
    (∀ i ∈ s.rings[n].marks, 2 ^ 15 ≤ (v - 1 - i).toNat → i ∈ (s.headDone n v).rings[n].marks) ∧
    (s.rings[n].marks = [] → (s.headDone n v).cause = s.cause) ∧
    (∀ i, s.rings[n].parkHead = some i →
      (s.headDone n v).rings[n].parkHead = (if (v - 1 - i).toNat < 2 ^ 15 then none else some i)))

/-- NOP, an entry of another tile, and MARK finish on their admission edge and leave everything else (R234, R248, R249); for that edge
RINGn_STATUS.running reads 1 (R235). The completion point moves past them and a head write falls due (R220, R221), but never past an
entry that was discarded unfinished (R198, R265). R244 and R309: TEMP finishes at once; on the next edge THM_HOST reads its value, which is
current, and with THM_CTL.src = 1 Tpan takes it. -/
def Obligations.EntriesThatFinish : Prop :=
  ((∀ (s : State) (dt : Nat) (n : RingNo) (f : Fetched) (rest : List Fetched), (s.arrive dt).answering = true →
    (s.arrive dt).rings[n].fetched = f :: rest → (s.arrive dt).chosen n = true →
    (f.runsHere = false ∨ (f.entry.op = 0 ∧ (s.arrive dt).rings[n].syncNext = false) →
      exec (.nop dt n) s = .next (((s.arrive dt).takeEntry n).finishEntry n f.index).settle) ∧
    (f.runsHere = true → f.entry.op = 7 → (s.arrive dt).rings[n].syncNext = false →
      exec (.mark dt n) s = .next ((((s.arrive dt).takeEntry n).onRing n fun r => { r with marks := r.marks ++ [f.index] }).finishEntry
        n f.index).settle) ∧
    (f.runsHere = true → f.entry.op = 4 → (s.arrive dt).rings[n].syncNext = false →
      ∃ b : State, exec (.temp dt n) s = .next b.settle ∧ b.thm.arriving.toNat = fld f.entry.w1 0 12 ∧ Deferred.tempCurrent ∈ b.later ∧
        b.thm.host = (s.arrive dt).thm.host ∧ b.rings[n].work = none ∧ b.rings[n].comp = (s.arrive dt).rings[n].compAfter f.index)) ∧
  (∀ (b : State) (n : RingNo) (i : BitVec 16), bitOf (((b.takeEntry n).finishEntry n i).readReg (.ringStatus n)) 20 = true ∧
    (b.finishEntry n i).rings[n].work = none ∧
    (b.rings[n].hole = false → b.rings[n].comp = i →
      (b.finishEntry n i).rings[n].comp = i + 1 ∧ (b.finishEntry n i).rings[n].headDue = true) ∧
    (b.rings[n].hole = true → (b.finishEntry n i).rings[n].comp = b.rings[n].comp))) ∧
  (∀ s : State, (s.runDeferred .tempCurrent).thm.host = s.thm.arriving ∧ (s.runDeferred .tempCurrent).thm.current = true ∧
    (s.runDeferred .tempCurrent).thm.age = 0 ∧
    (bitOf s.applied.thermal.ctl 0 = true → s.pw.qual = false →
      (s.runDeferred .tempCurrent).thm.tpan = s.thm.arriving ∧ (s.runDeferred .tempCurrent).thm.source = true) ∧
    (bitOf s.applied.thermal.ctl 0 = false → (s.runDeferred .tempCurrent).thm.tpan = s.thm.tpan))

/-- R245, R348: SYNC arms the barrier of its ring with the timeout that CNV_BARTO holds and the entry's epoch, gates the next entry of its
ring that runs here, and finishes. R246: a second SYNC in place of that entry is a host error. -/
def Obligations.SyncArmsBarrier : Prop :=
  ∀ (s : State) (dt : Nat) (n : RingNo) (f : Fetched) (rest : List Fetched), (s.arrive dt).answering = true →
    (s.arrive dt).rings[n].fetched = f :: rest → (s.arrive dt).chosen n = true → f.runsHere = true → f.entry.op = 5 →
    ((s.arrive dt).rings[n].barrier = none → (s.arrive dt).rings[n].syncNext = false →
      ∃ b x, exec (.sync dt n) s = .next (State.settle b) ∧ b.rings[n].barrier = some x ∧ x.at0 = (s.arrive dt).now ∧
        x.limit = fld (s.arrive dt).cnv.barto 0 24 ∧ x.eload = f.entry.flag ∧ x.epoch.toNat = fld f.entry.w1 0 32 ∧ x.go = none ∧
        b.armed = true ∧ b.rings[n].syncNext = true ∧ b.rings[n].comp = (s.arrive dt).rings[n].compAfter f.index ∧
        b.wild = (s.arrive dt).wild) ∧
    ((s.arrive dt).rings[n].barrier.isSome = true ∨ (s.arrive dt).rings[n].syncNext = true → (s.arrive dt).wild = none →
      ∃ t, exec (.sync dt n) s = .next t ∧ t.wild = some .syncOrder)

/-- R247 and Table 11.3: PARK with the rails off finishes on its admission edge; in ARMED it runs, and PARKING follows on the next edge
with the controlled discharge. R52: an ARMED timeout whose edge admits an update does not park. -/
def Obligations.ParkParks : Prop :=
  (∀ (s : State) (dt : Nat) (n : RingNo) (f : Fetched) (rest : List Fetched), (s.arrive dt).answering = true →
    (s.arrive dt).rings[n].fetched = f :: rest → (s.arrive dt).chosen n = true → (s.arrive dt).rings[n].syncNext = false →
    f.runsHere = true → f.entry.op = 6 →
    ∃ b : State, exec (.park dt n) s = .next b.settle ∧
      ((s.arrive dt).sup.railsUp = false → b.rings[n].work = none ∧
        b.rings[n].comp = (s.arrive dt).rings[n].compAfter f.index ∧ b.rings[n].parkHead = some f.index) ∧
      ((s.arrive dt).sup.railsUp = true → b.rings[n].work = some (f.index, .park) ∧ Deferred.enterParking ∈ b.later)) ∧
  (∀ (s : State) (n : RingNo) (i : BitVec 16), s.pw.busy = false → s.pw.st = .armed → s.sup.phase = .up →
    s.rings[n].work = some (i, .park) →
    (s.runDeferred .enterParking).pw.st = .parking ∧
      (s.runDeferred .enterParking).sup.phase = .discharge s.now s.sup.dac.natAbs 0 ∧ (s.runDeferred .enterParking).drv.frames = none) ∧
  (∀ s : State, s.pw.busy = false → s.anyUpdate = true → (∀ (n : RingNo) (i : BitVec 16), s.rings[n].work ≠ some (i, .park)) →
    s.runDeferred .enterParking = s)

/-- R117, R242: CFG writes its records to the shadow copies in table order and commits the groups that it names from them, on its
admission edge where no set-up write shares it; it runs until those groups have applied. -/
def Obligations.CfgCommits : Prop :=
  ∀ (s : State) (dt : Nat) (n : RingNo) (f : Fetched) (rest : List Fetched) (r : StReg), (s.arrive dt).answering = true →
    (s.arrive dt).rings[n].fetched = f :: rest → (s.arrive dt).chosen n = true → (s.arrive dt).rings[n].syncNext = false →
    f.runsHere = true → f.entry.op = 3 → f.entry.ind = false → recordReg (fld f.entry.w1 0 16) = some r →
    (∀ k, r ≠ .winCfg k) → (s.arrive dt).locked r = false → (s.arrive dt).edge.shadow0 = none → (s.arrive dt).edge.shadowWrites = [] →
    (s.arrive dt).commitsNow = 0 →
    ∃ b : State, exec (.cfg dt n) s = .next b.settle ∧ b.shadow = (s.arrive dt).shadow.put r f.entry.w2 ∧
      b.pend.drive = (if f.entry.groups.getLsbD 0 then some ⟨b.shadow.drive, b.now⟩ else (s.arrive dt).pend.drive) ∧
      b.pend.supply = (if f.entry.groups.getLsbD 1 then some ⟨b.shadow.supply, b.now⟩ else (s.arrive dt).pend.supply) ∧
      b.pend.window = (if f.entry.groups.getLsbD 2 then some ⟨b.shadow.window, b.now⟩ else (s.arrive dt).pend.window) ∧
      b.pend.thermal = (if f.entry.groups.getLsbD 3 then some ⟨b.shadow.thermal, b.now⟩ else (s.arrive dt).pend.thermal) ∧
      b.applied = (s.arrive dt).applied ∧ b.rings[n].work = some (f.index, .cfg f.entry.groups)

/-- R240, R261, R262, R267: UPDATE and CLEAR become the ring's running entry with everything that the admission edge fixes: journaled when
JNL_CTL.enable = 1, gated by a barrier that its ring's SYNC has armed for it (R245), the ganged pairs, the Tpan and the atlas of that edge;
its reads are still to come. -/
def Obligations.UpdateAdmitted : Prop :=
  ∀ (s : State) (dt : Nat) (n : RingNo) (f : Fetched) (rest : List Fetched), (s.arrive dt).answering = true →
    (s.arrive dt).rings[n].fetched = f :: rest → (s.arrive dt).chosen n = true → f.runsHere = true →
    (f.entry.frags f.table).all Frag.trusted = true →
    ∀ c : Bool, f.entry.op = (if c then 2 else 1) →
    ∃ b u, exec (if c then .clear dt n else .update dt n) s = .next (State.settle b) ∧ b.rings[n].work = some (f.index, .update u) ∧
      u.clear = c ∧ u.stage = .reads ∧ u.journaled = bitOf (s.arrive dt).jnl.ctl 0 ∧
      u.gated = ((s.arrive dt).rings[n].syncNext && (s.arrive dt).rings[n].barrier.isSome) ∧
      u.gangs = gangsOf (s.arrive dt).applied.drive.gang ∧
      u.tpan = (s.arrive dt).thm.tpan ∧ u.atlas = (s.arrive dt).applied.drive.atlas ∧ u.force = f.entry.flag ∧
      u.frags = f.entry.frags f.table ∧ b.rings[n].fetched = rest ∧ b.rings[n].syncNext = false ∧ b.wild = (s.arrive dt).wild ∧
      b.applied = (s.arrive dt).applied ∧ b.sup.phase = (s.arrive dt).sup.phase

/-! ### The journal (spec/15) -/

/-- R323, R324, R330 and R39: the intent request opens the next slot for the update, sets the journal-open flag, advances JNL_SEQ by one
modulo 2^24 and JNL_WPOS to the slot after it, and queues the erase where one is due and the intent record, each in the name of its ring and
entry. The conditions are those of R324 and R396; a region that breaks R321 is a host error. R327, R328: a mark is nine bytes whose last is
the XOR of the others with 0xA5, and it reads back as its kind, sequence number and count. -/
def Obligations.IntentOpensSlot : Prop :=
  (∀ (s : State) (dt : Nat) (n : RingNo) (i : BitVec 16) (u : Update), (s.arrive dt).answering = true →
    (s.arrive dt).rings[n].update? = some (i, u) → u.stage = .waitIntent → (s.arrive dt).checking = false →
    (s.arrive dt).pw.busy = false → (s.arrive dt).pw.st ≠ .recovery → (s.arrive dt).pw.st ≠ .shutdown →
    ((s.arrive dt).regionOk = true → (s.arrive dt).slotBlocked (s.arrive dt).nextSlot = false →
      ∃ b o l, exec (.intentWrite dt n) s = .next (State.settle b) ∧ b.jnl.slots = (s.arrive dt).jnl.slots ++ [o] ∧
        o.q = (s.arrive dt).nextSlot ∧ o.seq = (s.arrive dt).jnl.seq ∧ o.ring = n ∧ o.index = i ∧ o.pos = 0 ∧ o.done = 0 ∧
        b.pw.jopen = true ∧ b.jnl.seq = (s.arrive dt).jnl.seq + 1 ∧
        b.jnl.wpos = slotOffset (sectorBytes (s.arrive dt).jnl.ctl)
          ((o.q + 1) % slotsInRegion (sectorBytes (s.arrive dt).jnl.ctl) (regionBytes (s.arrive dt).jnl.size)) ∧
        b.jnl.queue = (s.arrive dt).jnl.queue ++ l ∧ l.length = (if (s.arrive dt).erases && (s.arrive dt).sectorFirst o.q then 2 else 1) ∧
        (∀ a ∈ l, a.write = true ∧ a.prio = 1 ∧ a.slot = o.q ∧ a.ring = n ∧ a.index = i) ∧
        b.rings[n].update? = some (i, { u with slot := some o.q, stage := .intent })) ∧
    ((s.arrive dt).regionOk = false → exec (.intentWrite dt n) s = .next ((s.arrive dt).err .journalRegion).settle)) ∧
  (∀ s : State, s.regionOk = true → ∃ w ∈ s.applied.window.win.toList, w.writable = true ∧ w.hits (fld s.jnl.base 0 32) = true ∧
    fld s.jnl.base 0 32 + regionBytes s.jnl.size - 1 ≤ w.last) ∧
  (∀ (kind : Nat) (seq : BitVec 24) (done : Nat), kind = 6 ∨ kind = 9 ∨ kind = 10 → done < 2 ^ 16 →
    (markBytes kind seq done).length = 9 ∧ parseMark (markBytes kind seq done) = some (kind, seq, done) ∧
    (markBytes kind seq done).getD 8 0 = xorCheck ((markBytes kind seq done).take 8))

/-- R329: of two sequence numbers a is newer than b exactly when (a - b) mod 2^24 lies in 1 to 2^23 - 1. A region has at most 455 slots,
so of two live records of a run of consecutive numbers the later is always the newer. JNL_SEQ wraps from 0xFFFFFF to 0. -/
def Obligations.NewerSequence : Prop :=
  (∀ a b : BitVec 24,
    (newer a b = true ↔ 1 ≤ (a.toNat + 2 ^ 24 - b.toNat) % 2 ^ 24 ∧ (a.toNat + 2 ^ 24 - b.toNat) % 2 ^ 24 ≤ 2 ^ 23 - 1) ∧
    newer a a = false ∧ ¬(newer a b = true ∧ newer b a = true)) ∧
  (∀ ctl size : Word, slotsInRegion (sectorBytes ctl) (regionBytes size) ≤ 455) ∧
  (∀ (a : BitVec 24) (k : Nat), 1 ≤ k → k ≤ 455 → newer (a + BitVec.ofNat 24 k) a = true ∧ newer a (a + BitVec.ofNat 24 k) = false) ∧
  (0xFFFFFF#24 + 1 = 0)

/-- R336: when every replayed slot is closed, and every tombstone of the replay is written, the replay ends; one edge later the engine
leaves RECOVERY for IDLE, and for ARMED on the edge after it where the rails stand, with the cause replay_done, and the gate that has waited
for the replay opens (R78). R271, R336: a complete close mark closes its slot and finishes its update; the last slot's close clears the
journal-open flag (R39); a replayed one counts on CNT_REPLAYS. R78, R334: open slots that a check has found with the gate shut are replayed
in RECOVERY, from which on the engine opens the gate; in which states it can enter RECOVERY for it is the model's choice (log 71). -/
def Obligations.ReplayAndClose : Prop :=
  ((∀ (s : State) (dt : Nat) (r : Replay), (s.arrive dt).answering = true → (s.arrive dt).jnl.replay = some r → r.stage = .close →
    (∀ o ∈ (s.arrive dt).jnl.slots, o.replayed = false ∧ o.wantTomb = false) → Deferred.endRecovery ∉ (s.arrive dt).later →
    exec (.replayEnd dt) s = .next ((s.arrive dt).defer .endRecovery).settle) ∧
  (∀ s : State,
    (s.pw.st = .recovery → (s.runDeferred .endRecovery).pw.st = .idle ∧
      (s.sup.phase = .up → Deferred.enterArmed ∈ (s.runDeferred .endRecovery).later)) ∧
      bitOf (s.runDeferred .endRecovery).cause 8 = true ∧ (s.runDeferred .endRecovery).jnl.replay = none ∧
      (s.jnl.gateAfter = true → (s.runDeferred .endRecovery).jnl.gate = true))) ∧
  (∀ s : State, s.jnl.gateAfter = true → s.pw.jopen = true → s.jnl.scan = none → s.jnl.replay = none → s.pw.busy = false →
    s.pw.st = .idle ∨ s.pw.st = .armed ∨ s.pw.st = .held → s.drv.frames = none → Deferred.enterParking ∉ s.later →
    s.settleCheck.pw.st = .recovery ∧
      ∃ r, s.settleCheck.jnl.replay = some r ∧ r.stage = .run ∧ r.failed = false ∧ s.settleCheck.jnl.gateAfter = true ∧
        r.cur.map (·.q) = s.replayList.head? ∧ r.todo = s.replayList.tail) ∧
  (∀ (s : State) (q : Nat) (o : OpenSlot), s.findSlot q = some o →
    (s.closeDone q).findSlot q = none ∧
    ((∀ x ∈ s.jnl.slots, x.q = q) → (s.closeDone q).pw.jopen = false) ∧
    (s.rings[o.ring].update? = none →
      (s.closeDone q).cnt.replays = (if o.replayed then satAdd 0xFFFF s.cnt.replays 1 else s.cnt.replays)) ∧
    (∀ i u, s.rings[o.ring].update? = some (i, u) → u.slot = some q →
      (s.closeDone q).rings[o.ring].work = none ∧ (s.closeDone q).rings[o.ring].comp = s.rings[o.ring].compAfter i ∧
        (s.closeDone q).cnt.updates = satAdd 0xFFFFFFFFF s.cnt.updates 1))

/-! ### The frame clock (spec/12) -/

/-- R266, R252, R355: frame 1 of a ready update that no barrier gates starts DRIVING; while the frame clock stands its start edge is a
frame start: the epoch and CNT_FRAMES advance and the clock runs from it; an output whose fault bit has been cleared floats no more
(R140). R272: on a start edge of the running clock it joins that frame. R346, R347, R355: 4 hc after the recognition the gated update
starts; the barrier is dropped, and with eload = 1 the epoch takes the SYNC's value in place of the increment. -/
def Obligations.FrameOneStarts : Prop :=
  (∀ (s : State) (dt : Nat) (n : RingNo) (i : BitVec 16) (u : Update), (s.arrive dt).startable n = true →
    (s.arrive dt).rings[n].update? = some (i, u) → u.gated = false →
    ((s.arrive dt).drv.frames = none →
      ∃ b f x, exec (.updateStart dt n) s = .next (State.settle b) ∧ b.pw.st = .driving ∧ b.drv.frames = some f ∧
        f.start = (s.arrive dt).now ∧ f.prev = (s.arrive dt).levelsBefore ∧ b.cnv.epoch = (s.arrive dt).cnv.epoch + 1 ∧
        b.cnt.frames = satAdd 0xFFFFFFFFF (s.arrive dt).cnt.frames 1 ∧ x.frame = 1 ∧ x.sub = 0 ∧
        b.sup.floats = (s.arrive dt).sup.floats &&& (s.arrive dt).sup.fault ∧
        b.rings[n].update? = some (i, { u with stage := .running x })) ∧
    (∀ g : Frames, (s.arrive dt).drv.frames = some g → g.start = (s.arrive dt).now →
      ∃ b f x, exec (.updateStart dt n) s = .next (State.settle b) ∧ b.pw.st = .driving ∧ b.drv.frames = some f ∧
        f.start = (s.arrive dt).now ∧ f.prev = g.prev ∧ b.cnv.epoch = (s.arrive dt).cnv.epoch ∧ b.cnt = (s.arrive dt).cnt ∧
        x.frame = 1 ∧ x.sub = 0 ∧ b.rings[n].update? = some (i, { u with stage := .running x }))) ∧
  (∀ (s w : State) (dt g : Nat) (n : RingNo) (x : Barrier), (s.arrive dt).startable n = true → (s.arrive dt).gated n = true →
    (s.arrive dt).rings[n].barrier = some x → x.go = some g → w = (s.arrive dt).waitUntil (g + 4) → w.startable n = true →
    w.gated n = true → w.drv.frames = none →
    ∃ b : State, exec (.barrierStart dt n) s = .next b.settle ∧ b.pw.st = .driving ∧ b.rings[n].barrier = none ∧ b.gated n = false ∧
      b.drv.frames.map (·.start) = some w.now ∧ g + 4 ≤ b.now ∧
      b.cnv.epoch = (if x.eload then x.epoch else w.cnv.epoch + 1))

/-- R252, R276, R290: on the end edge of a frame SUP_CHARGE takes the frame's charge, saturated at 18 bits, the accumulators take the
contribution of the levels that the frame has by then, and either the next frame starts on this edge, from those levels, or the clock stops
and DRIVING ends in ARMED. R282: the dwell ends and the outputs on VMID go to their levels. R276, R363: an accumulator takes +1 for VPOS,
-1 for VNEG and nothing for another level; at 32,767 or -32,767 it holds. -/
def Obligations.FrameEnds : Prop :=
  (∀ (s w : State) (dt qpos qneg : Nat) (bad : BitVec 292) (vmid : Bool) (f g : Frames), (s.arrive dt).answering = true →
    (s.arrive dt).drv.frames = some g → w = (s.arrive dt).waitUntil (g.start + g.len) → w.drv.frames = some f →
    ∃ b : State, exec (.frameEnd dt qpos qneg bad vmid) s = .next b.settle ∧ g.start + g.len ≤ b.now ∧
      b.sup.qpos.toNat = min 262143 qpos ∧ b.sup.qneg.toNat = min 262143 qneg ∧ b.sup.vmid = vmid ∧
      b.drv.dcb = (if bitOf w.applied.drive.ctl 0 && !w.edge.dcbCleared then w.drv.dcb.mapIdx (fun n a => dcbAdd a (f.target.getD n .vcom))
        else w.drv.dcb) ∧
      ((b.drv.frames = none ∧ b.drv.stopped = w.now ∧ b.drv.last = f.target ∧ (w.pw.st = .driving → b.pw.st = .armed ∧ b.pw.armed0 = w.now)) ∨
        ∃ h, b.drv.frames = some h ∧ h.start = w.now ∧ h.prev = f.target ∧ b.cnv.epoch = w.cnv.epoch + 1)) ∧
  (∀ (s : State) (dt : Nat) (f : Frames), (s.arrive dt).answering = true → (s.arrive dt).drv.frames = some f → f.dwell ≠ [] →
    f.dwell0 + f.dwellLen ≤ (s.arrive dt).now →
    exec (.dwellEnd dt) s = .next ((s.arrive dt).onDrv fun d => { d with frames := some { f with dwell := [] } }).settle) ∧
  (∀ a : BitVec 16, -32767 < a.toInt → a.toInt < 32767 →
    (dcbAdd a .vpos).toInt = a.toInt + 1 ∧ (dcbAdd a .vneg).toInt = a.toInt - 1 ∧
    dcbAdd a .vcom = a ∧ dcbAdd a .float = a ∧ dcbAdd a .vmid = a) ∧
  (∀ (a : BitVec 16) (l : Level), a.toInt = 32767 ∨ a.toInt = -32767 → dcbAdd a l = a)

/-- R297, R299: where a waveform frame that ends completes a phase of a lead waveform, every output that the level comparators show off its
level faults, unless it is on VMID or floats; its log entry has detail 2. A check that falls into foldback, or is the first after it, finds
nothing. R298: what is not found, nor the partner of one found in a declared pair, keeps its bit. R140: the start of the phase that
follows, and no other edge of a frame end, releases the outputs whose fault bits have been cleared. -/
def Obligations.LevelCheck : Prop :=
  (∀ (s t : State) (f : Frames) (bad : BitVec 292), t = s.phaseBoundary f bad →
    (s.sup.noCheck = true → t.sup.fault = s.sup.fault ∧ t.log = s.log ∧ t.sup.noCheck = s.sup.foldback) ∧
    (s.sup.noCheck = false →
      (∀ m : OutNo, bad.getLsbD m.val = true → m ∉ f.dwell → f.target.getD m.val .vcom ≠ .float → t.sup.fault.getLsbD m.val = true ∧
        (∀ p, s.partner m = some p → s.sup.fault.getLsbD m.val = false → t.sup.fault.getLsbD p.val = true) ∧
        (s.sup.fault.getLsbD m.val = false → bitOf t.cause 4 = true ∧ Deferred.floatFaulted ∈ t.later) ∧
        (bad = outBit m → s.sup.fault.getLsbD m.val = false → s.partner m = none → t = (s.markFault m).log_ 0x20 2 0 m.val)) ∧
      (∀ k : OutNo, (∀ m : OutNo, m = k ∨ s.partner m = some k →
          bad.getLsbD m.val = false ∨ m ∈ f.dwell ∨ f.target.getD m.val .vcom = .float) →
        t.sup.fault.getLsbD k.val = s.sup.fault.getLsbD k.val))) ∧
  (∀ (s w : State) (dt qpos qneg : Nat) (bad : BitVec 292) (vmid : Bool) (f g : Frames), (s.arrive dt).answering = true →
    (s.arrive dt).drv.frames = some g → w = (s.arrive dt).waitUntil (g.start + g.len) → w.drv.frames = some f →
    ∃ b : State, exec (.frameEnd dt qpos qneg bad vmid) s = .next b.settle ∧
      (w.runners.any Runner.boundary = false → b.sup.fault = w.sup.fault ∧ b.sup.noCheck = w.sup.noCheck) ∧
      (w.runners.any Runner.boundary = true → w.sup.noCheck = false → ∀ m : OutNo, bad.getLsbD m.val = true → m ∉ f.dwell →
        f.target.getD m.val .vcom ≠ .float → b.sup.fault.getLsbD m.val = true ∧
        (w.sup.fault.getLsbD m.val = false → bitOf b.cause 4 = true ∧ Deferred.floatFaulted ∈ b.later)) ∧
      b.sup.floats = (if w.runners.any Runner.phaseStarts then w.sup.floats &&& b.sup.fault else w.sup.floats))

/-! ### Outputs and rails (spec/13, Table 2.4) -/

/-- R296, R299: an output that has been in limit for 512 hc counts in SUP_STATUS.limited with the rails' status as sensed; above 16 the
rail current folds back with its cause and a log entry that names the count; an output that leaves limit no longer counts, and at 8
foldback ends. R297, R298: an output limited for 2,048 hc faults: its SUP_FAULT bit and out_fault are set, CNT_OUTFAULT counts it, it is
logged, with detail 3 where an output that it is tied to comes to the same condition (Table 13.3) and detail 1 otherwise, and it floats from
the next edge; of a declared pair both outputs fault; in a pair contention both do too, with one entry. A faulted output stays counted as
limited until it floats, and leaves the count on the edge after (R296). -/
def Obligations.OutputProtection : Prop :=
  ((∀ (s : State) (dt held : Nat) (m : OutNo) (sink : Bool) (ok : BitVec 3), (s.arrive dt).senses = true → 512 ≤ held →
    (s.arrive dt).sensed m = true → (∀ l ∈ (s.arrive dt).sup.limited, l.out ≠ m) → (s.arrive dt).changeDone m ≤ (s.arrive dt).now →
    ∃ b : State, exec (.outputLimited dt m held sink ok) s = .next b.settle ∧
      b.sup.limited = (s.arrive dt).sup.limited ++ [⟨m, (s.arrive dt).now - held, (s.arrive dt).now, sink, false⟩] ∧
      b.sup.vposOk = ok.getLsbD 0 ∧ b.sup.vnegOk = ok.getLsbD 1 ∧ b.sup.vcomOk = ok.getLsbD 2 ∧
      (16 < b.sup.limited.length → b.sup.foldback = true) ∧
      ((s.arrive dt).sup.foldback = false → 16 < b.sup.limited.length → bitOf b.cause 5 = true ∧ b.sup.noCheck = true ∧
        ((s.arrive dt).log.length < 16 →
          ∃ e, b.log = (s.arrive dt).log ++ [e] ∧ fld e.a 0 8 = 0x21 ∧ fld e.a 8 8 = min 255 b.sup.limited.length))) ∧
  (∀ (s : State) (dt : Nat) (m : OutNo) (ok : BitVec 3), (s.arrive dt).answering = true →
    (∃ l ∈ (s.arrive dt).sup.limited, l.out = m) →
    ∃ b : State, exec (.outputLimitRelease dt m ok) s = .next b.settle ∧
      b.sup.limited = (s.arrive dt).sup.limited.filter (fun l => decide (l.out ≠ m)) ∧ b.sup.vposOk = ok.getLsbD 0 ∧
      b.sup.foldback = ((s.arrive dt).sup.foldback && decide (8 < b.sup.limited.length)))) ∧
  ((∀ (s w : State) (dt : Nat) (m : OutNo) (both : Bool) (l : Lim), (s.arrive dt).senses = true →
    (s.arrive dt).sup.limited.find? (fun x => x.out == m) = some l → w = (s.arrive dt).waitUntil (l.since + 2048) →
    (∃ z ∈ w.sup.limited, z.out = m) → w.sup.fault.getLsbD m.val = false →
    ∃ b : State, exec (.outputFault dt ⟨m, both⟩) s = .next b.settle ∧ b.sup.fault.getLsbD m.val = true ∧ bitOf b.cause 4 = true ∧
      l.since + 2048 ≤ b.now ∧ Deferred.floatFaulted ∈ b.later ∧ b.sup.limited.map (·.out) = w.sup.limited.map (·.out) ∧
      (w.log.length < 16 → ∃ e, b.log[w.log.length]? = some e ∧ fld e.a 0 8 = 0x20 ∧ fld e.a 18 16 = m.val ∧
        (l.tied = true ∨ (∃ z ∈ w.sup.limited, w.tied l z = true ∧ (both = true ∨ z.since + 2048 ≤ w.now)) → fld e.a 8 8 = 3) ∧
        (l.tied = false → (∀ z ∈ w.sup.limited, w.tied l z = true → both = false ∧ w.now < z.since + 2048) → fld e.a 8 8 = 1)) ∧
      (∀ z ∈ w.sup.limited, w.tied l z = true → { z with tied := true } ∈ b.sup.limited) ∧
      (w.partner m = none → b.cnt.outFault = satAdd 0xFFFF w.cnt.outFault 1) ∧
      (∀ p, w.partner m = some p → b.sup.fault.getLsbD p.val = true ∧
        (p ≠ m → w.sup.fault.getLsbD p.val = false → b.cnt.outFault = satAdd 0xFFFF (satAdd 0xFFFF w.cnt.outFault 1) 1))) ∧
  (∀ (s : State) (dt : Nat) (p : Fin 144), (s.arrive dt).senses = true →
    ((s.arrive dt).gangsAt (2 * p.val)).getLsbD p.val = true → (s.arrive dt).sup.fault.getLsbD (2 * p.val) = false →
    (s.arrive dt).sup.fault.getLsbD (2 * p.val + 1) = false →
    ∃ b : State, exec (.pairContention dt p) s = .next b.settle ∧ b.sup.fault.getLsbD (2 * p.val) = true ∧
      b.sup.fault.getLsbD (2 * p.val + 1) = true ∧ bitOf b.cause 4 = true ∧ Deferred.floatFaulted ∈ b.later ∧
      b.cnt.outFault = satAdd 0xFFFF (satAdd 0xFFFF (s.arrive dt).cnt.outFault 1) 1 ∧ b.sup.limited = (s.arrive dt).sup.limited ∧
      ((s.arrive dt).log.length < 16 →
        ∃ e, b.log = (s.arrive dt).log ++ [e] ∧ fld e.a 0 8 = 0x22 ∧ fld e.a 18 16 = p.val) ∧
      (∀ k, k ≠ 2 * p.val → k ≠ 2 * p.val + 1 → b.sup.fault.getLsbD k = (s.arrive dt).sup.fault.getLsbD k)) ∧
  (∀ (s : State) (k : Nat), k < 292 →
    (s.runDeferred .floatFaulted).sup.floats.getLsbD k = (s.sup.floats.getLsbD k || s.sup.fault.getLsbD k)) ∧
  (∀ s : State, (s.runDeferred .floatFaulted).sup.limited = s.sup.limited ∧
    (s.sup.limited ≠ [] → Deferred.dropLimited ∈ (s.runDeferred .floatFaulted).later) ∧
    (s.runDeferred .dropLimited).sup.limited = s.sup.limited.filter fun l => s.sensed l.out))

/-- R286: sequencing begins while the rails are off, needed and free to start, and rails_up reads 1 from its edge; 16 hc later the ramp
begins with its targets at 0 V, its bound c the larger of the codes then in effect. The VCOM DAC moves one step toward its set-point every
8 hc, the VPOS and VNEG targets one step each every 128 hc, each no further than its set-point. That the set-points are taken on the
sequencing edge, and what the status bits read where the ramp begins, 0 for VPOS and VNEG and for VCOM whether its set-point lies within
20 mV (R285), is the model's reading (log 23). -/
def Obligations.SequencingAndRamp : Prop :=
  ((∀ (s : State) (dt : Nat), (s.arrive dt).maySequence = true →
    ∃ b : State, exec (.sequencingStart dt) s = .next b.settle ∧ b.sup.railsUp = true ∧
      b.sup.phase = .sequencing (s.arrive dt).now ∧ (b.sup.vpos, b.sup.vneg, b.sup.vcom) = b.railTargets) ∧
  (∀ (s w : State) (dt k : Nat), (s.arrive dt).answering = true → (s.arrive dt).sup.phase = .sequencing k →
    w = (s.arrive dt).waitUntil (k + 16) → w.sup.phase = .sequencing k → Deferred.dropSequencing ∉ w.later →
    ∃ b : State, exec (.rampStart dt) s = .next b.settle ∧ k + 16 ≤ b.now ∧
      b.sup.phase = .ramp w.now (max w.railTargets.1 w.railTargets.2.1) ∧ b.sup.tpos = 0 ∧ b.sup.tneg = 0 ∧ b.sup.dac = 0 ∧
      b.sup.started = false ∧ b.sup.vposOk = false ∧ b.sup.vnegOk = false ∧ b.sup.vcomOk = decide (w.sup.vcom.natAbs ≤ 4))) ∧
  (∀ (s : State) (dt : Nat) (ok : BitVec 3), (s.arrive dt).answering = true → (s.arrive dt).sup.ramps = true →
    ((s.arrive dt).sup.dac ≠ (s.arrive dt).sup.vcom →
      ∀ w : State, w = (s.arrive dt).waitUntil ((s.arrive dt).sup.dac0 + 8) → w.sup.ramps = true →
      ∃ b : State, exec (.rampStep dt true ok) s = .next b.settle ∧
        (s.arrive dt).sup.dac0 + 8 ≤ b.now ∧ b.sup.dac0 = b.now ∧ b.sup.dac = towardZ w.sup.dac w.sup.vcom ∧
        b.sup.tpos = w.sup.tpos ∧ b.sup.tneg = w.sup.tneg ∧ (w.sup.phase = .up ∨ ok ≠ 7 → b.sup.vcomOk = ok.getLsbD 2)) ∧
    ((s.arrive dt).sup.tpos < 160 + (s.arrive dt).sup.vpos ∨ (s.arrive dt).sup.tneg < 160 + (s.arrive dt).sup.vneg →
      ∀ w : State, w = (s.arrive dt).waitUntil ((s.arrive dt).sup.rail0 + 128) → w.sup.ramps = true →
      ∃ b : State, exec (.rampStep dt false ok) s = .next b.settle ∧
        (s.arrive dt).sup.rail0 + 128 ≤ b.now ∧ b.sup.rail0 = b.now ∧ b.sup.tpos = min (w.sup.tpos + 1) (160 + w.sup.vpos) ∧
        b.sup.tneg = min (w.sup.tneg + 1) (160 + w.sup.vneg) ∧ b.sup.dac = w.sup.dac ∧
        (w.sup.phase = .up ∨ ok ≠ 7 → b.sup.vposOk = ok.getLsbD 0 ∧ b.sup.vnegOk = ok.getLsbD 1)))

/-- R288: with the rails up each set-point moves one step toward its value every 64 (slew + 1) hc, all three together, and the status bits
compare the rails with the moved set-points: in regulation, in a ramp and in steps 1 and 2 of a controlled discharge (R294). The codes of a
committed supply group are taken from the edge after its commit on, and its bit of ID_CFG_PENDING clears with the last step. That the
command reports the bits alone where every set-point has its value, and leaves it to RAILS_IN_REGULATION to report all three at once within a
ramp, is the model's form (log 23). R139: outside a replay the set-points are the applied codes after the clamps of Table 7.16, limited by
SUP_VLIM: VPOS and VNEG from above, VCOM on both sides. -/
def Obligations.SlewAndLimits : Prop :=
  (∀ (s : State) (dt : Nat) (ok : BitVec 3), (s.arrive dt).answering = true → (s.arrive dt).sup.railsUp = true →
    (s.arrive dt).sup.switching = true →
    ((s.arrive dt).settled = true → exec (.setPointSlewStep dt ok) s = .next ((s.arrive dt).sense ok).settle) ∧
    (∀ w : State, (s.arrive dt).settled = false →
      w = (s.arrive dt).waitUntil ((s.arrive dt).sup.slew0 + slewStep (s.arrive dt).applied.supply.conv) →
      w.sup.railsUp = true → w.sup.switching = true →
      ∃ b : State, exec (.setPointSlewStep dt ok) s = .next b.settle ∧
        (s.arrive dt).sup.slew0 + slewStep (s.arrive dt).applied.supply.conv ≤ b.now ∧
        b.sup.vpos = towardN w.sup.vpos w.railTargets.1 ∧ b.sup.vneg = towardN w.sup.vneg w.railTargets.2.1 ∧
        b.sup.vcom = towardZ w.sup.vcom w.railTargets.2.2 ∧
        (w.sup.phase = .up ∨ (∃ p n j, w.sup.phase = .discharge p n j) ∨ ok ≠ 7 →
          b.sup.vposOk = ok.getLsbD 0 ∧ b.sup.vnegOk = ok.getLsbD 1 ∧ b.sup.vcomOk = ok.getLsbD 2) ∧
        ((∀ p, w.pend.supply = some p → w.now ≠ p.at0 + 1) → b.sup.slew0 = b.now) ∧
        (∀ p, w.pend.supply = some p → p.at0 < w.now → b.applied.supply = p.val ∧
          b.pend.supply = (if b.settled then none else some p)))) ∧
  (∀ s : State, s.jnl.replay = none →
    s.railTargets.1 = min (min (fld s.applied.supply.vpos 0 9) 160) (fld s.sup.vlim 0 9) ∧
    s.railTargets.2.1 = min (min (fld s.applied.supply.vneg 0 9) 160) (fld s.sup.vlim 9 9) ∧
    s.railTargets.2.2.natAbs ≤ fld s.sup.vlim 18 9 ∧ s.railTargets.2.2.natAbs ≤ 500 ∧
    (∀ x : Int, x = (BitVec.ofNat 10 (fld s.applied.supply.vcom 0 10)).toInt → x.natAbs ≤ fld s.sup.vlim 18 9 → x.natAbs ≤ 500 →
      s.railTargets.2.2 = x))

/-- R286 and Table 2.4: with the rails in regulation the ramp is over, and IDLE or HELD becomes ARMED on the next edge; that the same
command reports rails that come back into regulation later is the model's form (R285, R299; log 23). Table 2.4: PARKING ends 16 hc after the
rails are off; ARMED that has timed out parks on the next edge; HELD ends on the next edge when nothing waits for the temperature. -/
def Obligations.StatesOfTheRails : Prop :=
  ((∀ (s : State) (dt : Nat), (s.arrive dt).answering = true →
    (∀ k c, (s.arrive dt).sup.phase = .ramp k c →
      ∃ b : State, exec (.railsInRegulation dt) s = .next b.settle ∧ b.sup.phase = .up ∧ b.sup.regulated = true ∧
        Deferred.enterArmed ∈ b.later) ∧
    ((s.arrive dt).sup.phase = .up → exec (.railsInRegulation dt) s = .next ((s.arrive dt).senseOk 7).settle ∧
      ((s.arrive dt).senseOk 7).sup.regulated = true)) ∧
  (∀ s : State, s.sup.phase = .up → s.pw.st = .idle ∨ s.pw.st = .held →
    (s.runDeferred .enterArmed).pw.st = .armed ∧ (s.runDeferred .enterArmed).pw.armed0 = s.now)) ∧
  ((∀ (s w : State) (dt : Nat), (s.arrive dt).answering = true → (s.arrive dt).pw.st = .parking → (s.arrive dt).sup.phase = .off →
    (s.arrive dt).pw.busy = false → w = (s.arrive dt).waitUntil ((s.arrive dt).pw.off0 + 16) → w.pw.busy = false →
    ∃ b : State, exec (.parkingExit dt) s = .next b.settle ∧ b.pw.st = .idle ∧ (s.arrive dt).pw.off0 + 16 ≤ b.now) ∧
  (∀ (s w : State) (dt : Nat), (s.arrive dt).answering = true → (s.arrive dt).pw.st = .armed → (s.arrive dt).anyUpdate = false →
    (s.arrive dt).armto ≠ 0 → Deferred.enterParking ∉ (s.arrive dt).later →
    w = (s.arrive dt).waitUntil ((s.arrive dt).pw.armed0 + 65536 * (s.arrive dt).armto) → w.pw.st = .armed → w.armto ≠ 0 →
    w.pw.armed0 + 65536 * w.armto ≤ w.now →
    exec (.armedTimeout dt) s = .next (w.defer .enterParking).settle ∧
      (s.arrive dt).pw.armed0 + 65536 * (s.arrive dt).armto ≤ w.now) ∧
  (∀ (s : State) (dt : Nat), (s.arrive dt).answering = true → (s.arrive dt).pw.st = .held → (s.arrive dt).heldFlag = false →
    (s.arrive dt).readsPending = false → (s.arrive dt).needed = false → Deferred.leaveHeld ∉ (s.arrive dt).later →
    (∀ n, (s.arrive dt).admissible n = false) →
    exec (.heldExit dt) s = .next ((s.arrive dt).defer .leaveHeld).settle) ∧
  (∀ s : State, s.pw.st = .held → (s.runDeferred .leaveHeld).pw.st = .idle))

/-- R287: a ramp that has not reached regulation within 2 (128 (160 + c) + 2,048) hc ends: the cause ramp_fail, a controlled discharge,
and no pre-ramp until an update is admitted; every update that waits for the rails is discarded and its ring stops. In a replay the
timeout ends it as a failed read does: the gate stays closed with scan_fail set (R337). -/
def Obligations.RampTimesOut : Prop :=
  ∀ (s w : State) (dt k c : Nat) (ok : BitVec 3), (s.arrive dt).answering = true → (s.arrive dt).sup.phase = .ramp k c →
    w = (s.arrive dt).waitUntil (k + 2 * (128 * (160 + c) + 2048)) → w.sup.phase = .ramp k c →
    ∃ b : State, exec (.rampTimeout dt ok) s = .next b.settle ∧ k + 2 * (128 * (160 + c) + 2048) ≤ b.now ∧ bitOf b.cause 26 = true ∧
      b.sup.noPreRamp = true ∧ b.sup.phase = .discharge b.now w.sup.dac.natAbs 0 ∧ b.drv.frames = none ∧
      (∀ n : RingNo, w.rings[n].waitsForRails = true → b.rings[n].work = none ∧ bitOf b.cause (20 + n.val) = true) ∧
      (w.jnl.replay.isSome = true → b.jnl.gate = false ∧ b.jnl.scanFail = true ∧ b.jnl.replay.map (·.failed) = some true)

/-- R294: a controlled discharge moves VCOM one step toward 0 V on the edges P + 1 + 8j, then stops switching on P + 2 + 8n and leaves the
rails to bleed; the status bits of bleeding rails are free (log 10). R294 step 4, R293 and Table 2.4: when both rails are within 0.5 V of
ground, rails_up reads 0 and the outputs are at the VCOM node; a PARK that has waited for it finishes, and ARMED ends in IDLE where no
update is held: at once where HCK runs, on the next edge where it stands (R25). -/
def Obligations.Discharge : Prop :=
  (∀ (s w : State) (dt p n j : Nat), (s.arrive dt).answering = true → (s.arrive dt).sup.phase = .discharge p n j →
    (j < n → w = (s.arrive dt).waitUntil (p + 1 + 8 * (j + 1)) →
      ∃ b : State, exec (.dischargeVcomStep dt) s = .next b.settle ∧ b.sup.phase = .discharge p n (j + 1) ∧
        b.sup.dac = towardZ w.sup.dac 0 ∧ p + 1 + 8 * (j + 1) ≤ b.now) ∧
    (n ≤ j →
      ∃ b : State, exec (.dischargeVcomStep dt) s = .next b.settle ∧ b.sup.phase = .bleed ∧ b.sup.tpos = 0 ∧ b.sup.tneg = 0 ∧
        b.sup.limited = [] ∧ b.sup.switching = false ∧ p + 2 + 8 * n ≤ b.now)) ∧
  (∀ (s : State) (dt : Nat), (s.arrive dt).sup.phase = .bleed ∨ (s.arrive dt).sup.phase = .fast →
    ∃ b : State, exec (.dischargeEnd dt) s = .next b.settle ∧ b.sup.railsUp = false ∧ b.sup.phase = .off ∧ b.sup.regulated = false ∧
      b.sup.limited = [] ∧
      ((s.arrive dt).ticking = true → b.pw.off0 = b.now ∧
        (∀ (n : RingNo) (i : BitVec 16), (s.arrive dt).rings[n].work = some (i, .park) →
          b.rings[n].work = none ∧ b.rings[n].comp = (s.arrive dt).rings[n].compAfter i ∧ b.rings[n].parkHead = some i) ∧
        ((s.arrive dt).pw.st = .armed → (s.arrive dt).sup.toHeld = false → b.pw.st = .idle) ∧
        ((s.arrive dt).pw.st = .parking ∨ (s.arrive dt).pw.st = .shutdown ∨ (s.arrive dt).pw.st = .dormant →
          b.pw.st = (s.arrive dt).pw.st)) ∧
      ((s.arrive dt).ticking = false → b.pw = (s.arrive dt).pw ∧ b.rings = (s.arrive dt).rings ∧ b.pend = (s.arrive dt).pend ∧
        Deferred.railsEnd ∈ b.later)) ∧
  (∀ (s : State) (n : RingNo) (i : BitVec 16), s.rings[n].work = some (i, .park) →
    (s.runDeferred .railsEnd).pw.off0 = s.now ∧ (s.runDeferred .railsEnd).rings[n].work = none ∧
      (s.runDeferred .railsEnd).rings[n].parkHead = some i)

/-- R291, R141: energy is counted in whole microjoules with the remainder kept; the logic's share of an edge is counted from edge 1 of a
clocking on (Table 2.2); SUP_ENERGY and SUP_ENERGY_WRAP advance on one edge when SUP_ENERGY wraps, with the cause energy_wrap; a value
written to SUP_ENERGY receives that edge's increment, and where the sum passes the top it wraps in the same way (R119). That the
converter's share comes with commands is the model's form (log 8). -/
def Obligations.EnergyAccumulates : Prop :=
  (∀ (s : State) (dt pj : Nat), (s.arrive dt).ticking = true → (s.arrive dt).pw.st ≠ .dormant →
    exec (.energyWrap dt pj) s = .next ((s.arrive dt).addEnergy pj).settle) ∧
  (∀ s : State, s.drawLogic = s.addEnergy Config.logicEnergy) ∧
  (∀ (s : State) (pj : Nat),
    (s.addEnergy pj).sup.energyRem + 1000000 * ((s.addEnergy pj).sup.energy.toNat + 2 ^ 36 *
        ((s.sup.energy.toNat + (s.sup.energyRem + pj) / 1000000) / 2 ^ 36)) =
      s.sup.energyRem + 1000000 * s.sup.energy.toNat + pj ∧
    (s.addEnergy pj).sup.energyRem = (s.sup.energyRem + pj) % 1000000 ∧
    (s.addEnergy pj).edge.energy = s.edge.energy + (s.sup.energyRem + pj) / 1000000 ∧
    (2 ^ 36 ≤ s.sup.energy.toNat + (s.sup.energyRem + pj) / 1000000 → bitOf (s.addEnergy pj).cause 15 = true ∧
      (s.addEnergy pj).sup.wraps = satAdd 0xFF s.sup.wraps ((s.sup.energy.toNat + (s.sup.energyRem + pj) / 1000000) / 2 ^ 36))) ∧
  (∀ (s : State) (v : Word), (s.writeReg .energy v).sup.energy = v + BitVec.ofNat 36 s.edge.energy ∧
    (2 ^ 36 ≤ v.toNat + s.edge.energy → bitOf (s.writeReg .energy v).cause 15 = true ∧
      (s.writeReg .energy v).sup.wraps = satAdd 0xFF (s.edge.wraps0.getD s.sup.wraps) ((v.toNat + s.edge.energy) / 2 ^ 36)))

/-- R75, R295, R318, Table 2.9, rows 3 and 4: a clock loss, a trip and VIN undervoltage discharge the rails at once, whatever they are doing
once the ramp has begun: in the ramp, in regulation, and in every step of a controlled discharge. The frame clock stops, the converter stops
switching, no output counts as limited and no rail reads as in regulation; rails_up stays 1 until the rails are off. A sequencing has
switched nothing and just ends (R286). -/
def Obligations.ImmediateDischarge : Prop :=
  ∀ (s w : State) (dt : Nat) (c : Instr), w.heldInReset = false →
    (c = .clockLoss dt ∧ w = (s.arrive dt).closeEdge ∧ w.pw.hck = true) ∨ (c = .shutdownTrip dt ∧ w = s.arrive dt ∧ w.pw.sd = false) ∨
      (c = .uvloAssert dt ∧ w = s.arrive dt ∧ w.pw.uvlo = false) →
    ∃ b : State, exec c s = .next b.settle ∧
      (w.sup.rampBegun = true → b.sup.phase = .fast ∧ b.sup.railsUp = true ∧ b.sup.switching = false ∧ b.sup.limited = [] ∧
        b.sup.foldback = false ∧ b.sup.regulated = false ∧ b.drv.frames = none ∧ b.sup.toHeld = false) ∧
      (∀ k, w.sup.railsUp = true → w.sup.phase = .sequencing k → c ≠ .uvloAssert dt → b.sup.phase = .off ∧ b.sup.railsUp = false)

/-! ### Temperature (spec/14) -/

/-- R304, R306 to R312: a result edge comes 65,536 hc after its window began, sets THM_TDIE to the mean rounded to 0.125 degC and begins
the next window; the modelled rise follows the window's energy at the set-points that were in effect (R307); warn and throttle follow Tdie
with their hysteresis; without a current TEMP value Tpan is Tdie less the modelled rise. R304: the reading is the mean to the nearest
0.125 degC, a mean halfway between two of them to the higher, held within -55 degC and 175 degC. -/
def Obligations.ConversionResults : Prop :=
  (∀ (s w : State) (dt pj : Nat) (mean : Int) (charge : List (Nat × Int × Int)), (s.arrive dt).answering = true →
    w = (s.arrive dt).waitUntil ((s.arrive dt).thm.window0 + 65536) → w.pend.thermal = none →
    ∃ b : State, exec (.conversionResult dt mean charge pj) s = .next b.settle ∧ b.thm.window0 = b.now ∧
      (s.arrive dt).thm.window0 + 65536 ≤ b.now ∧ b.thm.valid = true ∧ b.thm.tdie = convert mean ∧
      b.thm.rise = nextRise w.applied.thermal.model (periodEnergy w.thm.points w.thm.window0 charge) w.thm.rise ∧
      b.thm.warn = overT w.thm.warn (tempInt (convert mean)) (warnT w.applied.thermal.warn) (hyst w.applied.thermal.warn) ∧
      b.thm.throttle = overT w.thm.throttle (tempInt (convert mean)) (throtT w.applied.thermal.throt) (hyst w.applied.thermal.throt) ∧
      (b.thm.wrangeOut = !inRange w.applied.thermal.wrange b.thm.tpan) ∧
      (w.thm.warn = false → b.thm.warn = true → bitOf b.cause 9 = true) ∧
      (w.thm.throttle = false → b.thm.throttle = true → bitOf b.cause 10 = true) ∧
      (bitOf w.applied.thermal.ctl 0 = false → b.thm.source = false ∧ b.thm.tpan = modelTpan b.thm.tdie b.thm.rise)) ∧
  (∀ mean : Int, (-550000 ≤ mean → mean ≤ 1750000 → 2 * (tempInt (convert mean) * 1250 - mean) ≤ 1250 ∧
      -1250 < 2 * (tempInt (convert mean) * 1250 - mean)) ∧
    (mean < -550000 → tempInt (convert mean) = -440) ∧ (1750000 < mean → tempInt (convert mean) = 1400))

/-! ### Convoys (spec/16) -/

/-- R345, R346: BAR_N high is recognised on the 17th edge at the earliest, unless the engine itself holds it low, and lasts until the line
is sampled low, which restarts the run; the armed barriers of an engine that is ready take that edge as their recognition. That the run counts
from the latest of the engine's own release, the clocking's first edge and the last edge sampled low is the model's reading (log 18). R348:
with a timeout n other than 0, a barrier that has been armed for 256 n hc without recognition is dropped; its update is then gated no more
and its epoch is not loaded. With n = 0 it waits on. Table 16.1, rows 3 to 6: an armed engine that is not ready holds BAR_N low and awaits a
new recognition; a ready one lets it go; with vote = 0 and no barrier the line is free; a casting engine releases it and has voted; one with
work holds it low, which withdraws its vote (R357, R358). -/
def Obligations.BarrierLine : Prop :=
  (∀ (s w : State) (dt : Nat), (s.arrive dt).answering = true → (s.arrive dt).cnv.drv = false →
    w = (s.arrive dt).waitUntil (max (max (s.arrive dt).cnv.rel (s.arrive dt).pw.clk0) (s.arrive dt).cnv.lowAt + 17) →
    w.answering = true → w.cnv.drv = false →
    ∃ b : State, exec (.barNRecognised ⟨dt, true⟩) s = .next b.settle ∧ b.cnv.high = true ∧
      (s.arrive dt).cnv.rel + 17 ≤ b.now ∧ (s.arrive dt).pw.clk0 + 17 ≤ b.now ∧ (s.arrive dt).cnv.lowAt + 17 ≤ b.now ∧
      (∀ (n : RingNo) (x : Barrier), w.rings[n].barrier = some x → x.go = none → w.allReady = true →
        b.rings[n].barrier = some { x with go := some w.now }) ∧
      (w.allReady = false → b.rings = w.rings)) ∧
  (∀ (s : State) (dt : Nat), (s.arrive dt).ticking = true →
    exec (.barNRecognised ⟨dt, false⟩) s = .next ((s.arrive dt).onCnv fun c => { c with high := false, lowAt := (s.arrive dt).now }).settle) ∧
  (∀ (s : State) (dt : Nat) (n : RingNo) (x : Barrier), (s.arrive dt).answering = true → (s.arrive dt).rings[n].barrier = some x →
    (∀ w : State, x.limit ≠ 0 → x.go = none → w = (s.arrive dt).waitUntil (x.at0 + 256 * x.limit) → w.rings[n].barrier = some x →
      ∃ b : State, exec (.barrierTimeout dt n) s = .next b.settle ∧ b.rings[n].barrier = none ∧ b.gated n = false ∧
        x.at0 + 256 * x.limit ≤ b.now ∧ b.cnv.epoch = w.cnv.epoch) ∧
    (x.limit = 0 → exec (.barrierTimeout dt n) s = .next (s.arrive dt).settle)) ∧
  (∀ s : State, s.heldInReset = false → s.pw.busy = false → s.pw.qual = false → s.pw.st ≠ .dormant →
    (s.armed = true → s.allReady = false → s.settleBar.cnv.drv = true ∧
      ∀ (n : RingNo) (x : Barrier), s.settleBar.rings[n].barrier = some x → x.go = none) ∧
    (s.armed = true → s.allReady = true → s.settleBar.cnv.drv = false) ∧
    (s.armed = false → s.vote = false → s.settleBar.cnv.drv = false) ∧
    (s.armed = false → s.vote = true → s.casting = true → s.settleBar.cnv.drv = false ∧ s.settleBar.cnv.voted = true) ∧
    (s.armed = false → s.vote = true → s.casting = false → s.hasWork = true → s.settleBar.cnv.drv = true ∧
      s.settleBar.cnv.voted = false ∧ (s.cnv.voted = true → s.settleBar.cnv.wake = true ∧ bitOf s.settleBar.cause 24 = true ∧
        s.settleBar.cnt.wake = satAdd 0xFFFF s.cnt.wake 1)))

/-! ### The test access port (spec/18) -/

/-- R368 to R372: outside power-on reset, where TMS leads the controller to Update-IR, the instruction register takes what the shift stage
holds, the opcode of the row; Test-Logic-Reset holds IDCODE, and five edges with TMS high reach it from every state. An instruction that is
no test-mode instruction leaves a running core alone; a test-mode one holds it in reset with ID_TILE_ID and the locks kept, and the core
starts as after RSTN when another one follows. R370: every opcode that Table 18.1 does not list selects the bypass register, as BYPASS does.
Table 18.2: HIGHZ lets every output, logic pin and VCOM float; EXTEST and CLAMP put the boundary register on the pins. That a command
carries the way of TMS since the one before, and that with another opcode in the shift stage, or another way of TMS, it loads nothing, is
the model's choice (log 37). -/
def Obligations.TapInstructions : Prop :=
  (∀ (s : State) (dt : Nat) (tms : List Bool) (op : BitVec 4) (c : Instr), (s.arrive dt).pw.por = false →
    (c = .testLogicReset dt ∧ op = 2) ∨ (s.tap.ctl.reaches .updateIr tms = some .updateIr ∧ s.tap.irShift = op ∧
      ((c, op) ∈ [(.extest ⟨dt, tms⟩, 0), (.samplePreload ⟨dt, tms⟩, 1), (.idcode ⟨dt, tms⟩, 2), (.clamp ⟨dt, tms⟩, 3), (.highz ⟨dt, tms⟩, 4),
        (.segtest ⟨dt, tms⟩, 8)] ∨ (c = .bypass ⟨dt, tms⟩ op ∧ listedOpcode op = false))) →
    ∃ b : State, exec c s = .next b.settle ∧ b.tap.ir = op ∧
      b.tap.ctl = (if c = .testLogicReset dt then .testLogicReset else .updateIr) ∧
      b.tap.tdo = none ∧ b.tap.bnd = s.tap.bnd ∧ b.tap.bndOut = s.tap.bndOut ∧
      (op = 8 → b.tap.drive = 0) ∧ (op ≠ 8 → b.tap.drive = s.tap.drive) ∧ b.lock = (s.arrive dt).lock ∧ b.tile = (s.arrive dt).tile ∧
      (testMode op = true → b.heldInReset = true ∧ ((s.arrive dt).heldInReset = false → b.pw.st = .dormant)) ∧
      (testMode op = false → testMode s.tap.ir = false → b.port = (s.arrive dt).port ∧ b.mem = (s.arrive dt).mem ∧
        b.pw = (s.arrive dt).pw) ∧
      (testMode op = false → testMode s.tap.ir = true → b.pw.first = true ∧
        ((s.arrive dt).pw.rstn = true → (s.arrive dt).pw.hck = true → b.pw.qual = true ∧ b.edgeNo = 1))) ∧
  (∀ (s : State) (dt : Nat) (tms : List Bool), s.tap.ctl.reaches .updateIr tms = none ∨ s.tap.irShift ≠ 0 →
    exec (.extest ⟨dt, tms⟩) s = .next (s.arrive dt).settle) ∧
  (∀ c : TapCtl, (((((c.next true).next true).next true).next true).next true) = .testLogicReset) ∧
  (∀ op : BitVec 4, listedOpcode op = false → dataReg op = .bypass ∧ testMode op = false) ∧
  (∀ (s : State) (low : Bool) (p : LogicPin) (m : OutNo), p ≠ .tdo →
    (s.tap.ir = 4 → s.logicPin low p = none ∧ s.outputPin m = .float ∧ s.vcomPin = .float) ∧
    (s.tap.ir = 0 ∨ s.tap.ir = 3 → s.logicPin low p = boundaryPin s.tap.bndOut p ∧ s.outputPin m = .node ∧ s.vcomPin = .ground))

/-- R370, R373 to R375: Capture-IR loads 0b0001; Capture-DR loads the data register that the instruction selects: the identification code,
0 in the bypass register, the pin level in each input cell, the observe and drive bits of the segment test; Update-DR moves the shift stage
to the outputs. R368, R374: in a shift state the lowest bit of the selected register leaves and TDI enters at the top: 4 bits of instruction,
44 boundary cells, 32 bits of identification, 1 of bypass, 584 of segment test; TDO shows the lowest bit in a shift state, from its entry on,
and is released in every other. All of it where TMS leads the controller to that state. That the commands carry the way of TMS, and that TDO
follows with the command, where R368 gives the falling edge of TCK, is the model's choice (log 37); that the operand near tells when the
rails lie within 1 V of ground, before which observe captures 0, is its reading (log 12). -/
def Obligations.TapData : Prop :=
  (∀ (s : State) (dt : Nat) (tms : List Bool) (pins : BitVec 44) (observe : BitVec 292) (near : Bool) (c : TapCtl),
    (s.arrive dt).pw.por = false →
    (s.tap.ctl.reaches .captureIr tms = some c →
      ∃ t, exec (.captureIr ⟨dt, tms⟩) s = .next t ∧ t.tap.irShift = 1 ∧ t.tap.ir = s.tap.ir ∧ t.tap.ctl = c ∧
        t.tap.tdo = (if c = .shiftIr then some true else none)) ∧
    (s.tap.ctl.reaches .captureDr tms = some c →
      ∃ t, exec (.captureDr ⟨dt, tms⟩ pins ⟨observe, near⟩) s = .next t ∧ t.tap.ir = s.tap.ir ∧ t.tap.ctl = c ∧
        (dataReg s.tap.ir = .ident → t.tap.id = if Config.filmDelivery then 0x121201AB else 0x111201AB) ∧
        (dataReg s.tap.ir = .bypass → t.tap.byp = false) ∧
        (dataReg s.tap.ir = .boundary → t.tap.bnd &&& inputCells = pins &&& inputCells) ∧
        (dataReg s.tap.ir = .segment →
          ∀ m, m < 292 → t.tap.seg.getLsbD (2 * m + 1) = s.tap.drive.getLsbD m ∧
            ((s.arrive dt).sup.railsUp = false → t.tap.seg.getLsbD (2 * m) = observe.getLsbD m) ∧
            ((s.arrive dt).sup.railsUp = true → near = false → (s.arrive dt).sup.near = false → t.tap.seg.getLsbD (2 * m) = false))) ∧
    (s.tap.ctl.reaches .updateDr tms = some c →
      ∃ t, exec (.updateDr ⟨dt, tms⟩) s = .next t ∧ t.tap.ir = s.tap.ir ∧ t.tap.ctl = c ∧
        (dataReg s.tap.ir = .boundary → t.tap.bndOut = s.tap.bnd) ∧
        (dataReg s.tap.ir = .segment → ∀ m, m < 292 → t.tap.drive.getLsbD m = s.tap.seg.getLsbD (2 * m + 1)))) ∧
  (∀ (s : State) (dt : Nat) (tms : List Bool) (tdi : Bool) (c : TapCtl), (s.arrive dt).pw.por = false →
    (s.tap.ctl.reaches .shiftIr tms = some c →
      ∃ t, exec (.tapShift ⟨dt, tms⟩ true tdi) s = .next t ∧ t.tap.ctl = c ∧
        t.tap.irShift = BitVec.ofBool tdi ++ s.tap.irShift.extractLsb' 1 3 ∧
        t.tap.tdo = (if c = .shiftIr then some (t.tap.irShift.getLsbD 0) else none)) ∧
    (s.tap.ctl.reaches .shiftDr tms = some c →
      ∃ t, exec (.tapShift ⟨dt, tms⟩ false tdi) s = .next t ∧ t.tap.ir = s.tap.ir ∧ t.tap.ctl = c ∧
        t.tap.tdo = (if c = .shiftDr then some t.tap.low else none) ∧
        (dataReg s.tap.ir = .boundary → t.tap.low = t.tap.bnd.getLsbD 0 ∧ t.tap.bnd = BitVec.ofBool tdi ++ s.tap.bnd.extractLsb' 1 43) ∧
        (dataReg s.tap.ir = .ident → t.tap.low = t.tap.id.getLsbD 0 ∧ t.tap.id = BitVec.ofBool tdi ++ s.tap.id.extractLsb' 1 31) ∧
        (dataReg s.tap.ir = .bypass → t.tap.low = t.tap.byp ∧ t.tap.byp = tdi) ∧
        (dataReg s.tap.ir = .segment → t.tap.low = t.tap.seg.getLsbD 0 ∧
          t.tap.seg = BitVec.ofBool tdi ++ s.tap.seg.extractLsb' 1 583)) ∧
    (tms ≠ [] → s.tap.ctl.walk tms = some .shiftIr →
      ∃ t, exec (.tapShift ⟨dt, tms⟩ true tdi) s = .next t ∧ t.tap.ctl = .shiftIr ∧ t.tap.irShift = s.tap.irShift ∧
        t.tap.tdo = some (s.tap.irShift.getLsbD 0)) ∧
    (tms ≠ [] → s.tap.ctl.walk tms = some .shiftDr →
      ∃ t, exec (.tapShift ⟨dt, tms⟩ false tdi) s = .next t ∧
        t.tap = { s.tap with ctl := .shiftDr, tdo := some s.tap.low }))
end

