-- ==== Sys2Proof/Laws/State.lean ====
section
/-! SUPPORT. What each field reads after each named update: one small lemma per field and update, true by unfolding. -/

namespace Sys2Proof.Machine

variable (s : State)

@[simp] theorem State.onRing_pending (n : RingNo) (f : Ring → Ring) : (s.onRing n f).pending = s.pending := rfl
@[simp] theorem State.onRing_now (n : RingNo) (f : Ring → Ring) : (s.onRing n f).now = s.now := rfl
@[simp] theorem State.onRing_free (n : RingNo) (f : Ring → Ring) : (s.onRing n f).free = s.free := rfl
@[simp] theorem State.onRing_wild (n : RingNo) (f : Ring → Ring) : (s.onRing n f).wild = s.wild := rfl
@[simp] theorem State.onRing_edge (n : RingNo) (f : Ring → Ring) : (s.onRing n f).edge = s.edge := rfl
@[simp] theorem State.onRing_later (n : RingNo) (f : Ring → Ring) : (s.onRing n f).later = s.later := rfl
@[simp] theorem State.onRing_scNext (n : RingNo) (f : Ring → Ring) : (s.onRing n f).scNext = s.scNext := rfl
@[simp] theorem State.onRing_scNow (n : RingNo) (f : Ring → Ring) : (s.onRing n f).scNow = s.scNow := rfl
@[simp] theorem State.onRing_pw (n : RingNo) (f : Ring → Ring) : (s.onRing n f).pw = s.pw := rfl
@[simp] theorem State.onRing_port (n : RingNo) (f : Ring → Ring) : (s.onRing n f).port = s.port := rfl
@[simp] theorem State.onRing_tile (n : RingNo) (f : Ring → Ring) : (s.onRing n f).tile = s.tile := rfl
@[simp] theorem State.onRing_tileWritten (n : RingNo) (f : Ring → Ring) : (s.onRing n f).tileWritten = s.tileWritten := rfl
@[simp] theorem State.onRing_lock (n : RingNo) (f : Ring → Ring) : (s.onRing n f).lock = s.lock := rfl
@[simp] theorem State.onRing_applied (n : RingNo) (f : Ring → Ring) : (s.onRing n f).applied = s.applied := rfl
@[simp] theorem State.onRing_shadow (n : RingNo) (f : Ring → Ring) : (s.onRing n f).shadow = s.shadow := rfl
@[simp] theorem State.onRing_pend (n : RingNo) (f : Ring → Ring) : (s.onRing n f).pend = s.pend := rfl
@[simp] theorem State.onRing_cause (n : RingNo) (f : Ring → Ring) : (s.onRing n f).cause = s.cause := rfl
@[simp] theorem State.onRing_enable (n : RingNo) (f : Ring → Ring) : (s.onRing n f).enable = s.enable := rfl
@[simp] theorem State.onRing_attn (n : RingNo) (f : Ring → Ring) : (s.onRing n f).attn = s.attn := rfl
@[simp] theorem State.onRing_mem (n : RingNo) (f : Ring → Ring) : (s.onRing n f).mem = s.mem := rfl
@[simp] theorem State.onRing_drv (n : RingNo) (f : Ring → Ring) : (s.onRing n f).drv = s.drv := rfl
@[simp] theorem State.onRing_sup (n : RingNo) (f : Ring → Ring) : (s.onRing n f).sup = s.sup := rfl
@[simp] theorem State.onRing_thm (n : RingNo) (f : Ring → Ring) : (s.onRing n f).thm = s.thm := rfl
@[simp] theorem State.onRing_jnl (n : RingNo) (f : Ring → Ring) : (s.onRing n f).jnl = s.jnl := rfl
@[simp] theorem State.onRing_cnv (n : RingNo) (f : Ring → Ring) : (s.onRing n f).cnv = s.cnv := rfl
@[simp] theorem State.onRing_cnt (n : RingNo) (f : Ring → Ring) : (s.onRing n f).cnt = s.cnt := rfl
@[simp] theorem State.onRing_log (n : RingNo) (f : Ring → Ring) : (s.onRing n f).log = s.log := rfl
@[simp] theorem State.onRing_overflow (n : RingNo) (f : Ring → Ring) : (s.onRing n f).overflow = s.overflow := rfl
@[simp] theorem State.onRing_tap (n : RingNo) (f : Ring → Ring) : (s.onRing n f).tap = s.tap := rfl
@[simp] theorem State.onRing_rings (n : RingNo) (f : Ring → Ring) : (s.onRing n f).rings = s.rings.set n (f s.rings[n]) := rfl

@[simp] theorem State.onEdge_pending (f : EdgeRec → EdgeRec) : (s.onEdge f).pending = s.pending := rfl
@[simp] theorem State.onEdge_now (f : EdgeRec → EdgeRec) : (s.onEdge f).now = s.now := rfl
@[simp] theorem State.onEdge_free (f : EdgeRec → EdgeRec) : (s.onEdge f).free = s.free := rfl
@[simp] theorem State.onEdge_wild (f : EdgeRec → EdgeRec) : (s.onEdge f).wild = s.wild := rfl
@[simp] theorem State.onEdge_later (f : EdgeRec → EdgeRec) : (s.onEdge f).later = s.later := rfl
@[simp] theorem State.onEdge_scNext (f : EdgeRec → EdgeRec) : (s.onEdge f).scNext = s.scNext := rfl
@[simp] theorem State.onEdge_scNow (f : EdgeRec → EdgeRec) : (s.onEdge f).scNow = s.scNow := rfl
@[simp] theorem State.onEdge_pw (f : EdgeRec → EdgeRec) : (s.onEdge f).pw = s.pw := rfl
@[simp] theorem State.onEdge_port (f : EdgeRec → EdgeRec) : (s.onEdge f).port = s.port := rfl
@[simp] theorem State.onEdge_tile (f : EdgeRec → EdgeRec) : (s.onEdge f).tile = s.tile := rfl
@[simp] theorem State.onEdge_tileWritten (f : EdgeRec → EdgeRec) : (s.onEdge f).tileWritten = s.tileWritten := rfl
@[simp] theorem State.onEdge_lock (f : EdgeRec → EdgeRec) : (s.onEdge f).lock = s.lock := rfl
@[simp] theorem State.onEdge_applied (f : EdgeRec → EdgeRec) : (s.onEdge f).applied = s.applied := rfl
@[simp] theorem State.onEdge_shadow (f : EdgeRec → EdgeRec) : (s.onEdge f).shadow = s.shadow := rfl
@[simp] theorem State.onEdge_pend (f : EdgeRec → EdgeRec) : (s.onEdge f).pend = s.pend := rfl
@[simp] theorem State.onEdge_cause (f : EdgeRec → EdgeRec) : (s.onEdge f).cause = s.cause := rfl
@[simp] theorem State.onEdge_enable (f : EdgeRec → EdgeRec) : (s.onEdge f).enable = s.enable := rfl
@[simp] theorem State.onEdge_attn (f : EdgeRec → EdgeRec) : (s.onEdge f).attn = s.attn := rfl
@[simp] theorem State.onEdge_mem (f : EdgeRec → EdgeRec) : (s.onEdge f).mem = s.mem := rfl
@[simp] theorem State.onEdge_rings (f : EdgeRec → EdgeRec) : (s.onEdge f).rings = s.rings := rfl
@[simp] theorem State.onEdge_drv (f : EdgeRec → EdgeRec) : (s.onEdge f).drv = s.drv := rfl
@[simp] theorem State.onEdge_sup (f : EdgeRec → EdgeRec) : (s.onEdge f).sup = s.sup := rfl
@[simp] theorem State.onEdge_thm (f : EdgeRec → EdgeRec) : (s.onEdge f).thm = s.thm := rfl
@[simp] theorem State.onEdge_jnl (f : EdgeRec → EdgeRec) : (s.onEdge f).jnl = s.jnl := rfl
@[simp] theorem State.onEdge_cnv (f : EdgeRec → EdgeRec) : (s.onEdge f).cnv = s.cnv := rfl
@[simp] theorem State.onEdge_cnt (f : EdgeRec → EdgeRec) : (s.onEdge f).cnt = s.cnt := rfl
@[simp] theorem State.onEdge_log (f : EdgeRec → EdgeRec) : (s.onEdge f).log = s.log := rfl
@[simp] theorem State.onEdge_overflow (f : EdgeRec → EdgeRec) : (s.onEdge f).overflow = s.overflow := rfl
@[simp] theorem State.onEdge_tap (f : EdgeRec → EdgeRec) : (s.onEdge f).tap = s.tap := rfl
@[simp] theorem State.onEdge_edge (f : EdgeRec → EdgeRec) : (s.onEdge f).edge = f s.edge := rfl

@[simp] theorem State.onSup_pending (f : Supply → Supply) : (s.onSup f).pending = s.pending := rfl
@[simp] theorem State.onSup_now (f : Supply → Supply) : (s.onSup f).now = s.now := rfl
@[simp] theorem State.onSup_free (f : Supply → Supply) : (s.onSup f).free = s.free := rfl
@[simp] theorem State.onSup_wild (f : Supply → Supply) : (s.onSup f).wild = s.wild := rfl
@[simp] theorem State.onSup_edge (f : Supply → Supply) : (s.onSup f).edge = s.edge := rfl
@[simp] theorem State.onSup_later (f : Supply → Supply) : (s.onSup f).later = s.later := rfl
@[simp] theorem State.onSup_scNext (f : Supply → Supply) : (s.onSup f).scNext = s.scNext := rfl
@[simp] theorem State.onSup_scNow (f : Supply → Supply) : (s.onSup f).scNow = s.scNow := rfl
@[simp] theorem State.onSup_pw (f : Supply → Supply) : (s.onSup f).pw = s.pw := rfl
@[simp] theorem State.onSup_port (f : Supply → Supply) : (s.onSup f).port = s.port := rfl
@[simp] theorem State.onSup_tile (f : Supply → Supply) : (s.onSup f).tile = s.tile := rfl
@[simp] theorem State.onSup_tileWritten (f : Supply → Supply) : (s.onSup f).tileWritten = s.tileWritten := rfl
@[simp] theorem State.onSup_lock (f : Supply → Supply) : (s.onSup f).lock = s.lock := rfl
@[simp] theorem State.onSup_applied (f : Supply → Supply) : (s.onSup f).applied = s.applied := rfl
@[simp] theorem State.onSup_shadow (f : Supply → Supply) : (s.onSup f).shadow = s.shadow := rfl
@[simp] theorem State.onSup_pend (f : Supply → Supply) : (s.onSup f).pend = s.pend := rfl
@[simp] theorem State.onSup_cause (f : Supply → Supply) : (s.onSup f).cause = s.cause := rfl
@[simp] theorem State.onSup_enable (f : Supply → Supply) : (s.onSup f).enable = s.enable := rfl
@[simp] theorem State.onSup_attn (f : Supply → Supply) : (s.onSup f).attn = s.attn := rfl
@[simp] theorem State.onSup_mem (f : Supply → Supply) : (s.onSup f).mem = s.mem := rfl
@[simp] theorem State.onSup_rings (f : Supply → Supply) : (s.onSup f).rings = s.rings := rfl
@[simp] theorem State.onSup_drv (f : Supply → Supply) : (s.onSup f).drv = s.drv := rfl
@[simp] theorem State.onSup_thm (f : Supply → Supply) : (s.onSup f).thm = s.thm := rfl
@[simp] theorem State.onSup_jnl (f : Supply → Supply) : (s.onSup f).jnl = s.jnl := rfl
@[simp] theorem State.onSup_cnv (f : Supply → Supply) : (s.onSup f).cnv = s.cnv := rfl
@[simp] theorem State.onSup_cnt (f : Supply → Supply) : (s.onSup f).cnt = s.cnt := rfl
@[simp] theorem State.onSup_log (f : Supply → Supply) : (s.onSup f).log = s.log := rfl
@[simp] theorem State.onSup_overflow (f : Supply → Supply) : (s.onSup f).overflow = s.overflow := rfl
@[simp] theorem State.onSup_tap (f : Supply → Supply) : (s.onSup f).tap = s.tap := rfl
@[simp] theorem State.onSup_sup (f : Supply → Supply) : (s.onSup f).sup = f s.sup := rfl

@[simp] theorem State.onPw_pending (f : Power → Power) : (s.onPw f).pending = s.pending := rfl
@[simp] theorem State.onPw_now (f : Power → Power) : (s.onPw f).now = s.now := rfl
@[simp] theorem State.onPw_free (f : Power → Power) : (s.onPw f).free = s.free := rfl
@[simp] theorem State.onPw_wild (f : Power → Power) : (s.onPw f).wild = s.wild := rfl
@[simp] theorem State.onPw_edge (f : Power → Power) : (s.onPw f).edge = s.edge := rfl
@[simp] theorem State.onPw_later (f : Power → Power) : (s.onPw f).later = s.later := rfl
@[simp] theorem State.onPw_scNext (f : Power → Power) : (s.onPw f).scNext = s.scNext := rfl
@[simp] theorem State.onPw_scNow (f : Power → Power) : (s.onPw f).scNow = s.scNow := rfl
@[simp] theorem State.onPw_port (f : Power → Power) : (s.onPw f).port = s.port := rfl
@[simp] theorem State.onPw_tile (f : Power → Power) : (s.onPw f).tile = s.tile := rfl
@[simp] theorem State.onPw_tileWritten (f : Power → Power) : (s.onPw f).tileWritten = s.tileWritten := rfl
@[simp] theorem State.onPw_lock (f : Power → Power) : (s.onPw f).lock = s.lock := rfl
@[simp] theorem State.onPw_applied (f : Power → Power) : (s.onPw f).applied = s.applied := rfl
@[simp] theorem State.onPw_shadow (f : Power → Power) : (s.onPw f).shadow = s.shadow := rfl
@[simp] theorem State.onPw_pend (f : Power → Power) : (s.onPw f).pend = s.pend := rfl
@[simp] theorem State.onPw_cause (f : Power → Power) : (s.onPw f).cause = s.cause := rfl
@[simp] theorem State.onPw_enable (f : Power → Power) : (s.onPw f).enable = s.enable := rfl
@[simp] theorem State.onPw_attn (f : Power → Power) : (s.onPw f).attn = s.attn := rfl
@[simp] theorem State.onPw_mem (f : Power → Power) : (s.onPw f).mem = s.mem := rfl
@[simp] theorem State.onPw_rings (f : Power → Power) : (s.onPw f).rings = s.rings := rfl
@[simp] theorem State.onPw_drv (f : Power → Power) : (s.onPw f).drv = s.drv := rfl
@[simp] theorem State.onPw_sup (f : Power → Power) : (s.onPw f).sup = s.sup := rfl
@[simp] theorem State.onPw_thm (f : Power → Power) : (s.onPw f).thm = s.thm := rfl
@[simp] theorem State.onPw_jnl (f : Power → Power) : (s.onPw f).jnl = s.jnl := rfl
@[simp] theorem State.onPw_cnv (f : Power → Power) : (s.onPw f).cnv = s.cnv := rfl
@[simp] theorem State.onPw_cnt (f : Power → Power) : (s.onPw f).cnt = s.cnt := rfl
@[simp] theorem State.onPw_log (f : Power → Power) : (s.onPw f).log = s.log := rfl
@[simp] theorem State.onPw_overflow (f : Power → Power) : (s.onPw f).overflow = s.overflow := rfl
@[simp] theorem State.onPw_tap (f : Power → Power) : (s.onPw f).tap = s.tap := rfl
@[simp] theorem State.onPw_pw (f : Power → Power) : (s.onPw f).pw = f s.pw := rfl

@[simp] theorem State.onJnl_pending (f : Journal → Journal) : (s.onJnl f).pending = s.pending := rfl
@[simp] theorem State.onJnl_now (f : Journal → Journal) : (s.onJnl f).now = s.now := rfl
@[simp] theorem State.onJnl_free (f : Journal → Journal) : (s.onJnl f).free = s.free := rfl
@[simp] theorem State.onJnl_wild (f : Journal → Journal) : (s.onJnl f).wild = s.wild := rfl
@[simp] theorem State.onJnl_edge (f : Journal → Journal) : (s.onJnl f).edge = s.edge := rfl
@[simp] theorem State.onJnl_later (f : Journal → Journal) : (s.onJnl f).later = s.later := rfl
@[simp] theorem State.onJnl_scNext (f : Journal → Journal) : (s.onJnl f).scNext = s.scNext := rfl
@[simp] theorem State.onJnl_scNow (f : Journal → Journal) : (s.onJnl f).scNow = s.scNow := rfl
@[simp] theorem State.onJnl_pw (f : Journal → Journal) : (s.onJnl f).pw = s.pw := rfl
@[simp] theorem State.onJnl_port (f : Journal → Journal) : (s.onJnl f).port = s.port := rfl
@[simp] theorem State.onJnl_tile (f : Journal → Journal) : (s.onJnl f).tile = s.tile := rfl
@[simp] theorem State.onJnl_tileWritten (f : Journal → Journal) : (s.onJnl f).tileWritten = s.tileWritten := rfl
@[simp] theorem State.onJnl_lock (f : Journal → Journal) : (s.onJnl f).lock = s.lock := rfl
@[simp] theorem State.onJnl_applied (f : Journal → Journal) : (s.onJnl f).applied = s.applied := rfl
@[simp] theorem State.onJnl_shadow (f : Journal → Journal) : (s.onJnl f).shadow = s.shadow := rfl
@[simp] theorem State.onJnl_pend (f : Journal → Journal) : (s.onJnl f).pend = s.pend := rfl
@[simp] theorem State.onJnl_cause (f : Journal → Journal) : (s.onJnl f).cause = s.cause := rfl
@[simp] theorem State.onJnl_enable (f : Journal → Journal) : (s.onJnl f).enable = s.enable := rfl
@[simp] theorem State.onJnl_attn (f : Journal → Journal) : (s.onJnl f).attn = s.attn := rfl
@[simp] theorem State.onJnl_mem (f : Journal → Journal) : (s.onJnl f).mem = s.mem := rfl
@[simp] theorem State.onJnl_rings (f : Journal → Journal) : (s.onJnl f).rings = s.rings := rfl
@[simp] theorem State.onJnl_drv (f : Journal → Journal) : (s.onJnl f).drv = s.drv := rfl
@[simp] theorem State.onJnl_sup (f : Journal → Journal) : (s.onJnl f).sup = s.sup := rfl
@[simp] theorem State.onJnl_thm (f : Journal → Journal) : (s.onJnl f).thm = s.thm := rfl
@[simp] theorem State.onJnl_cnv (f : Journal → Journal) : (s.onJnl f).cnv = s.cnv := rfl
@[simp] theorem State.onJnl_cnt (f : Journal → Journal) : (s.onJnl f).cnt = s.cnt := rfl
@[simp] theorem State.onJnl_log (f : Journal → Journal) : (s.onJnl f).log = s.log := rfl
@[simp] theorem State.onJnl_overflow (f : Journal → Journal) : (s.onJnl f).overflow = s.overflow := rfl
@[simp] theorem State.onJnl_tap (f : Journal → Journal) : (s.onJnl f).tap = s.tap := rfl
@[simp] theorem State.onJnl_jnl (f : Journal → Journal) : (s.onJnl f).jnl = f s.jnl := rfl

@[simp] theorem State.onThm_pending (f : Thermal → Thermal) : (s.onThm f).pending = s.pending := rfl
@[simp] theorem State.onThm_now (f : Thermal → Thermal) : (s.onThm f).now = s.now := rfl
@[simp] theorem State.onThm_free (f : Thermal → Thermal) : (s.onThm f).free = s.free := rfl
@[simp] theorem State.onThm_wild (f : Thermal → Thermal) : (s.onThm f).wild = s.wild := rfl
@[simp] theorem State.onThm_edge (f : Thermal → Thermal) : (s.onThm f).edge = s.edge := rfl
@[simp] theorem State.onThm_later (f : Thermal → Thermal) : (s.onThm f).later = s.later := rfl
@[simp] theorem State.onThm_scNext (f : Thermal → Thermal) : (s.onThm f).scNext = s.scNext := rfl
@[simp] theorem State.onThm_scNow (f : Thermal → Thermal) : (s.onThm f).scNow = s.scNow := rfl
@[simp] theorem State.onThm_pw (f : Thermal → Thermal) : (s.onThm f).pw = s.pw := rfl
@[simp] theorem State.onThm_port (f : Thermal → Thermal) : (s.onThm f).port = s.port := rfl
@[simp] theorem State.onThm_tile (f : Thermal → Thermal) : (s.onThm f).tile = s.tile := rfl
@[simp] theorem State.onThm_tileWritten (f : Thermal → Thermal) : (s.onThm f).tileWritten = s.tileWritten := rfl
@[simp] theorem State.onThm_lock (f : Thermal → Thermal) : (s.onThm f).lock = s.lock := rfl
@[simp] theorem State.onThm_applied (f : Thermal → Thermal) : (s.onThm f).applied = s.applied := rfl
@[simp] theorem State.onThm_shadow (f : Thermal → Thermal) : (s.onThm f).shadow = s.shadow := rfl
@[simp] theorem State.onThm_pend (f : Thermal → Thermal) : (s.onThm f).pend = s.pend := rfl
@[simp] theorem State.onThm_cause (f : Thermal → Thermal) : (s.onThm f).cause = s.cause := rfl
@[simp] theorem State.onThm_enable (f : Thermal → Thermal) : (s.onThm f).enable = s.enable := rfl
@[simp] theorem State.onThm_attn (f : Thermal → Thermal) : (s.onThm f).attn = s.attn := rfl
@[simp] theorem State.onThm_mem (f : Thermal → Thermal) : (s.onThm f).mem = s.mem := rfl
@[simp] theorem State.onThm_rings (f : Thermal → Thermal) : (s.onThm f).rings = s.rings := rfl
@[simp] theorem State.onThm_drv (f : Thermal → Thermal) : (s.onThm f).drv = s.drv := rfl
@[simp] theorem State.onThm_sup (f : Thermal → Thermal) : (s.onThm f).sup = s.sup := rfl
@[simp] theorem State.onThm_jnl (f : Thermal → Thermal) : (s.onThm f).jnl = s.jnl := rfl
@[simp] theorem State.onThm_cnv (f : Thermal → Thermal) : (s.onThm f).cnv = s.cnv := rfl
@[simp] theorem State.onThm_cnt (f : Thermal → Thermal) : (s.onThm f).cnt = s.cnt := rfl
@[simp] theorem State.onThm_log (f : Thermal → Thermal) : (s.onThm f).log = s.log := rfl
@[simp] theorem State.onThm_overflow (f : Thermal → Thermal) : (s.onThm f).overflow = s.overflow := rfl
@[simp] theorem State.onThm_tap (f : Thermal → Thermal) : (s.onThm f).tap = s.tap := rfl
@[simp] theorem State.onThm_thm (f : Thermal → Thermal) : (s.onThm f).thm = f s.thm := rfl

@[simp] theorem State.onCnv_pending (f : Convoy → Convoy) : (s.onCnv f).pending = s.pending := rfl
@[simp] theorem State.onCnv_now (f : Convoy → Convoy) : (s.onCnv f).now = s.now := rfl
@[simp] theorem State.onCnv_free (f : Convoy → Convoy) : (s.onCnv f).free = s.free := rfl
@[simp] theorem State.onCnv_wild (f : Convoy → Convoy) : (s.onCnv f).wild = s.wild := rfl
@[simp] theorem State.onCnv_edge (f : Convoy → Convoy) : (s.onCnv f).edge = s.edge := rfl
@[simp] theorem State.onCnv_later (f : Convoy → Convoy) : (s.onCnv f).later = s.later := rfl
@[simp] theorem State.onCnv_scNext (f : Convoy → Convoy) : (s.onCnv f).scNext = s.scNext := rfl
@[simp] theorem State.onCnv_scNow (f : Convoy → Convoy) : (s.onCnv f).scNow = s.scNow := rfl
@[simp] theorem State.onCnv_pw (f : Convoy → Convoy) : (s.onCnv f).pw = s.pw := rfl
@[simp] theorem State.onCnv_port (f : Convoy → Convoy) : (s.onCnv f).port = s.port := rfl
@[simp] theorem State.onCnv_tile (f : Convoy → Convoy) : (s.onCnv f).tile = s.tile := rfl
@[simp] theorem State.onCnv_tileWritten (f : Convoy → Convoy) : (s.onCnv f).tileWritten = s.tileWritten := rfl
@[simp] theorem State.onCnv_lock (f : Convoy → Convoy) : (s.onCnv f).lock = s.lock := rfl
@[simp] theorem State.onCnv_applied (f : Convoy → Convoy) : (s.onCnv f).applied = s.applied := rfl
@[simp] theorem State.onCnv_shadow (f : Convoy → Convoy) : (s.onCnv f).shadow = s.shadow := rfl
@[simp] theorem State.onCnv_pend (f : Convoy → Convoy) : (s.onCnv f).pend = s.pend := rfl
@[simp] theorem State.onCnv_cause (f : Convoy → Convoy) : (s.onCnv f).cause = s.cause := rfl
@[simp] theorem State.onCnv_enable (f : Convoy → Convoy) : (s.onCnv f).enable = s.enable := rfl
@[simp] theorem State.onCnv_attn (f : Convoy → Convoy) : (s.onCnv f).attn = s.attn := rfl
@[simp] theorem State.onCnv_mem (f : Convoy → Convoy) : (s.onCnv f).mem = s.mem := rfl
@[simp] theorem State.onCnv_rings (f : Convoy → Convoy) : (s.onCnv f).rings = s.rings := rfl
@[simp] theorem State.onCnv_drv (f : Convoy → Convoy) : (s.onCnv f).drv = s.drv := rfl
@[simp] theorem State.onCnv_sup (f : Convoy → Convoy) : (s.onCnv f).sup = s.sup := rfl
@[simp] theorem State.onCnv_thm (f : Convoy → Convoy) : (s.onCnv f).thm = s.thm := rfl
@[simp] theorem State.onCnv_jnl (f : Convoy → Convoy) : (s.onCnv f).jnl = s.jnl := rfl
@[simp] theorem State.onCnv_cnt (f : Convoy → Convoy) : (s.onCnv f).cnt = s.cnt := rfl
@[simp] theorem State.onCnv_log (f : Convoy → Convoy) : (s.onCnv f).log = s.log := rfl
@[simp] theorem State.onCnv_overflow (f : Convoy → Convoy) : (s.onCnv f).overflow = s.overflow := rfl
@[simp] theorem State.onCnv_tap (f : Convoy → Convoy) : (s.onCnv f).tap = s.tap := rfl
@[simp] theorem State.onCnv_cnv (f : Convoy → Convoy) : (s.onCnv f).cnv = f s.cnv := rfl

@[simp] theorem State.onMem_pending (f : MemPort → MemPort) : (s.onMem f).pending = s.pending := rfl
@[simp] theorem State.onMem_now (f : MemPort → MemPort) : (s.onMem f).now = s.now := rfl
@[simp] theorem State.onMem_free (f : MemPort → MemPort) : (s.onMem f).free = s.free := rfl
@[simp] theorem State.onMem_wild (f : MemPort → MemPort) : (s.onMem f).wild = s.wild := rfl
@[simp] theorem State.onMem_edge (f : MemPort → MemPort) : (s.onMem f).edge = s.edge := rfl
@[simp] theorem State.onMem_later (f : MemPort → MemPort) : (s.onMem f).later = s.later := rfl
@[simp] theorem State.onMem_scNext (f : MemPort → MemPort) : (s.onMem f).scNext = s.scNext := rfl
@[simp] theorem State.onMem_scNow (f : MemPort → MemPort) : (s.onMem f).scNow = s.scNow := rfl
@[simp] theorem State.onMem_pw (f : MemPort → MemPort) : (s.onMem f).pw = s.pw := rfl
@[simp] theorem State.onMem_port (f : MemPort → MemPort) : (s.onMem f).port = s.port := rfl
@[simp] theorem State.onMem_tile (f : MemPort → MemPort) : (s.onMem f).tile = s.tile := rfl
@[simp] theorem State.onMem_tileWritten (f : MemPort → MemPort) : (s.onMem f).tileWritten = s.tileWritten := rfl
@[simp] theorem State.onMem_lock (f : MemPort → MemPort) : (s.onMem f).lock = s.lock := rfl
@[simp] theorem State.onMem_applied (f : MemPort → MemPort) : (s.onMem f).applied = s.applied := rfl
@[simp] theorem State.onMem_shadow (f : MemPort → MemPort) : (s.onMem f).shadow = s.shadow := rfl
@[simp] theorem State.onMem_pend (f : MemPort → MemPort) : (s.onMem f).pend = s.pend := rfl
@[simp] theorem State.onMem_cause (f : MemPort → MemPort) : (s.onMem f).cause = s.cause := rfl
@[simp] theorem State.onMem_enable (f : MemPort → MemPort) : (s.onMem f).enable = s.enable := rfl
@[simp] theorem State.onMem_attn (f : MemPort → MemPort) : (s.onMem f).attn = s.attn := rfl
@[simp] theorem State.onMem_rings (f : MemPort → MemPort) : (s.onMem f).rings = s.rings := rfl
@[simp] theorem State.onMem_drv (f : MemPort → MemPort) : (s.onMem f).drv = s.drv := rfl
@[simp] theorem State.onMem_sup (f : MemPort → MemPort) : (s.onMem f).sup = s.sup := rfl
@[simp] theorem State.onMem_thm (f : MemPort → MemPort) : (s.onMem f).thm = s.thm := rfl
@[simp] theorem State.onMem_jnl (f : MemPort → MemPort) : (s.onMem f).jnl = s.jnl := rfl
@[simp] theorem State.onMem_cnv (f : MemPort → MemPort) : (s.onMem f).cnv = s.cnv := rfl
@[simp] theorem State.onMem_cnt (f : MemPort → MemPort) : (s.onMem f).cnt = s.cnt := rfl
@[simp] theorem State.onMem_log (f : MemPort → MemPort) : (s.onMem f).log = s.log := rfl
@[simp] theorem State.onMem_overflow (f : MemPort → MemPort) : (s.onMem f).overflow = s.overflow := rfl
@[simp] theorem State.onMem_tap (f : MemPort → MemPort) : (s.onMem f).tap = s.tap := rfl
@[simp] theorem State.onMem_mem (f : MemPort → MemPort) : (s.onMem f).mem = f s.mem := rfl

@[simp] theorem State.onPort_pending (f : SetupPort → SetupPort) : (s.onPort f).pending = s.pending := rfl
@[simp] theorem State.onPort_now (f : SetupPort → SetupPort) : (s.onPort f).now = s.now := rfl
@[simp] theorem State.onPort_free (f : SetupPort → SetupPort) : (s.onPort f).free = s.free := rfl
@[simp] theorem State.onPort_wild (f : SetupPort → SetupPort) : (s.onPort f).wild = s.wild := rfl
@[simp] theorem State.onPort_edge (f : SetupPort → SetupPort) : (s.onPort f).edge = s.edge := rfl
@[simp] theorem State.onPort_later (f : SetupPort → SetupPort) : (s.onPort f).later = s.later := rfl
@[simp] theorem State.onPort_scNext (f : SetupPort → SetupPort) : (s.onPort f).scNext = s.scNext := rfl
@[simp] theorem State.onPort_scNow (f : SetupPort → SetupPort) : (s.onPort f).scNow = s.scNow := rfl
@[simp] theorem State.onPort_pw (f : SetupPort → SetupPort) : (s.onPort f).pw = s.pw := rfl
@[simp] theorem State.onPort_tile (f : SetupPort → SetupPort) : (s.onPort f).tile = s.tile := rfl
@[simp] theorem State.onPort_tileWritten (f : SetupPort → SetupPort) : (s.onPort f).tileWritten = s.tileWritten := rfl
@[simp] theorem State.onPort_lock (f : SetupPort → SetupPort) : (s.onPort f).lock = s.lock := rfl
@[simp] theorem State.onPort_applied (f : SetupPort → SetupPort) : (s.onPort f).applied = s.applied := rfl
@[simp] theorem State.onPort_shadow (f : SetupPort → SetupPort) : (s.onPort f).shadow = s.shadow := rfl
@[simp] theorem State.onPort_pend (f : SetupPort → SetupPort) : (s.onPort f).pend = s.pend := rfl
@[simp] theorem State.onPort_cause (f : SetupPort → SetupPort) : (s.onPort f).cause = s.cause := rfl
@[simp] theorem State.onPort_enable (f : SetupPort → SetupPort) : (s.onPort f).enable = s.enable := rfl
@[simp] theorem State.onPort_attn (f : SetupPort → SetupPort) : (s.onPort f).attn = s.attn := rfl
@[simp] theorem State.onPort_mem (f : SetupPort → SetupPort) : (s.onPort f).mem = s.mem := rfl
@[simp] theorem State.onPort_rings (f : SetupPort → SetupPort) : (s.onPort f).rings = s.rings := rfl
@[simp] theorem State.onPort_drv (f : SetupPort → SetupPort) : (s.onPort f).drv = s.drv := rfl
@[simp] theorem State.onPort_sup (f : SetupPort → SetupPort) : (s.onPort f).sup = s.sup := rfl
@[simp] theorem State.onPort_thm (f : SetupPort → SetupPort) : (s.onPort f).thm = s.thm := rfl
@[simp] theorem State.onPort_jnl (f : SetupPort → SetupPort) : (s.onPort f).jnl = s.jnl := rfl
@[simp] theorem State.onPort_cnv (f : SetupPort → SetupPort) : (s.onPort f).cnv = s.cnv := rfl
@[simp] theorem State.onPort_cnt (f : SetupPort → SetupPort) : (s.onPort f).cnt = s.cnt := rfl
@[simp] theorem State.onPort_log (f : SetupPort → SetupPort) : (s.onPort f).log = s.log := rfl
@[simp] theorem State.onPort_overflow (f : SetupPort → SetupPort) : (s.onPort f).overflow = s.overflow := rfl
@[simp] theorem State.onPort_tap (f : SetupPort → SetupPort) : (s.onPort f).tap = s.tap := rfl
@[simp] theorem State.onPort_port (f : SetupPort → SetupPort) : (s.onPort f).port = f s.port := rfl

@[simp] theorem State.onDrv_pending (f : Drive → Drive) : (s.onDrv f).pending = s.pending := rfl
@[simp] theorem State.onDrv_now (f : Drive → Drive) : (s.onDrv f).now = s.now := rfl
@[simp] theorem State.onDrv_free (f : Drive → Drive) : (s.onDrv f).free = s.free := rfl
@[simp] theorem State.onDrv_wild (f : Drive → Drive) : (s.onDrv f).wild = s.wild := rfl
@[simp] theorem State.onDrv_edge (f : Drive → Drive) : (s.onDrv f).edge = s.edge := rfl
@[simp] theorem State.onDrv_later (f : Drive → Drive) : (s.onDrv f).later = s.later := rfl
@[simp] theorem State.onDrv_scNext (f : Drive → Drive) : (s.onDrv f).scNext = s.scNext := rfl
@[simp] theorem State.onDrv_scNow (f : Drive → Drive) : (s.onDrv f).scNow = s.scNow := rfl
@[simp] theorem State.onDrv_pw (f : Drive → Drive) : (s.onDrv f).pw = s.pw := rfl
@[simp] theorem State.onDrv_port (f : Drive → Drive) : (s.onDrv f).port = s.port := rfl
@[simp] theorem State.onDrv_tile (f : Drive → Drive) : (s.onDrv f).tile = s.tile := rfl
@[simp] theorem State.onDrv_tileWritten (f : Drive → Drive) : (s.onDrv f).tileWritten = s.tileWritten := rfl
@[simp] theorem State.onDrv_lock (f : Drive → Drive) : (s.onDrv f).lock = s.lock := rfl
@[simp] theorem State.onDrv_applied (f : Drive → Drive) : (s.onDrv f).applied = s.applied := rfl
@[simp] theorem State.onDrv_shadow (f : Drive → Drive) : (s.onDrv f).shadow = s.shadow := rfl
@[simp] theorem State.onDrv_pend (f : Drive → Drive) : (s.onDrv f).pend = s.pend := rfl
@[simp] theorem State.onDrv_cause (f : Drive → Drive) : (s.onDrv f).cause = s.cause := rfl
@[simp] theorem State.onDrv_enable (f : Drive → Drive) : (s.onDrv f).enable = s.enable := rfl
@[simp] theorem State.onDrv_attn (f : Drive → Drive) : (s.onDrv f).attn = s.attn := rfl
@[simp] theorem State.onDrv_mem (f : Drive → Drive) : (s.onDrv f).mem = s.mem := rfl
@[simp] theorem State.onDrv_rings (f : Drive → Drive) : (s.onDrv f).rings = s.rings := rfl
@[simp] theorem State.onDrv_sup (f : Drive → Drive) : (s.onDrv f).sup = s.sup := rfl
@[simp] theorem State.onDrv_thm (f : Drive → Drive) : (s.onDrv f).thm = s.thm := rfl
@[simp] theorem State.onDrv_jnl (f : Drive → Drive) : (s.onDrv f).jnl = s.jnl := rfl
@[simp] theorem State.onDrv_cnv (f : Drive → Drive) : (s.onDrv f).cnv = s.cnv := rfl
@[simp] theorem State.onDrv_cnt (f : Drive → Drive) : (s.onDrv f).cnt = s.cnt := rfl
@[simp] theorem State.onDrv_log (f : Drive → Drive) : (s.onDrv f).log = s.log := rfl
@[simp] theorem State.onDrv_overflow (f : Drive → Drive) : (s.onDrv f).overflow = s.overflow := rfl
@[simp] theorem State.onDrv_tap (f : Drive → Drive) : (s.onDrv f).tap = s.tap := rfl
@[simp] theorem State.onDrv_drv (f : Drive → Drive) : (s.onDrv f).drv = f s.drv := rfl

@[simp] theorem State.goTo_pending (x : EngState) : (s.goTo x).pending = s.pending := rfl
@[simp] theorem State.goTo_now (x : EngState) : (s.goTo x).now = s.now := rfl
@[simp] theorem State.goTo_free (x : EngState) : (s.goTo x).free = s.free := rfl
@[simp] theorem State.goTo_wild (x : EngState) : (s.goTo x).wild = s.wild := rfl
@[simp] theorem State.goTo_edge (x : EngState) : (s.goTo x).edge = s.edge := rfl
@[simp] theorem State.goTo_later (x : EngState) : (s.goTo x).later = s.later := rfl
@[simp] theorem State.goTo_scNext (x : EngState) : (s.goTo x).scNext = s.scNext := rfl
@[simp] theorem State.goTo_scNow (x : EngState) : (s.goTo x).scNow = s.scNow := rfl
@[simp] theorem State.goTo_port (x : EngState) : (s.goTo x).port = s.port := rfl
@[simp] theorem State.goTo_tile (x : EngState) : (s.goTo x).tile = s.tile := rfl
@[simp] theorem State.goTo_tileWritten (x : EngState) : (s.goTo x).tileWritten = s.tileWritten := rfl
@[simp] theorem State.goTo_lock (x : EngState) : (s.goTo x).lock = s.lock := rfl
@[simp] theorem State.goTo_applied (x : EngState) : (s.goTo x).applied = s.applied := rfl
@[simp] theorem State.goTo_shadow (x : EngState) : (s.goTo x).shadow = s.shadow := rfl
@[simp] theorem State.goTo_pend (x : EngState) : (s.goTo x).pend = s.pend := rfl
@[simp] theorem State.goTo_cause (x : EngState) : (s.goTo x).cause = s.cause := rfl
@[simp] theorem State.goTo_enable (x : EngState) : (s.goTo x).enable = s.enable := rfl
@[simp] theorem State.goTo_attn (x : EngState) : (s.goTo x).attn = s.attn := rfl
@[simp] theorem State.goTo_mem (x : EngState) : (s.goTo x).mem = s.mem := rfl
@[simp] theorem State.goTo_rings (x : EngState) : (s.goTo x).rings = s.rings := rfl
@[simp] theorem State.goTo_drv (x : EngState) : (s.goTo x).drv = s.drv := rfl
@[simp] theorem State.goTo_sup (x : EngState) : (s.goTo x).sup = s.sup := rfl
@[simp] theorem State.goTo_thm (x : EngState) : (s.goTo x).thm = s.thm := rfl
@[simp] theorem State.goTo_jnl (x : EngState) : (s.goTo x).jnl = s.jnl := rfl
@[simp] theorem State.goTo_cnv (x : EngState) : (s.goTo x).cnv = s.cnv := rfl
@[simp] theorem State.goTo_cnt (x : EngState) : (s.goTo x).cnt = s.cnt := rfl
@[simp] theorem State.goTo_log (x : EngState) : (s.goTo x).log = s.log := rfl
@[simp] theorem State.goTo_overflow (x : EngState) : (s.goTo x).overflow = s.overflow := rfl
@[simp] theorem State.goTo_tap (x : EngState) : (s.goTo x).tap = s.tap := rfl
@[simp] theorem State.goTo_pw (x : EngState) : (s.goTo x).pw = { s.pw with st := x } := rfl

@[simp] theorem State.defer_pending (d : Deferred) : (s.defer d).pending = s.pending := rfl
@[simp] theorem State.defer_now (d : Deferred) : (s.defer d).now = s.now := rfl
@[simp] theorem State.defer_free (d : Deferred) : (s.defer d).free = s.free := rfl
@[simp] theorem State.defer_wild (d : Deferred) : (s.defer d).wild = s.wild := rfl
@[simp] theorem State.defer_edge (d : Deferred) : (s.defer d).edge = s.edge := rfl
@[simp] theorem State.defer_scNext (d : Deferred) : (s.defer d).scNext = s.scNext := rfl
@[simp] theorem State.defer_scNow (d : Deferred) : (s.defer d).scNow = s.scNow := rfl
@[simp] theorem State.defer_pw (d : Deferred) : (s.defer d).pw = s.pw := rfl
@[simp] theorem State.defer_port (d : Deferred) : (s.defer d).port = s.port := rfl
@[simp] theorem State.defer_tile (d : Deferred) : (s.defer d).tile = s.tile := rfl
@[simp] theorem State.defer_tileWritten (d : Deferred) : (s.defer d).tileWritten = s.tileWritten := rfl
@[simp] theorem State.defer_lock (d : Deferred) : (s.defer d).lock = s.lock := rfl
@[simp] theorem State.defer_applied (d : Deferred) : (s.defer d).applied = s.applied := rfl
@[simp] theorem State.defer_shadow (d : Deferred) : (s.defer d).shadow = s.shadow := rfl
@[simp] theorem State.defer_pend (d : Deferred) : (s.defer d).pend = s.pend := rfl
@[simp] theorem State.defer_cause (d : Deferred) : (s.defer d).cause = s.cause := rfl
@[simp] theorem State.defer_enable (d : Deferred) : (s.defer d).enable = s.enable := rfl
@[simp] theorem State.defer_attn (d : Deferred) : (s.defer d).attn = s.attn := rfl
@[simp] theorem State.defer_mem (d : Deferred) : (s.defer d).mem = s.mem := rfl
@[simp] theorem State.defer_rings (d : Deferred) : (s.defer d).rings = s.rings := rfl
@[simp] theorem State.defer_drv (d : Deferred) : (s.defer d).drv = s.drv := rfl
@[simp] theorem State.defer_sup (d : Deferred) : (s.defer d).sup = s.sup := rfl
@[simp] theorem State.defer_thm (d : Deferred) : (s.defer d).thm = s.thm := rfl
@[simp] theorem State.defer_jnl (d : Deferred) : (s.defer d).jnl = s.jnl := rfl
@[simp] theorem State.defer_cnv (d : Deferred) : (s.defer d).cnv = s.cnv := rfl
@[simp] theorem State.defer_cnt (d : Deferred) : (s.defer d).cnt = s.cnt := rfl
@[simp] theorem State.defer_log (d : Deferred) : (s.defer d).log = s.log := rfl
@[simp] theorem State.defer_overflow (d : Deferred) : (s.defer d).overflow = s.overflow := rfl
@[simp] theorem State.defer_tap (d : Deferred) : (s.defer d).tap = s.tap := rfl
@[simp] theorem State.defer_later (d : Deferred) : (s.defer d).later = s.later ++ [d] := rfl

@[simp] theorem State.err_pending (e : HostError) : (s.err e).pending = s.pending := rfl
@[simp] theorem State.err_now (e : HostError) : (s.err e).now = s.now := rfl
@[simp] theorem State.err_free (e : HostError) : (s.err e).free = s.free := rfl
@[simp] theorem State.err_edge (e : HostError) : (s.err e).edge = s.edge := rfl
@[simp] theorem State.err_later (e : HostError) : (s.err e).later = s.later := rfl
@[simp] theorem State.err_scNext (e : HostError) : (s.err e).scNext = s.scNext := rfl
@[simp] theorem State.err_scNow (e : HostError) : (s.err e).scNow = s.scNow := rfl
@[simp] theorem State.err_pw (e : HostError) : (s.err e).pw = s.pw := rfl
@[simp] theorem State.err_port (e : HostError) : (s.err e).port = s.port := rfl
@[simp] theorem State.err_tile (e : HostError) : (s.err e).tile = s.tile := rfl
@[simp] theorem State.err_tileWritten (e : HostError) : (s.err e).tileWritten = s.tileWritten := rfl
@[simp] theorem State.err_lock (e : HostError) : (s.err e).lock = s.lock := rfl
@[simp] theorem State.err_applied (e : HostError) : (s.err e).applied = s.applied := rfl
@[simp] theorem State.err_shadow (e : HostError) : (s.err e).shadow = s.shadow := rfl
@[simp] theorem State.err_pend (e : HostError) : (s.err e).pend = s.pend := rfl
@[simp] theorem State.err_cause (e : HostError) : (s.err e).cause = s.cause := rfl
@[simp] theorem State.err_enable (e : HostError) : (s.err e).enable = s.enable := rfl
@[simp] theorem State.err_attn (e : HostError) : (s.err e).attn = s.attn := rfl
@[simp] theorem State.err_mem (e : HostError) : (s.err e).mem = s.mem := rfl
@[simp] theorem State.err_rings (e : HostError) : (s.err e).rings = s.rings := rfl
@[simp] theorem State.err_drv (e : HostError) : (s.err e).drv = s.drv := rfl
@[simp] theorem State.err_sup (e : HostError) : (s.err e).sup = s.sup := rfl
@[simp] theorem State.err_thm (e : HostError) : (s.err e).thm = s.thm := rfl
@[simp] theorem State.err_jnl (e : HostError) : (s.err e).jnl = s.jnl := rfl
@[simp] theorem State.err_cnv (e : HostError) : (s.err e).cnv = s.cnv := rfl
@[simp] theorem State.err_cnt (e : HostError) : (s.err e).cnt = s.cnt := rfl
@[simp] theorem State.err_log (e : HostError) : (s.err e).log = s.log := rfl
@[simp] theorem State.err_overflow (e : HostError) : (s.err e).overflow = s.overflow := rfl
@[simp] theorem State.err_tap (e : HostError) : (s.err e).tap = s.tap := rfl
@[simp] theorem State.err_wild (e : HostError) : (s.err e).wild = s.wild.or (some e) := rfl

@[simp] theorem State.scReads_pending (w : Word) : (s.scReads w).pending = s.pending := rfl
@[simp] theorem State.scReads_now (w : Word) : (s.scReads w).now = s.now := rfl
@[simp] theorem State.scReads_free (w : Word) : (s.scReads w).free = s.free := rfl
@[simp] theorem State.scReads_wild (w : Word) : (s.scReads w).wild = s.wild := rfl
@[simp] theorem State.scReads_edge (w : Word) : (s.scReads w).edge = s.edge := rfl
@[simp] theorem State.scReads_later (w : Word) : (s.scReads w).later = s.later := rfl
@[simp] theorem State.scReads_scNow (w : Word) : (s.scReads w).scNow = s.scNow := rfl
@[simp] theorem State.scReads_pw (w : Word) : (s.scReads w).pw = s.pw := rfl
@[simp] theorem State.scReads_port (w : Word) : (s.scReads w).port = s.port := rfl
@[simp] theorem State.scReads_tile (w : Word) : (s.scReads w).tile = s.tile := rfl
@[simp] theorem State.scReads_tileWritten (w : Word) : (s.scReads w).tileWritten = s.tileWritten := rfl
@[simp] theorem State.scReads_lock (w : Word) : (s.scReads w).lock = s.lock := rfl
@[simp] theorem State.scReads_applied (w : Word) : (s.scReads w).applied = s.applied := rfl
@[simp] theorem State.scReads_shadow (w : Word) : (s.scReads w).shadow = s.shadow := rfl
@[simp] theorem State.scReads_pend (w : Word) : (s.scReads w).pend = s.pend := rfl
@[simp] theorem State.scReads_cause (w : Word) : (s.scReads w).cause = s.cause := rfl
@[simp] theorem State.scReads_enable (w : Word) : (s.scReads w).enable = s.enable := rfl
@[simp] theorem State.scReads_attn (w : Word) : (s.scReads w).attn = s.attn := rfl
@[simp] theorem State.scReads_mem (w : Word) : (s.scReads w).mem = s.mem := rfl
@[simp] theorem State.scReads_rings (w : Word) : (s.scReads w).rings = s.rings := rfl
@[simp] theorem State.scReads_drv (w : Word) : (s.scReads w).drv = s.drv := rfl
@[simp] theorem State.scReads_sup (w : Word) : (s.scReads w).sup = s.sup := rfl
@[simp] theorem State.scReads_thm (w : Word) : (s.scReads w).thm = s.thm := rfl
@[simp] theorem State.scReads_jnl (w : Word) : (s.scReads w).jnl = s.jnl := rfl
@[simp] theorem State.scReads_cnv (w : Word) : (s.scReads w).cnv = s.cnv := rfl
@[simp] theorem State.scReads_cnt (w : Word) : (s.scReads w).cnt = s.cnt := rfl
@[simp] theorem State.scReads_log (w : Word) : (s.scReads w).log = s.log := rfl
@[simp] theorem State.scReads_overflow (w : Word) : (s.scReads w).overflow = s.overflow := rfl
@[simp] theorem State.scReads_tap (w : Word) : (s.scReads w).tap = s.tap := rfl
@[simp] theorem State.scReads_scNext (w : Word) : (s.scReads w).scNext = s.scNext ||| w := rfl

@[simp] theorem State.setCause_pending (m : Word) : (s.setCause m).pending = s.pending := rfl
@[simp] theorem State.setCause_now (m : Word) : (s.setCause m).now = s.now := rfl
@[simp] theorem State.setCause_free (m : Word) : (s.setCause m).free = s.free := rfl
@[simp] theorem State.setCause_wild (m : Word) : (s.setCause m).wild = s.wild := rfl
@[simp] theorem State.setCause_later (m : Word) : (s.setCause m).later = s.later := rfl
@[simp] theorem State.setCause_scNext (m : Word) : (s.setCause m).scNext = s.scNext := rfl
@[simp] theorem State.setCause_scNow (m : Word) : (s.setCause m).scNow = s.scNow := rfl
@[simp] theorem State.setCause_pw (m : Word) : (s.setCause m).pw = s.pw := rfl
@[simp] theorem State.setCause_port (m : Word) : (s.setCause m).port = s.port := rfl
@[simp] theorem State.setCause_tile (m : Word) : (s.setCause m).tile = s.tile := rfl
@[simp] theorem State.setCause_tileWritten (m : Word) : (s.setCause m).tileWritten = s.tileWritten := rfl
@[simp] theorem State.setCause_lock (m : Word) : (s.setCause m).lock = s.lock := rfl
@[simp] theorem State.setCause_applied (m : Word) : (s.setCause m).applied = s.applied := rfl
@[simp] theorem State.setCause_shadow (m : Word) : (s.setCause m).shadow = s.shadow := rfl
@[simp] theorem State.setCause_pend (m : Word) : (s.setCause m).pend = s.pend := rfl
@[simp] theorem State.setCause_enable (m : Word) : (s.setCause m).enable = s.enable := rfl
@[simp] theorem State.setCause_attn (m : Word) : (s.setCause m).attn = s.attn := rfl
@[simp] theorem State.setCause_mem (m : Word) : (s.setCause m).mem = s.mem := rfl
@[simp] theorem State.setCause_rings (m : Word) : (s.setCause m).rings = s.rings := rfl
@[simp] theorem State.setCause_drv (m : Word) : (s.setCause m).drv = s.drv := rfl
@[simp] theorem State.setCause_sup (m : Word) : (s.setCause m).sup = s.sup := rfl
@[simp] theorem State.setCause_thm (m : Word) : (s.setCause m).thm = s.thm := rfl
@[simp] theorem State.setCause_jnl (m : Word) : (s.setCause m).jnl = s.jnl := rfl
@[simp] theorem State.setCause_cnv (m : Word) : (s.setCause m).cnv = s.cnv := rfl
@[simp] theorem State.setCause_cnt (m : Word) : (s.setCause m).cnt = s.cnt := rfl
@[simp] theorem State.setCause_log (m : Word) : (s.setCause m).log = s.log := rfl
@[simp] theorem State.setCause_overflow (m : Word) : (s.setCause m).overflow = s.overflow := rfl
@[simp] theorem State.setCause_tap (m : Word) : (s.setCause m).tap = s.tap := rfl
@[simp] theorem State.setCause_cause (m : Word) : (s.setCause m).cause = s.cause ||| m := rfl

@[simp] theorem State.setStatus_pending (m : Word) : (s.setStatus m).pending = s.pending := rfl
@[simp] theorem State.setStatus_now (m : Word) : (s.setStatus m).now = s.now := rfl
@[simp] theorem State.setStatus_free (m : Word) : (s.setStatus m).free = s.free := rfl
@[simp] theorem State.setStatus_wild (m : Word) : (s.setStatus m).wild = s.wild := rfl
@[simp] theorem State.setStatus_later (m : Word) : (s.setStatus m).later = s.later := rfl
@[simp] theorem State.setStatus_scNext (m : Word) : (s.setStatus m).scNext = s.scNext := rfl
@[simp] theorem State.setStatus_scNow (m : Word) : (s.setStatus m).scNow = s.scNow := rfl
@[simp] theorem State.setStatus_port (m : Word) : (s.setStatus m).port = s.port := rfl
@[simp] theorem State.setStatus_tile (m : Word) : (s.setStatus m).tile = s.tile := rfl
@[simp] theorem State.setStatus_tileWritten (m : Word) : (s.setStatus m).tileWritten = s.tileWritten := rfl
@[simp] theorem State.setStatus_lock (m : Word) : (s.setStatus m).lock = s.lock := rfl
@[simp] theorem State.setStatus_applied (m : Word) : (s.setStatus m).applied = s.applied := rfl
@[simp] theorem State.setStatus_shadow (m : Word) : (s.setStatus m).shadow = s.shadow := rfl
@[simp] theorem State.setStatus_pend (m : Word) : (s.setStatus m).pend = s.pend := rfl
@[simp] theorem State.setStatus_enable (m : Word) : (s.setStatus m).enable = s.enable := rfl
@[simp] theorem State.setStatus_attn (m : Word) : (s.setStatus m).attn = s.attn := rfl
@[simp] theorem State.setStatus_mem (m : Word) : (s.setStatus m).mem = s.mem := rfl
@[simp] theorem State.setStatus_rings (m : Word) : (s.setStatus m).rings = s.rings := rfl
@[simp] theorem State.setStatus_drv (m : Word) : (s.setStatus m).drv = s.drv := rfl
@[simp] theorem State.setStatus_sup (m : Word) : (s.setStatus m).sup = s.sup := rfl
@[simp] theorem State.setStatus_thm (m : Word) : (s.setStatus m).thm = s.thm := rfl
@[simp] theorem State.setStatus_jnl (m : Word) : (s.setStatus m).jnl = s.jnl := rfl
@[simp] theorem State.setStatus_cnv (m : Word) : (s.setStatus m).cnv = s.cnv := rfl
@[simp] theorem State.setStatus_cnt (m : Word) : (s.setStatus m).cnt = s.cnt := rfl
@[simp] theorem State.setStatus_log (m : Word) : (s.setStatus m).log = s.log := rfl
@[simp] theorem State.setStatus_overflow (m : Word) : (s.setStatus m).overflow = s.overflow := rfl
@[simp] theorem State.setStatus_tap (m : Word) : (s.setStatus m).tap = s.tap := rfl
@[simp] theorem State.setStatus_cause (m : Word) : (s.setStatus m).cause = s.cause ||| m := rfl

@[simp] theorem State.setSetupst_pending (m : Word) : (s.setSetupst m).pending = s.pending := rfl
@[simp] theorem State.setSetupst_now (m : Word) : (s.setSetupst m).now = s.now := rfl
@[simp] theorem State.setSetupst_free (m : Word) : (s.setSetupst m).free = s.free := rfl
@[simp] theorem State.setSetupst_wild (m : Word) : (s.setSetupst m).wild = s.wild := rfl
@[simp] theorem State.setSetupst_later (m : Word) : (s.setSetupst m).later = s.later := rfl
@[simp] theorem State.setSetupst_scNext (m : Word) : (s.setSetupst m).scNext = s.scNext := rfl
@[simp] theorem State.setSetupst_scNow (m : Word) : (s.setSetupst m).scNow = s.scNow := rfl
@[simp] theorem State.setSetupst_pw (m : Word) : (s.setSetupst m).pw = s.pw := rfl
@[simp] theorem State.setSetupst_tile (m : Word) : (s.setSetupst m).tile = s.tile := rfl
@[simp] theorem State.setSetupst_tileWritten (m : Word) : (s.setSetupst m).tileWritten = s.tileWritten := rfl
@[simp] theorem State.setSetupst_lock (m : Word) : (s.setSetupst m).lock = s.lock := rfl
@[simp] theorem State.setSetupst_applied (m : Word) : (s.setSetupst m).applied = s.applied := rfl
@[simp] theorem State.setSetupst_shadow (m : Word) : (s.setSetupst m).shadow = s.shadow := rfl
@[simp] theorem State.setSetupst_pend (m : Word) : (s.setSetupst m).pend = s.pend := rfl
@[simp] theorem State.setSetupst_enable (m : Word) : (s.setSetupst m).enable = s.enable := rfl
@[simp] theorem State.setSetupst_attn (m : Word) : (s.setSetupst m).attn = s.attn := rfl
@[simp] theorem State.setSetupst_mem (m : Word) : (s.setSetupst m).mem = s.mem := rfl
@[simp] theorem State.setSetupst_rings (m : Word) : (s.setSetupst m).rings = s.rings := rfl
@[simp] theorem State.setSetupst_drv (m : Word) : (s.setSetupst m).drv = s.drv := rfl
@[simp] theorem State.setSetupst_sup (m : Word) : (s.setSetupst m).sup = s.sup := rfl
@[simp] theorem State.setSetupst_thm (m : Word) : (s.setSetupst m).thm = s.thm := rfl
@[simp] theorem State.setSetupst_jnl (m : Word) : (s.setSetupst m).jnl = s.jnl := rfl
@[simp] theorem State.setSetupst_cnv (m : Word) : (s.setSetupst m).cnv = s.cnv := rfl
@[simp] theorem State.setSetupst_cnt (m : Word) : (s.setSetupst m).cnt = s.cnt := rfl
@[simp] theorem State.setSetupst_log (m : Word) : (s.setSetupst m).log = s.log := rfl
@[simp] theorem State.setSetupst_overflow (m : Word) : (s.setSetupst m).overflow = s.overflow := rfl
@[simp] theorem State.setSetupst_tap (m : Word) : (s.setSetupst m).tap = s.tap := rfl
@[simp] theorem State.setSetupst_cause (m : Word) : (s.setSetupst m).cause = s.cause ||| bitMask 13 := rfl

end Sys2Proof.Machine
end

