-- ==== Sys2Proof/Laws/Settle.lean ====
section
/-! SUPPORT. What settling can change: everything else is as it was. -/

namespace Sys2Proof.Machine

/-! ### Erasing what settling may change -/

/-- A ring without what settling may change. -/
def Ring.still (r : Ring) : Ring := { r with fetched := [], issued := [], comp := 0, work := none, headDue := false, barrier := none }

/-- The state without what settling may change, the replay that a check owes aside. -/
def State.still (s : State) : State :=
  { s with
    edge := EdgeRec.none
    later := []
    cause := 0
    pw := { s.pw with armed0 := 0 }
    applied := { s.applied with drive := Staged.reset.drive }
    pend := { s.pend with drive := none }
    rings := s.rings.map Ring.still
    drv := { s.drv with frames := none, sliced := false, changed := [], changed0 := [] }
    sup := { s.sup with phase := .off, started := false, floats := 0 }
    jnl := { s.jnl with slots := [], queue := [], replay := none }
    cnv := { s.cnv with epoch := 0, drv := false, voted := false, wake := false, high := false, rel := 0 }
    cnt := Counters.reset }

theorem map_set_of_eq {α β : Type} (v : Vector α 4) (n : Fin 4) (x : α) (g : α → β) (h : g x = g v[n]) :
    (v.set n x).map g = v.map g := by
  ext i hi
  simp only [Vector.getElem_map, Vector.getElem_set]
  split
  · next e => subst e; exact h
  · rfl

theorem State.onRing_still (s : State) (n : RingNo) (f : Ring → Ring) (h : (f s.rings[n]).still = s.rings[n].still) :
    (s.onRing n f).still = s.still := by
  simp only [State.still, State.onRing, map_set_of_eq _ _ _ _ h]

@[simp] theorem State.defer_still (s : State) (d : Deferred) : (s.defer d).still = s.still := rfl
@[simp] theorem State.setCause_still (s : State) (m : Word) : (s.setCause m).still = s.still := rfl
@[simp] theorem State.onEdge_still (s : State) (f : EdgeRec → EdgeRec) : (s.onEdge f).still = s.still := rfl

@[simp] theorem State.putCnt_still (s : State) (c : Cnt) (v : Word) (e : Bool) : (s.putCnt c v e).still = s.still := by
  unfold State.putCnt; split <;> rfl

@[simp] theorem State.count_still (s : State) (c : Cnt) : (s.count c).still = s.still := by
  unfold State.count; simp

@[simp] theorem State.finishEntry_still (s : State) (n : RingNo) (i : BitVec 16) : (s.finishEntry n i).still = s.still := by
  unfold State.finishEntry; rw [State.onEdge_still, State.onRing_still]; rfl

@[simp] theorem State.startDischarge_still (s : State) : s.startDischarge.still = s.still := rfl
@[simp] theorem State.onSlot_still (s : State) (q : Nat) (f : OpenSlot → OpenSlot) : (s.onSlot q f).still = s.still := rfl
@[simp] theorem State.enqueue_still (s : State) (a : Access) : (s.enqueue a).still = s.still := rfl

@[simp] theorem State.requestMark_still (s : State) (q : Nat) (k : Asker) : (s.requestMark q k).still = s.still := by
  unfold State.requestMark
  split
  · rfl
  · split
    · split <;> simp
    · simp

theorem foldl_still {α : Type} (f : State → α → State) (h : ∀ s a, (f s a).still = s.still) (l : List α) (s : State) :
    (l.foldl f s).still = s.still := by
  induction l generalizing s with
  | nil => rfl
  | cons a t ih => rw [List.foldl_cons, ih, h]

@[simp] theorem State.replayCloses_still (s : State) : s.replayCloses.still = s.still := by
  unfold State.replayCloses
  split
  · exact foldl_still _ (fun s q => by dsimp only; split <;> simp) _ _
  · rfl

@[simp] theorem State.replayDischarge_still (s : State) : s.replayDischarge.still = s.still := by
  unfold State.replayDischarge
  simp only
  split
  · rw [State.startDischarge_still]; rfl
  · rw [State.startDischarge_still]; rfl
  all_goals first
    | rfl
    | (split
       · split
         · rfl
         · rw [State.replayCloses_still]; rfl
       · rfl)

@[simp] theorem State.askIntent_still (s : State) : s.askIntent.still = s.still := by
  unfold State.askIntent
  repeat' split
  all_goals simp

@[simp] theorem State.releaseFloats_still (s : State) : s.releaseFloats.still = s.still := rfl

@[simp] theorem State.unsense_still (s : State) : s.unsense.still = s.still := by
  unfold State.unsense; split <;> simp

@[simp] theorem State.dropGo_still (s : State) : s.dropGo.still = s.still := by
  unfold State.dropGo State.still
  simp only [Vector.map_map]
  rfl

@[simp] theorem State.replayNext_still (s : State) (b : Bool) : (s.replayNext b).still = s.still := by
  unfold State.replayNext
  split
  · simp only
    split
    · rw [State.replayDischarge_still]; rfl
    · rw [State.askIntent_still]; rfl
  · rfl

@[simp] theorem State.applyDrive_still (s : State) : s.applyDrive.still = s.still := by
  unfold State.applyDrive
  split
  · split <;> rfl
  · rfl

@[simp] theorem State.checkAhead_still (s : State) : s.checkAhead.still = s.still := by
  unfold State.checkAhead State.still
  simp only [Vector.map_map]
  rfl

@[simp] theorem State.drive_still (s : State) (l : List Level) : (s.drive l).still = s.still := s.unsense_still

@[simp] theorem State.startFrame_still (s : State) (l : List Level) : (s.startFrame l).still = s.still := by
  unfold State.startFrame
  rw [State.drive_still, State.count_still]
  calc _ = s.applyDrive.checkAhead.still := rfl
    _ = s.still := by simp

@[simp] theorem State.startReplayFrame_still (s : State) : s.startReplayFrame.still = s.still := by
  unfold State.startReplayFrame
  split
  · split
    · rw [State.startFrame_still]
      calc _ = s.applyDrive.checkAhead.releaseFloats.still := rfl
        _ = s.still := by simp
    · rfl
  · rfl

@[simp] theorem State.settleReplay_still (s : State) : s.settleReplay.still = s.still := by
  unfold State.settleReplay
  repeat' split
  all_goals simp

@[simp] theorem State.settleSequencing_still (s : State) : s.settleSequencing.still = s.still := by
  unfold State.settleSequencing
  repeat' split
  all_goals simp

@[simp] theorem State.settleWindDown_still (s : State) : s.settleWindDown.still = s.still := by
  unfold State.settleWindDown
  repeat' split
  all_goals simp

@[simp] theorem State.settleCfg_still (s : State) : s.settleCfg.still = s.still := by
  unfold State.settleCfg
  refine foldl_still _ (fun s n => ?_) _ _
  repeat' split
  all_goals simp

@[simp] theorem State.settleBar_still (s : State) : s.settleBar.still = s.still := by
  unfold State.settleBar
  repeat' split
  all_goals first | rfl | (rw [State.dropGo_still]; rfl) | (simp only [State.count_still, State.setCause_still]; rfl)

@[simp] theorem State.holdArm_still (s : State) : s.holdArm.still = s.still := by
  unfold State.holdArm
  split <;> rfl

@[simp] theorem State.keepOrder_still (s : State) (n : RingNo) : (s.keepOrder n).still = s.still := by
  unfold State.keepOrder State.still
  simp only
  rw [map_set_of_eq]
  rfl

/-! ### The replay that a check owes (R78, R334) -/

/-- What settling leaves alone: `State.still` without the state of the engine and the mark of a stopped replay, which the start of a replay
changes. -/
def State.lasting (s : State) : State :=
  { s.still with pw := { s.still.pw with st := .idle }, jnl := { s.still.jnl with owed := false } }

theorem lasting_of_still {s t : State} (h : t.still = s.still) : t.lasting = s.lasting := by
  unfold State.lasting; rw [h]

@[simp] theorem State.startReplay_lasting (s : State) : s.startReplay.lasting = s.lasting := by
  unfold State.startReplay
  exact (lasting_of_still (State.askIntent_still _)).trans rfl

/-- A replay starts only from IDLE, ARMED or HELD, for open slots that a check has found. -/
theorem State.settleCheck_same (s : State)
    (h : s.jnl.gateAfter = false ∨ s.pw.jopen = false ∨ s.pw.busy = true ∨ s.jnl.scan.isSome = true ∨ s.jnl.replay.isSome = true ∨
      (s.pw.st ≠ .idle ∧ s.pw.st ≠ .armed ∧ s.pw.st ≠ .held)) : s.settleCheck = s := by
  unfold State.settleCheck
  refine if_neg fun e => ?_
  simp only [Bool.and_eq_true, Bool.or_eq_true, decide_eq_true_eq, Bool.not_eq_true', Option.isNone_iff_eq_none] at e
  obtain ⟨⟨⟨⟨⟨⟨⟨h1, h2⟩, h3⟩, h4⟩, h5⟩, h6⟩, -⟩, -⟩ := e
  rcases h with h | h | h | h | h | ⟨a, b, c⟩
  · simp [h] at h1
  · simp [h] at h2
  · simp [h] at h5
  · simp [h3] at h
  · simp [h4] at h
  · rcases h6 with (h6 | h6) | h6
    · exact a h6
    · exact b h6
    · exact c h6

@[simp] theorem State.settleCheck_lasting (s : State) : s.settleCheck.lasting = s.lasting := by
  unfold State.settleCheck; split <;> simp

/-- Settling: first the replay that a check owes, then what leaves alone what `still` keeps. -/
theorem State.settle_cases (s : State) : s.settle = s ∨ s.settle.still = s.settleCheck.still := by
  unfold State.settle
  split
  · right; rw [foldl_still _ (fun s n => by simp)]; simp
  · exact .inl rfl

/-- Settling changes nothing that `lasting` keeps. -/
@[simp] theorem State.settle_lasting (s : State) : s.settle.lasting = s.lasting := by
  rcases s.settle_cases with h | h
  · rw [h]
  · rw [lasting_of_still h, State.settleCheck_lasting]

/-- Where no check owes a replay, settling changes nothing that `still` keeps. -/
theorem State.settle_still (s : State) (h : s.settleCheck = s) : s.settle.still = s.still := by
  rcases s.settle_cases with e | e
  · rw [e]
  · rw [e, h]

/-! ### The fields that settling leaves alone -/

@[simp] theorem State.settle_pending (s : State) : s.settle.pending = s.pending := (congrArg State.pending s.settle_lasting :)
@[simp] theorem State.settle_now (s : State) : s.settle.now = s.now := (congrArg State.now s.settle_lasting :)
@[simp] theorem State.settle_free (s : State) : s.settle.free = s.free := (congrArg State.free s.settle_lasting :)
@[simp] theorem State.settle_wild (s : State) : s.settle.wild = s.wild := (congrArg State.wild s.settle_lasting :)
@[simp] theorem State.settle_scNext (s : State) : s.settle.scNext = s.scNext := (congrArg State.scNext s.settle_lasting :)
@[simp] theorem State.settle_scNow (s : State) : s.settle.scNow = s.scNow := (congrArg State.scNow s.settle_lasting :)
@[simp] theorem State.settle_port (s : State) : s.settle.port = s.port := (congrArg State.port s.settle_lasting :)
@[simp] theorem State.settle_tile (s : State) : s.settle.tile = s.tile := (congrArg State.tile s.settle_lasting :)
@[simp] theorem State.settle_tileWritten (s : State) : s.settle.tileWritten = s.tileWritten :=
  (congrArg State.tileWritten s.settle_lasting :)
@[simp] theorem State.settle_lock (s : State) : s.settle.lock = s.lock := (congrArg State.lock s.settle_lasting :)
@[simp] theorem State.settle_shadow (s : State) : s.settle.shadow = s.shadow := (congrArg State.shadow s.settle_lasting :)
@[simp] theorem State.settle_enable (s : State) : s.settle.enable = s.enable := (congrArg State.enable s.settle_lasting :)
@[simp] theorem State.settle_attn (s : State) : s.settle.attn = s.attn := (congrArg State.attn s.settle_lasting :)
@[simp] theorem State.settle_mem (s : State) : s.settle.mem = s.mem := (congrArg State.mem s.settle_lasting :)
@[simp] theorem State.settle_thm (s : State) : s.settle.thm = s.thm := (congrArg State.thm s.settle_lasting :)
@[simp] theorem State.settle_log (s : State) : s.settle.log = s.log := (congrArg State.log s.settle_lasting :)
@[simp] theorem State.settle_overflow (s : State) : s.settle.overflow = s.overflow := (congrArg State.overflow s.settle_lasting :)
@[simp] theorem State.settle_tap (s : State) : s.settle.tap = s.tap := (congrArg State.tap s.settle_lasting :)

/-- Settling leaves the power unit alone, but for the state and the count of the ARMED timeout. -/
theorem State.settle_pw (s : State) : { s.settle.pw with armed0 := 0, st := .idle } = { s.pw with armed0 := 0, st := .idle } :=
  (congrArg State.pw s.settle_lasting :)

/-- Settling leaves the state of the engine alone unless a check owes a replay. -/
theorem State.settle_st (s : State) (h : s.settleCheck = s) : s.settle.pw.st = s.pw.st :=
  (congrArg (fun t : State => t.pw.st) (s.settle_still h) :)
@[simp] theorem State.settle_por (s : State) : s.settle.pw.por = s.pw.por := (congrArg Power.por s.settle_pw :)
@[simp] theorem State.settle_rstn (s : State) : s.settle.pw.rstn = s.pw.rstn := (congrArg Power.rstn s.settle_pw :)
@[simp] theorem State.settle_hck (s : State) : s.settle.pw.hck = s.pw.hck := (congrArg Power.hck s.settle_pw :)
@[simp] theorem State.settle_qual (s : State) : s.settle.pw.qual = s.pw.qual := (congrArg Power.qual s.settle_pw :)
@[simp] theorem State.settle_strap1 (s : State) : s.settle.pw.strap1 = s.pw.strap1 := (congrArg Power.strap1 s.settle_pw :)
@[simp] theorem State.settle_strap2 (s : State) : s.settle.pw.strap2 = s.pw.strap2 := (congrArg Power.strap2 s.settle_pw :)
@[simp] theorem State.settle_addr (s : State) : s.settle.pw.addr = s.pw.addr := (congrArg Power.addr s.settle_pw :)
@[simp] theorem State.settle_sd (s : State) : s.settle.pw.sd = s.pw.sd := (congrArg Power.sd s.settle_pw :)
@[simp] theorem State.settle_uvlo (s : State) : s.settle.pw.uvlo = s.pw.uvlo := (congrArg Power.uvlo s.settle_pw :)
@[simp] theorem State.settle_status (s : State) : s.settle.pw.status = s.pw.status := (congrArg Power.status s.settle_pw :)
@[simp] theorem State.settle_busy (s : State) : s.settle.pw.busy = s.pw.busy := (congrArg Power.busy s.settle_pw :)
@[simp] theorem State.settle_jopen (s : State) : s.settle.pw.jopen = s.pw.jopen := (congrArg Power.jopen s.settle_pw :)

/-- Settling leaves the supply alone, but for the start of a discharge and the first frame of a replay. -/
theorem State.settle_sup (s : State) :
    { s.settle.sup with phase := .off, started := false, floats := 0 } = { s.sup with phase := .off, started := false, floats := 0 } :=
  (congrArg State.sup s.settle_lasting :)

@[simp] theorem State.settle_railsUp (s : State) : s.settle.sup.railsUp = s.sup.railsUp := (congrArg Supply.railsUp s.settle_sup :)
@[simp] theorem State.settle_fault (s : State) : s.settle.sup.fault = s.sup.fault := (congrArg Supply.fault s.settle_sup :)
@[simp] theorem State.settle_limited (s : State) : s.settle.sup.limited = s.sup.limited := (congrArg Supply.limited s.settle_sup :)

/-- A ring's registers after settling. -/
theorem State.settle_ring (s : State) (n : RingNo) : s.settle.rings[n].still = s.rings[n].still := by
  have h := (congrArg State.rings s.settle_lasting :)
  simp only [State.lasting, State.still] at h
  have h2 := congrArg (fun v => v[n]) h
  simpa using h2

end Sys2Proof.Machine
end

