-- ==== Sys2Proof/Laws/Elapse.lean ====
section
/-! SUPPORT. What HCK edges alone can change: everything else is as it was. The form of a command: when it answers a next state. -/

namespace Sys2Proof.Machine

/-- A ring without what edges may change. -/
def Ring.calm (r : Ring) : Ring := { r.still with parkHead := none }

/-- A transaction without the stretches that edges add (R153). -/
def Txn.loose (t : Txn) : Txn := { t with stretch := [] }

/-- The state without what edges may change while the set-up bus rests. -/
def State.fixed (s : State) : State :=
  { s.still with
    now := 0
    scNext := 0
    scNow := 0
    attn := false
    pw := { s.pw with st := .idle, trim := false, armed0 := 0, off0 := 0, jopen := false, status := 0, hccnt := 0 }
    applied := { s.applied with drive := Staged.reset.drive, supply := Staged.reset.supply }
    pend := { s.pend with drive := none, supply := none }
    mem := { s.mem with cur := none, parked := [], mrdy1 := true, mrdy2 := true, txn := s.mem.txn.map Txn.loose }
    rings := s.rings.map Ring.calm
    drv := { s.drv with frames := none, sliced := false, dcb := [], changed := [], changed0 := [] }
    sup := { Supply.reset with vlim := s.sup.vlim, fault := s.sup.fault, near := s.sup.near, qpos := s.sup.qpos, qneg := s.sup.qneg }
    thm := { s.thm with host := 0, current := false, age := 0, tpan := 0, source := false, wrangeOut := false, points := [] }
    jnl := { s.jnl with slots := [], queue := [], replay := none, gate := false, gateAfter := false, owed := false }
    log := []
    overflow := 0 }

theorem State.fixed_still (s : State) : s.still.fixed = s.fixed := by
  unfold State.fixed State.still
  simp only [Vector.map_map]
  rfl

theorem fixed_of_still {s t : State} (h : t.still = s.still) : t.fixed = s.fixed := by
  rw [← t.fixed_still, h, s.fixed_still]

theorem State.fixed_lasting (s : State) : s.lasting.fixed = s.fixed := s.fixed_still

theorem fixed_of_lasting {s t : State} (h : t.lasting = s.lasting) : t.fixed = s.fixed := by
  rw [← t.fixed_lasting, h, s.fixed_lasting]

@[simp] theorem State.settle_fixed (s : State) : s.settle.fixed = s.fixed := fixed_of_lasting s.settle_lasting
@[simp] theorem State.holdArm_fixed (s : State) : s.holdArm.fixed = s.fixed := fixed_of_still s.holdArm_still
@[simp] theorem State.defer_fixed (s : State) (d : Deferred) : (s.defer d).fixed = s.fixed := rfl
@[simp] theorem State.setCause_fixed (s : State) (m : Word) : (s.setCause m).fixed = s.fixed := rfl
@[simp] theorem State.setStatus_fixed (s : State) (m : Word) : (s.setStatus m).fixed = s.fixed := rfl
@[simp] theorem State.onEdge_fixed (s : State) (f : EdgeRec → EdgeRec) : (s.onEdge f).fixed = s.fixed := rfl
@[simp] theorem State.goTo_fixed (s : State) (x : EngState) : (s.goTo x).fixed = s.fixed := rfl
@[simp] theorem State.count_fixed (s : State) (c : Cnt) : (s.count c).fixed = s.fixed := fixed_of_still (s.count_still c)
@[simp] theorem State.startDischarge_fixed (s : State) : s.startDischarge.fixed = s.fixed := rfl
@[simp] theorem State.onSlot_fixed (s : State) (q : Nat) (f : OpenSlot → OpenSlot) : (s.onSlot q f).fixed = s.fixed := rfl
@[simp] theorem State.finishEntry_fixed (s : State) (n : RingNo) (i : BitVec 16) : (s.finishEntry n i).fixed = s.fixed :=
  fixed_of_still (s.finishEntry_still n i)
@[simp] theorem State.startReplayFrame_fixed (s : State) : s.startReplayFrame.fixed = s.fixed :=
  fixed_of_still s.startReplayFrame_still

@[simp] theorem State.log_fixed (s : State) (c d : Nat) (n : RingNo) (i : Nat) : (s.log_ c d n i).fixed = s.fixed := by
  unfold State.log_; split <;> rfl

theorem State.onRing_fixed (s : State) (n : RingNo) (f : Ring → Ring) (h : (f s.rings[n]).calm = s.rings[n].calm) :
    (s.onRing n f).fixed = s.fixed := by
  have e : (s.onRing n f).rings.map Ring.calm = s.rings.map Ring.calm := map_set_of_eq _ _ _ _ h
  have e2 : (s.onRing n f).fixed = { s.fixed with rings := (s.onRing n f).rings.map Ring.calm } := rfl
  rw [e2, e]; rfl

@[simp] theorem State.onUpdate_fixed (s : State) (n : RingNo) (f : Update → Update) : (s.onUpdate n f).fixed = s.fixed := by
  unfold State.onUpdate
  refine s.onRing_fixed n _ ?_
  split <;> rfl

theorem foldl_fixed {α : Type} (f : State → α → State) (h : ∀ s a, (f s a).fixed = s.fixed) (l : List α) (s : State) :
    (l.foldl f s).fixed = s.fixed := by
  induction l generalizing s with
  | nil => rfl
  | cons a t ih => rw [List.foldl_cons, ih, h]

@[simp] theorem State.interruptRing_fixed (s : State) (c : Cut) (n : RingNo) : (s.interruptRing c n).fixed = s.fixed := by
  unfold State.interruptRing
  split
  · dsimp only
    split
    · split <;> simp
    · rfl
  · rfl

@[simp] theorem State.abandonRing_fixed (s : State) (p : Cut → Bool) (n : RingNo) : (s.abandonRing p n).fixed = s.fixed := by
  unfold State.abandonRing
  repeat' split
  all_goals simp

@[simp] theorem State.abandonCut_fixed (s : State) (p : Cut → Bool) : (s.abandonCut p).fixed = s.fixed :=
  foldl_fixed _ (fun s n => by simp) _ _

@[simp] theorem State.abandonAll_fixed (s : State) : s.abandonAll.fixed = s.fixed := s.abandonCut_fixed _

@[simp] theorem State.enqueue_fixed (s : State) (a : Access) : (s.enqueue a).fixed = s.fixed := rfl

@[simp] theorem State.askIntent_fixed (s : State) : s.askIntent.fixed = s.fixed := fixed_of_still s.askIntent_still

@[simp] theorem State.replayCloses_fixed (s : State) : s.replayCloses.fixed = s.fixed := fixed_of_still s.replayCloses_still

@[simp] theorem State.startReplay_fixed (s : State) : s.startReplay.fixed = s.fixed := by
  unfold State.startReplay
  rw [State.askIntent_fixed]; rfl

@[simp] theorem State.stopReplay_fixed (s : State) : s.stopReplay.fixed = s.fixed := rfl

@[simp] theorem State.replayOver_fixed (s : State) : s.replayOver.fixed = s.fixed := by
  unfold State.replayOver
  dsimp only
  split <;> rfl

@[simp] theorem State.resume_fixed (s : State) : s.resume.fixed = s.fixed := by
  unfold State.resume
  repeat' split
  all_goals simp

@[simp] theorem State.dropBarrier_fixed (s : State) (n : RingNo) : (s.dropBarrier n).fixed = s.fixed := by
  unfold State.dropBarrier
  rw [State.onUpdate_fixed, State.onRing_fixed _ _ _ rfl]

@[simp] theorem State.dropBarriers_fixed (s : State) : s.dropBarriers.fixed = s.fixed := foldl_fixed _ (fun s n => by simp) _ _

@[simp] theorem State.resetRing_fixed (s : State) (n : RingNo) : (s.resetRing n).fixed = s.fixed := by
  unfold State.resetRing
  dsimp only
  split
  · split
    · split
      · simp
      · rw [State.onRing_fixed _ _ _ rfl]; simp
    · simp
  · simp

@[simp] theorem State.enterParking_fixed (s : State) : s.enterParking.fixed = s.fixed := by
  have h : (if s.pw.busy then (List.finRange 4).foldl State.resetRing s else s).fixed = s.fixed := by
    split
    · exact foldl_fixed _ (fun s n => by simp) _ _
    · rfl
  unfold State.enterParking
  simp only
  split
  · rfl
  · revert h
    generalize (if s.pw.busy then (List.finRange 4).foldl State.resetRing s else s) = t
    intro h
    repeat' split
    all_goals simp [h]

@[simp] theorem State.forgetUpdates_fixed (s : State) : s.forgetUpdates.fixed = s.fixed := by
  unfold State.forgetUpdates
  dsimp only
  rw [State.abandonAll_fixed, foldl_fixed _ (fun s n => by simp)]

@[simp] theorem State.forgetSlots_fixed (s : State) : s.forgetSlots.fixed = s.fixed := by
  unfold State.forgetSlots
  rw [State.forgetUpdates_fixed]; rfl

@[simp] theorem State.takeTargets_fixed (s : State) : s.takeTargets.fixed = s.fixed := rfl

@[simp] theorem State.endCodes_fixed (s : State) : s.endCodes.fixed = s.fixed := by
  unfold State.endCodes
  split <;> rfl

@[simp] theorem State.takeSupply_fixed (s : State) : s.takeSupply.fixed = s.fixed := by
  unfold State.takeSupply
  split
  · split <;> rfl
  · rfl

theorem State.clearSupply_fixed (s : State) : ({ s with pend := { s.pend with supply := none } } : State).fixed = s.fixed := rfl

@[simp] theorem State.completeSupply_fixed (s : State) : s.completeSupply.fixed = s.fixed := by
  have h := s.takeSupply_fixed
  unfold State.completeSupply
  dsimp only
  generalize s.takeSupply = t at h
  split
  · split
    · exact h
    · split
      · exact ((t.takeTargets).clearSupply_fixed.trans t.takeTargets_fixed).trans h
      · split
        · exact t.clearSupply_fixed.trans h
        · exact h
  · split
    · exact h
    · exact t.takeTargets_fixed.trans h

@[simp] theorem State.tempTakes_fixed (s : State) : s.tempTakes.fixed = s.fixed := by
  unfold State.tempTakes
  simp only
  split <;> rfl

@[simp] theorem State.enterHeld_fixed (s : State) : s.enterHeld.fixed = s.fixed := by
  unfold State.enterHeld
  simp

@[simp] theorem State.finishPark_fixed (s : State) (n : RingNo) (i : BitVec 16) : (s.finishPark n i).fixed = s.fixed := by
  unfold State.finishPark
  rw [State.onRing_fixed _ _ _ rfl, State.finishEntry_fixed]

@[simp] theorem State.parksFinish_fixed (s : State) : s.parksFinish.fixed = s.fixed := by
  unfold State.parksFinish
  refine foldl_fixed _ (fun s n => ?_) _ _
  split <;> simp

@[simp] theorem State.afterDischarge_fixed (s : State) (h : Bool) : (s.afterDischarge h).fixed = s.fixed := by
  unfold State.afterDischarge
  repeat' split
  all_goals simp

@[simp] theorem State.railsEnded_fixed (s : State) : s.railsEnded.fixed = s.fixed := by
  unfold State.railsEnded
  dsimp only
  rw [State.afterDischarge_fixed, State.parksFinish_fixed]
  exact State.completeSupply_fixed _

@[simp] theorem State.uvloSync_fixed (s : State) (h : Bool) : (s.uvloSync h).fixed = s.fixed := by
  unfold State.uvloSync
  dsimp only
  split
  · simp
  · split <;> simp

@[simp] theorem State.unsense_fixed (s : State) : s.unsense.fixed = s.fixed := fixed_of_still s.unsense_still

@[simp] theorem State.endFoldback_fixed (s : State) : s.endFoldback.fixed = s.fixed := by
  unfold State.endFoldback
  split <;> rfl

@[simp] theorem State.runDeferred_fixed (s : State) (d : Deferred) : (s.runDeferred d).fixed = s.fixed := by
  cases d <;> simp only [State.runDeferred]
  case enterArmed => split <;> rfl
  case enterParking => simp
  case endRecovery =>
    have h : (s.onJnl fun j => { j with replay := none }).replayOver.endCodes.fixed = s.fixed := by
      rw [State.endCodes_fixed, State.replayOver_fixed]; rfl
    repeat' split
    all_goals exact h
  case forgetSlots => simp
  case dropSequencing =>
    split
    · rw [State.afterDischarge_fixed, State.completeSupply_fixed]; rfl
    · rfl
  case tempCurrent => simp
  case floatFaulted => rw [State.unsense_fixed]; rfl
  case dropLimited => rw [State.endFoldback_fixed]; rfl
  case replayFrame => split <;> simp
  case leaveHeld => split <;> simp
  case railsEnd => simp
  case uvloSeen => simp
  all_goals rfl

theorem switchRun_eq (conv : Word) (fuel k : Nat) (u : Supply) :
    ∃ a b c, switchRun conv fuel k u = { u with lfsr := a, divider := b, swLeft := c } := by
  induction fuel generalizing k u with
  | zero => exact ⟨_, _, _, rfl⟩
  | succ n ih =>
    unfold switchRun
    split
    · exact ⟨_, _, _, rfl⟩
    · obtain ⟨a, b, c, h⟩ := ih _ _
      exact ⟨a, b, c, h⟩

/-- The converter's run moves its divider and its dither only. -/
theorem Supply.run_eq (u : Supply) (conv : Word) (k : Nat) :
    ∃ a b c, u.run conv k = { u with lfsr := a, divider := b, swLeft := c } := by
  unfold Supply.run
  split
  · exact ⟨_, _, _, rfl⟩
  · split
    · exact switchRun_eq _ _ _ _
    · split <;> exact ⟨_, _, _, rfl⟩

@[simp] theorem State.addEnergy_fixed (s : State) (e : Nat) : (s.addEnergy e).fixed = s.fixed := rfl

@[simp] theorem State.drawLogic_fixed (s : State) : s.drawLogic.fixed = s.fixed := s.addEnergy_fixed _

@[simp] theorem State.passMrdy_fixed (s : State) (k : Nat) : (s.passMrdy k).fixed = s.fixed := by
  unfold State.passMrdy State.onMem State.fixed State.still
  dsimp only
  split
  · cases s.mem.txn <;> rfl
  · rfl

/-! ### One edge -/

/-- One edge leaves alone what `fixed` keeps, and the port puts on SDA what it has decided. -/
theorem State.advance_fixed (s : State) : s.advance.fixed = { s.fixed with port := s.port.put } := by
  have e : s.advance.fixed = ({ s.passMrdy 1 with port := s.port.put } : State).fixed := by
    unfold State.advance
    dsimp only
    rw [State.settle_fixed, State.takeSupply_fixed, foldl_fixed _ (fun s d => by simp), State.drawLogic_fixed]
    obtain ⟨a, b, c, h⟩ := (s.passMrdy 1).sup.run_eq (s.passMrdy 1).applied.supply.conv 1
    unfold State.fixed State.still
    simp only [h]
    rfl
  rw [e]
  have h := congrArg (fun t : State => ({ t with port := s.port.put } : State)) (s.passMrdy_fixed 1)
  exact h

theorem Line.sample_steady {l : Line} {pin : Bool} (f : Nat) (h : l.steady pin = true) : l.sample f pin = l := by
  unfold Line.steady at h
  simp only [Bool.and_eq_true, beq_iff_eq] at h
  obtain ⟨⟨⟨h1, h2⟩, h3⟩, h4⟩ := h
  obtain ⟨a, b, c, r⟩ := l
  simp only at h1 h2 h3 h4
  subst h1 h2 h3 h4
  simp [Line.sample]

/-- While the set-up bus rests an edge samples nothing new. -/
theorem State.sampleBus_resting (s : State) (h : s.port.resting = true) : s.sampleBus = s := by
  unfold SetupPort.resting at h
  simp only [Bool.and_eq_true, beq_iff_eq, Bool.not_eq_true', Option.isNone_iff_eq_none] at h
  obtain ⟨⟨⟨⟨⟨⟨⟨h1, h2⟩, h3⟩, h4⟩, h5⟩, h6⟩, h7⟩, h8⟩ := h
  have e : s.sampleLines = s := by
    have p2 : ∀ p : SetupPort, p.rose = false → p.hold = none → p.sda1 = p.sda.level → p.sda2 = p.sda.level →
        { p with scl := p.scl, sda := p.sda, sda1 := p.sda.level, sda2 := p.sda.level, rose := false, hold := none } = p := by
      rintro ⟨⟩ h1 h3 h7 h8
      simp only at h1 h3 h7 h8
      subst h1 h3
      rw [h7, h8]
    have low : s.port.sclLow (s.now - 1) = false := by simp [SetupPort.sclLow, h3]
    have p : { s.port with
        scl := s.port.scl.sample (fld s.port.inForce 0 4) (s.port.pinScl && !s.port.sclLow (s.now - 1))
        sda := s.port.sda.sample (fld s.port.inForce 0 4) (s.port.pinSda && !s.port.sdaWas)
        sda1 := s.port.sda.level
        sda2 := s.port.sda1
        rose := false
        hold := s.port.hold.filter fun t => decide (s.now < t + 4) } = s.port := by
      rw [low, h4, Bool.not_false, Bool.and_true, Line.sample_steady _ h5, Line.sample_steady _ h6, h3, h7]
      exact p2 _ h1 h3 h7 h8
    exact congrArg (fun q => ({ s with port := q } : State)) p
  have b : s.sampleBit = s := by simp [State.sampleBit, e, h1]
  unfold State.sampleBus
  split
  · rfl
  · split
    · rw [b]; unfold State.recognise; cases s.port.sda2 <;> simp
    · exact e

@[simp] theorem State.closeEdge_resting (s : State) (h : s.port.resting = true) : s.closeEdge.fixed = s.fixed := by
  unfold State.closeEdge
  split
  · rfl
  · rw [s.sampleBus_resting h]; rfl

theorem SetupPort.put_resting (p : SetupPort) (h : p.resting = true) : p.put = p := by
  unfold SetupPort.resting at h
  simp only [Bool.and_eq_true, beq_iff_eq, Bool.not_eq_true', Option.isNone_iff_eq_none] at h
  obtain ⟨⟨⟨⟨⟨⟨⟨-, h2⟩, -⟩, h4⟩, -⟩, -⟩, -⟩, -⟩ := h
  unfold SetupPort.put
  rw [h2]
  obtain ⟨_⟩ := p
  simp_all

/-- One edge while the set-up bus rests. -/
theorem State.tick_fixed (s : State) (h : s.port.resting = true) : s.tick.fixed = s.fixed := by
  have e := s.closeEdge_resting h
  have p : s.closeEdge.port = s.port := (congrArg State.port e :)
  unfold State.tick
  rw [State.onEdge_fixed, State.advance_fixed, p, s.port.put_resting h, e]
  rfl

@[simp] theorem State.coast_fixed (s : State) (k : Nat) : (s.coast k).fixed = s.fixed := by
  cases k with
  | zero => rfl
  | succ k =>
    unfold State.coast
    dsimp only
    rw [State.drawLogic_fixed, ← s.passMrdy_fixed (k + 1), ← (s.passMrdy (k + 1)).addEnergy_fixed (Config.logicEnergy * k)]
    generalize (s.passMrdy (k + 1)).addEnergy (Config.logicEnergy * k) = t
    obtain ⟨a, b, c, h⟩ := t.sup.run_eq t.applied.supply.conv (k + 1)
    unfold State.fixed State.still
    simp only [h]

/-! ### Many edges -/

/-- What one edge and coasting keep, edges without a command keep. -/
theorem State.elapse_induct {P : State → Prop} (tick : ∀ s, P s → P s.tick) (coast : ∀ s k, P s → P ((s.coast k).holdArm)) (s : State)
    (n : Nat) (h : P s) : P (s.elapse n) := by
  have glide : ∀ (n w : Nat) (s : State), P s → P (s.glide n w) := by
    intro n
    induction n with
    | zero => intro w s h; exact h
    | succ n ih =>
      intro w s h
      unfold State.glide
      split
      · split
        · exact coast s _ h
        · exact ih _ _ (tick s h)
      · exact ih _ _ (tick s h)
  unfold State.elapse
  split
  · exact glide _ _ _ h
  · exact h

/-- Edges alone change nothing that `fixed` keeps, while the set-up bus rests. -/
theorem State.elapse_fixed (s : State) (n : Nat) (h : s.port.resting = true) : (s.elapse n).fixed = s.fixed := by
  have e := State.elapse_induct (P := fun t => t.fixed = s.fixed)
    (fun t ht => (t.tick_fixed (by have e := congrArg State.port ht; exact (congrArg SetupPort.resting e).trans h)).trans ht)
    (fun t k ht => by rw [State.holdArm_fixed, State.coast_fixed, ht]) s n rfl
  exact e

theorem State.waitUntil_fixed (s : State) (n : Nat) (h : s.port.resting = true) : (s.waitUntil n).fixed = s.fixed := s.elapse_fixed _ h

/-- Without a host error nothing is disturbed. -/
@[simp] theorem State.disturb_of_none (s : State) (h : s.wild = none) : s.disturb = s := by simp [State.disturb, h]

theorem State.arrive_eq (s : State) (dt : Nat) (h : s.wild = none) (r : s.port.resting = true) :
    s.arrive dt = (s.elapse (if s.edge.committed then max 1 dt else dt)).holdArm := by
  have e : ((s.elapse (if s.edge.committed then max 1 dt else dt)).holdArm).wild = s.wild := by
    have := (State.holdArm_fixed (s.elapse (if s.edge.committed then max 1 dt else dt))).trans (State.elapse_fixed _ _ r)
    exact (congrArg State.wild this :)
  exact State.disturb_of_none _ (e.trans h)

theorem State.arrive_fixed (s : State) (dt : Nat) (h : s.wild = none) (r : s.port.resting = true) : (s.arrive dt).fixed = s.fixed := by
  rw [s.arrive_eq dt h r, State.holdArm_fixed, State.elapse_fixed _ _ r]

end Sys2Proof.Machine
end

