-- ==== Sys2Proof/Laws/Rooted.lean ====
section
/-! SUPPORT. What no HCK edge changes, whatever the set-up bus brings on it: the queue, the inputs of clock and reset with what a clocking has
taken of them, the levels at the pins, the TAP, the window and thermal groups, the registers of a memory failure. -/

set_option linter.unusedTactic false
set_option linter.unusedSimpArgs false
set_option linter.unreachableTactic false

namespace Sys2Proof.Machine

/-- The fields that no edge changes, every other erased. -/
def State.rooted (s : State) : State :=
  { State.reset with
    pending := s.pending
    pw := { Power.reset with
      por := s.pw.por, rstn := s.pw.rstn, hck := s.pw.hck, first := s.pw.first, qual := s.pw.qual, clk0 := s.pw.clk0, strap1 := s.pw.strap1
      strap2 := s.pw.strap2, addr := s.pw.addr, l0 := s.pw.l0, l1 := s.pw.l1, sd := s.pw.sd, sdClear := s.pw.sdClear, uvlo := s.pw.uvlo }
    port := { SetupPort.reset with pinScl := s.port.pinScl, pinSda := s.port.pinSda }
    applied := { Staged.reset with window := s.applied.window, thermal := s.applied.thermal }
    mem := { MemPort.reset with mrdy := s.mem.mrdy, fail := s.mem.fail, failAddr := s.mem.failAddr }
    tap := s.tap }

theorem rooted_of_fixed {s t : State} (h : t.fixed = s.fixed) : t.rooted = s.rooted := by
  have e : ∀ x : State, x.fixed.rooted = x.rooted := fun _ => rfl
  rw [← e t, h, e s]

theorem rooted_of_still {s t : State} (h : t.still = s.still) : t.rooted = s.rooted := rooted_of_fixed (fixed_of_still h)

theorem foldl_rooted {α : Type} (f : State → α → State) (h : ∀ s a, (f s a).rooted = s.rooted) (l : List α) (s : State) :
    (l.foldl f s).rooted = s.rooted := by
  induction l generalizing s with
  | nil => rfl
  | cons a t ih => rw [List.foldl_cons, ih, h]

theorem ite_rooted {p : Prop} [Decidable p] {s a b : State} (ha : a.rooted = s.rooted) (hb : b.rooted = s.rooted) :
    (if p then a else b).rooted = s.rooted := by
  split
  · exact ha
  · exact hb

@[simp] theorem State.settle_rooted (s : State) : (s.settle).rooted = s.rooted := rooted_of_fixed (s.settle_fixed)
@[simp] theorem State.holdArm_rooted (s : State) : (s.holdArm).rooted = s.rooted := rooted_of_fixed (s.holdArm_fixed)
@[simp] theorem State.defer_rooted (s : State) (d : Deferred) : (s.defer d).rooted = s.rooted := rooted_of_fixed (s.defer_fixed d)
@[simp] theorem State.setCause_rooted (s : State) (m : Word) : (s.setCause m).rooted = s.rooted := rooted_of_fixed (s.setCause_fixed m)
@[simp] theorem State.onEdge_rooted (s : State) (f : EdgeRec → EdgeRec) : (s.onEdge f).rooted = s.rooted := rooted_of_fixed (s.onEdge_fixed f)
@[simp] theorem State.count_rooted (s : State) (c : Cnt) : (s.count c).rooted = s.rooted := rooted_of_fixed (s.count_fixed c)
@[simp] theorem State.onSlot_rooted (s : State) (q : Nat) (f : OpenSlot → OpenSlot) : (s.onSlot q f).rooted = s.rooted := rooted_of_fixed (s.onSlot_fixed q f)
@[simp] theorem State.onUpdate_rooted (s : State) (n : RingNo) (f : Update → Update) : (s.onUpdate n f).rooted = s.rooted := rooted_of_fixed (s.onUpdate_fixed n f)
@[simp] theorem State.log_rooted (s : State) (c : Nat) (d : Nat) (n : RingNo) (i : Nat) : (s.log_ c d n i).rooted = s.rooted := rooted_of_fixed (s.log_fixed c d n i)
@[simp] theorem State.enqueue_rooted (s : State) (a : Access) : (s.enqueue a).rooted = s.rooted := rooted_of_fixed (s.enqueue_fixed a)
@[simp] theorem State.stopReplay_rooted (s : State) : (s.stopReplay).rooted = s.rooted := rooted_of_fixed (s.stopReplay_fixed)
@[simp] theorem State.takeTargets_rooted (s : State) : (s.takeTargets).rooted = s.rooted := rooted_of_fixed (s.takeTargets_fixed)
@[simp] theorem State.takeSupply_rooted (s : State) : (s.takeSupply).rooted = s.rooted := rooted_of_fixed (s.takeSupply_fixed)
@[simp] theorem State.drawLogic_rooted (s : State) : (s.drawLogic).rooted = s.rooted := rooted_of_fixed (s.drawLogic_fixed)
@[simp] theorem State.runDeferred_rooted (s : State) (d : Deferred) : (s.runDeferred d).rooted = s.rooted := rooted_of_fixed (s.runDeferred_fixed d)
@[simp] theorem State.passMrdy_rooted (s : State) (k : Nat) : (s.passMrdy k).rooted = s.rooted := rooted_of_fixed (s.passMrdy_fixed k)
@[simp] theorem State.coast_rooted (s : State) (k : Nat) : (s.coast k).rooted = s.rooted := rooted_of_fixed (s.coast_fixed k)
@[simp] theorem State.putCnt_rooted (s : State) (c : Cnt) (v : Word) (e : Bool) : (s.putCnt c v e).rooted = s.rooted := rooted_of_still (s.putCnt_still c v e)
@[simp] theorem State.requestMark_rooted (s : State) (q : Nat) (k : Asker) : (s.requestMark q k).rooted = s.rooted := rooted_of_still (s.requestMark_still q k)
@[simp] theorem State.onRing_rooted (s : State) (n : RingNo) (f : Ring → Ring) : (s.onRing n f).rooted = s.rooted := rfl
@[simp] theorem State.onJnl_rooted (s : State) (f : Journal → Journal) : (s.onJnl f).rooted = s.rooted := rfl
@[simp] theorem State.onSup_rooted (s : State) (f : Supply → Supply) : (s.onSup f).rooted = s.rooted := rfl
@[simp] theorem State.onDrv_rooted (s : State) (f : Drive → Drive) : (s.onDrv f).rooted = s.rooted := rfl
@[simp] theorem State.onThm_rooted (s : State) (f : Thermal → Thermal) : (s.onThm f).rooted = s.rooted := rfl
@[simp] theorem State.onCnv_rooted (s : State) (f : Convoy → Convoy) : (s.onCnv f).rooted = s.rooted := rfl
@[simp] theorem State.scReads_rooted (s : State) (w : Word) : (s.scReads w).rooted = s.rooted := rfl
@[simp] theorem State.err_rooted (s : State) (e : HostError) : (s.err e).rooted = s.rooted := rfl
@[simp] theorem State.setSetupst_rooted (s : State) (m : Word) : (s.setSetupst m).rooted = s.rooted := rfl
@[simp] theorem State.commit_rooted (s : State) (g : BitVec 4) (x : Staged) : (s.commit g x).rooted = s.rooted := rfl

theorem State.onPort_rooted (s : State) (f : SetupPort → SetupPort) (h : (f s.port).pinScl = s.port.pinScl ∧ (f s.port).pinSda = s.port.pinSda) :
    (s.onPort f).rooted = s.rooted := by
  unfold State.rooted State.onPort
  simp only [h.1, h.2]

/-! ### Register writes -/

@[simp] theorem State.dropReads_rooted (s : State) (n : RingNo) (p : Asker → Bool) : (s.dropReads n p).rooted = s.rooted := by
  unfold State.dropReads
  try dsimp only
  repeat' split
  all_goals first | rfl | (simp; done) | (simp; rfl)

@[simp] theorem State.tombstone_rooted (s : State) (q : Nat) : (s.tombstone q).rooted = s.rooted := by
  unfold State.tombstone
  try dsimp only
  repeat' split
  all_goals first | rfl | (simp; done) | (simp; rfl)

@[simp] theorem State.discardUpdate_rooted (s : State) (n : RingNo) : (s.discardUpdate n).rooted = s.rooted := by
  unfold State.discardUpdate
  try dsimp only
  repeat' split
  all_goals first | rfl | (simp; done) | (simp; rfl)

@[simp] theorem State.stopRing_rooted (s : State) (n : RingNo) : (s.stopRing n).rooted = s.rooted := by
  unfold State.stopRing
  try dsimp only
  repeat' split
  all_goals first | rfl | (simp; done) | (simp; rfl)

@[simp] theorem State.lockViolation_rooted (s : State) : (s.lockViolation).rooted = s.rooted := by
  unfold State.lockViolation
  try dsimp only
  repeat' split
  all_goals first | rfl | (simp; done) | (simp; rfl)

@[simp] theorem State.writeShadow_rooted (s : State) (r : StReg) (v : Word) : (s.writeShadow r v).rooted = s.rooted := by
  unfold State.writeShadow
  try dsimp only
  repeat' split
  all_goals first | rfl | (simp; done) | (simp; rfl)

@[simp] theorem State.hostShadow_rooted (s : State) (r : StReg) (v : Word) : (s.hostShadow r v).rooted = s.rooted := by
  unfold State.hostShadow
  try dsimp only
  repeat' split
  all_goals first | rfl | (simp; done) | (simp; rfl)

@[simp] theorem State.recover_rooted (s : State) : s.recover.rooted = s.rooted := rfl

@[simp] theorem State.heal_rooted (s : State) : s.heal.rooted = s.rooted := by unfold State.heal; split <;> simp

@[simp] theorem State.resetPark_rooted (s : State) : (s.resetPark).rooted = s.rooted := by
  unfold State.resetPark
  try dsimp only
  repeat' split
  all_goals first | rfl | (simp; done) | (simp; rfl)

@[simp] theorem State.drainEnd_rooted (s : State) : (s.drainEnd).rooted = s.rooted := by
  unfold State.drainEnd
  try dsimp only
  repeat' split
  all_goals first | rfl | (simp; done) | (simp; rfl)

@[simp] theorem State.resetStop_rooted (s : State) (n : RingNo) : (s.resetStop n).rooted = s.rooted := by
  unfold State.resetStop
  try dsimp only
  repeat' split
  all_goals first | rfl | (simp; done) | (simp; rfl)

@[simp] theorem State.functionReset_rooted (s : State) : s.functionReset.rooted = s.rooted := by
  have e : ∀ t : State, t.rooted = s.rooted →
      ((List.finRange 4).foldl State.resetStop
        (t.onPw fun p => { p with busy := true, drain := none, shut := decide (p.st = .shutdown) })).rooted = s.rooted := by
    intro t h
    rw [foldl_rooted _ (fun s n => by simp), ← h]; rfl
  have e := e (if s.heal.jnl.replay.isSome then s.heal.stopReplay else s.heal) (by split <;> simp)
  unfold State.functionReset
  dsimp only
  revert e
  generalize (List.finRange 4).foldl State.resetStop _ = t
  intro e
  refine ite_rooted ?_ e
  rw [State.drainEnd_rooted]
  exact e

@[simp] theorem State.writeRingCtl_rooted (s : State) (n : RingNo) (v : Word) : (s.writeRingCtl n v).rooted = s.rooted := by
  unfold State.writeRingCtl
  try dsimp only
  repeat' split
  all_goals first | rfl | (simp; done) | (simp; rfl)

@[simp] theorem State.askScan_rooted (s : State) : (s.askScan).rooted = s.rooted := by
  unfold State.askScan
  try dsimp only
  repeat' split
  all_goals first | rfl | (simp; done) | (simp; rfl)

@[simp] theorem State.journalCheck_rooted (s : State) : (s.journalCheck).rooted = s.rooted := by
  unfold State.journalCheck
  try dsimp only
  repeat' split
  all_goals first | rfl | (simp; done) | (simp; rfl)

@[simp] theorem State.writeJnlCtl_rooted (s : State) (v : Word) : (s.writeJnlCtl v).rooted = s.rooted := by
  unfold State.writeJnlCtl
  try dsimp only
  repeat' split
  all_goals first | rfl | (simp; done) | (simp; rfl)

@[simp] theorem State.writeRegion_rooted (s : State) (f : Journal → Journal) : (s.writeRegion f).rooted = s.rooted := by
  unfold State.writeRegion
  try dsimp only
  repeat' split
  all_goals first | rfl | (simp; done) | (simp; rfl)

@[simp] theorem State.writeVlim_rooted (s : State) (v : Word) : (s.writeVlim v).rooted = s.rooted := by
  unfold State.writeVlim
  try dsimp only
  repeat' split
  all_goals first | rfl | (simp; done) | (simp; rfl)

@[simp] theorem State.writeCnt_rooted (s : State) (c : Cnt) (v : Word) : (s.writeCnt c v).rooted = s.rooted := by
  unfold State.writeCnt
  try dsimp only
  repeat' split
  all_goals first | rfl | (simp; done) | (simp; rfl)

@[simp] theorem State.writeEnergy_rooted (s : State) (v : Word) : (s.writeEnergy v).rooted = s.rooted := by
  unfold State.writeEnergy
  try dsimp only
  repeat' split
  all_goals first | rfl | (simp; done) | (simp; rfl)

@[simp] theorem State.writeReg_rooted (s : State) (r : Reg) (v : Word) : (s.writeReg r v).rooted = s.rooted := by
  cases r <;> simp only [State.writeReg]
  all_goals first | (simp; done) | rfl | (split <;> first | (simp; done) | rfl)

@[simp] theorem State.writeSlot_rooted (s : State) (slot : BitVec 13) (v : Word) : (s.writeSlot slot v).rooted = s.rooted := by
  unfold State.writeSlot; split <;> simp

/-! ### The port's part of an edge -/

@[simp] theorem State.leaveSlot_rooted (s : State) : (s.leaveSlot).rooted = s.rooted := by
  unfold State.leaveSlot
  try dsimp only
  repeat' split
  all_goals first | rfl | (simp [State.onPort_rooted]; done) | (simp [State.onPort_rooted]; rfl)

@[simp] theorem State.stretch_rooted (s : State) : (s.stretch).rooted = s.rooted := by
  unfold State.stretch
  try dsimp only
  repeat' split
  all_goals first | rfl | (simp [State.onPort_rooted]; done) | (simp [State.onPort_rooted]; rfl)

@[simp] theorem State.acknowledge_rooted (s : State) : (s.acknowledge).rooted = s.rooted := by
  unfold State.acknowledge
  try dsimp only
  repeat' split
  all_goals first | rfl | (simp [State.onPort_rooted]; done) | (simp [State.onPort_rooted]; rfl)

@[simp] theorem State.commitSlot_rooted (s : State) (k : BitVec 13) (v : Word) : (s.commitSlot k v).rooted = s.rooted := by
  unfold State.commitSlot
  try dsimp only
  repeat' split
  all_goals first | rfl | (simp [State.onPort_rooted]; done) | (simp [State.onPort_rooted]; rfl)

@[simp] theorem State.enterSlot_rooted (s : State) : (s.enterSlot).rooted = s.rooted := by
  unfold State.enterSlot
  try dsimp only
  repeat' split
  all_goals first | rfl | (simp [State.onPort_rooted]; done) | (simp [State.onPort_rooted]; rfl)

@[simp] theorem State.writeByte_rooted (s : State) (b : Byte) : (s.writeByte b).rooted = s.rooted := by
  unfold State.writeByte
  try dsimp only
  repeat' split
  all_goals first | rfl | (simp [State.onPort_rooted]; done) | (simp [State.onPort_rooted]; rfl)

@[simp] theorem State.capture_rooted (s : State) : (s.capture).rooted = s.rooted := by
  unfold State.capture
  try dsimp only
  repeat' split
  all_goals first | rfl | (simp [State.onPort_rooted]; done) | (simp [State.onPort_rooted]; rfl)

@[simp] theorem State.sendByte_rooted (s : State) : (s.sendByte).rooted = s.rooted := by
  unfold State.sendByte
  try dsimp only
  repeat' split
  all_goals first | rfl | (simp [State.onPort_rooted]; done) | (simp [State.onPort_rooted]; rfl)

@[simp] theorem State.byteEnd_rooted (s : State) : (s.byteEnd).rooted = s.rooted := by
  unfold State.byteEnd
  try dsimp only
  repeat' split
  all_goals first | rfl | (simp [State.onPort_rooted]; done) | (simp [State.onPort_rooted]; rfl)

@[simp] theorem State.ackEnd_rooted (s : State) : (s.ackEnd).rooted = s.rooted := by
  unfold State.ackEnd
  try dsimp only
  repeat' split
  all_goals first | rfl | (simp [State.onPort_rooted]; done) | (simp [State.onPort_rooted]; rfl)

@[simp] theorem State.sclFall_rooted (s : State) : (s.sclFall).rooted = s.rooted := by
  unfold State.sclFall
  try dsimp only
  repeat' split
  all_goals first | rfl | (simp [State.onPort_rooted]; done) | (simp [State.onPort_rooted]; rfl)

@[simp] theorem State.takeBit_rooted (s : State) (b : Bool) : (s.takeBit b).rooted = s.rooted := by
  unfold State.takeBit
  try dsimp only
  repeat' split
  all_goals first | rfl | (simp [State.onPort_rooted]; done) | (simp [State.onPort_rooted]; rfl)

@[simp] theorem State.endTransaction_rooted (s : State) : (s.endTransaction).rooted = s.rooted := by
  unfold State.endTransaction
  try dsimp only
  repeat' split
  all_goals first | rfl | (simp [State.onPort_rooted]; done) | (simp [State.onPort_rooted]; rfl)

@[simp] theorem State.startOrStop_rooted (s : State) : (s.startOrStop).rooted = s.rooted := by
  unfold State.startOrStop
  try dsimp only
  repeat' split
  all_goals first | rfl | (simp [State.onPort_rooted]; done) | (simp [State.onPort_rooted]; rfl)

@[simp] theorem State.stopSeen_rooted (s : State) : (s.stopSeen).rooted = s.rooted := by
  unfold State.stopSeen
  try dsimp only
  repeat' split
  all_goals first | rfl | (simp [State.onPort_rooted]; done) | (simp [State.onPort_rooted]; rfl)

@[simp] theorem State.scramble_rooted (s : State) : (s.scramble).rooted = s.rooted := by
  unfold State.scramble
  try dsimp only
  repeat' split
  all_goals first | rfl | (simp [State.onPort_rooted]; done) | (simp [State.onPort_rooted]; rfl)

@[simp] theorem State.timed_rooted (s : State) (b : Bool) : (s.timed b).rooted = s.rooted := by
  unfold State.timed
  try dsimp only
  repeat' split
  all_goals first | rfl | (simp [State.onPort_rooted]; done) | (simp [State.onPort_rooted]; rfl)

@[simp] theorem State.sampleLines_rooted (s : State) : (s.sampleLines).rooted = s.rooted := by
  unfold State.sampleLines
  try dsimp only
  repeat' split
  all_goals first | rfl | (simp [State.onPort_rooted]; done) | (simp [State.onPort_rooted]; rfl)

@[simp] theorem State.sampleBit_rooted (s : State) : (s.sampleBit).rooted = s.rooted := by
  unfold State.sampleBit
  try dsimp only
  repeat' split
  all_goals first | rfl | (simp [State.onPort_rooted]; done) | (simp [State.onPort_rooted]; rfl)

@[simp] theorem State.startMet_rooted (s : State) : (s.startMet).rooted = s.rooted := by
  unfold State.startMet
  try dsimp only
  repeat' split
  all_goals first | rfl | (simp [State.onPort_rooted]; done) | (simp [State.onPort_rooted]; rfl)

@[simp] theorem State.stopMet_rooted (s : State) : (s.stopMet).rooted = s.rooted := by
  unfold State.stopMet
  try dsimp only
  repeat' split
  all_goals first | rfl | (simp [State.onPort_rooted]; done) | (simp [State.onPort_rooted]; rfl)

@[simp] theorem State.recognise_rooted (s : State) (c : Bool) (d : Bool) : (s.recognise c d).rooted = s.rooted := by
  unfold State.recognise
  try dsimp only
  repeat' split
  all_goals first | rfl | (simp [State.onPort_rooted]; done) | (simp [State.onPort_rooted]; rfl)

@[simp] theorem State.sampleBus_rooted (s : State) : (s.sampleBus).rooted = s.rooted := by
  unfold State.sampleBus
  try dsimp only
  repeat' split
  all_goals first | rfl | (simp [State.onPort_rooted]; done) | (simp [State.onPort_rooted]; rfl)

@[simp] theorem State.markSampled_rooted (s : State) : (s.markSampled).rooted = s.rooted := by
  unfold State.markSampled
  try dsimp only
  repeat' split
  all_goals first | rfl | (simp [State.onPort_rooted]; done) | (simp [State.onPort_rooted]; rfl)

@[simp] theorem State.closeEdge_rooted (s : State) : (s.closeEdge).rooted = s.rooted := by
  unfold State.closeEdge
  try dsimp only
  repeat' split
  all_goals first | rfl | (simp [State.onPort_rooted]; done) | (simp [State.onPort_rooted]; rfl)

/-- No edge changes what `rooted` keeps. -/
@[simp] theorem State.advance_rooted (s : State) : s.advance.rooted = s.rooted := by
  have h := rooted_of_fixed (s := { s with port := s.port.put }) (t := s.advance) (s.advance_fixed.trans rfl)
  exact h.trans rfl

@[simp] theorem State.tick_rooted (s : State) : s.tick.rooted = s.rooted := by
  unfold State.tick; rw [State.onEdge_rooted, State.advance_rooted, State.closeEdge_rooted]

@[simp] theorem State.elapse_rooted (s : State) (n : Nat) : (s.elapse n).rooted = s.rooted :=
  State.elapse_induct (P := fun t => t.rooted = s.rooted) (fun t h => by rw [State.tick_rooted, h])
    (fun t k h => by rw [State.holdArm_rooted, State.coast_rooted, h]) s n rfl

@[simp] theorem State.waitUntil_rooted (s : State) (n : Nat) : (s.waitUntil n).rooted = s.rooted := s.elapse_rooted _

end Sys2Proof.Machine
end

