-- ==== Sys2Proof/Laws/Event.lean ====
section
/-! SUPPORT. The form of every command: it answers a next state, and what that state is; and the fields that edges and the
end of a command leave alone. -/

namespace Sys2Proof.Machine

/-! ### Fields that no edge changes -/

@[simp] theorem State.elapse_pending (s : State) (n : Nat) : (s.elapse n).pending = s.pending :=
  (congrArg (fun t : State => t.pending) (s.elapse_rooted n) :)
@[simp] theorem State.elapse_tap (s : State) (n : Nat) : (s.elapse n).tap = s.tap :=
  (congrArg (fun t : State => t.tap) (s.elapse_rooted n) :)
@[simp] theorem State.elapse_hck (s : State) (n : Nat) : (s.elapse n).pw.hck = s.pw.hck :=
  (congrArg (fun t : State => t.pw.hck) (s.elapse_rooted n) :)
@[simp] theorem State.elapse_por (s : State) (n : Nat) : (s.elapse n).pw.por = s.pw.por :=
  (congrArg (fun t : State => t.pw.por) (s.elapse_rooted n) :)
@[simp] theorem State.elapse_rstn (s : State) (n : Nat) : (s.elapse n).pw.rstn = s.pw.rstn :=
  (congrArg (fun t : State => t.pw.rstn) (s.elapse_rooted n) :)
@[simp] theorem State.elapse_qual (s : State) (n : Nat) : (s.elapse n).pw.qual = s.pw.qual :=
  (congrArg (fun t : State => t.pw.qual) (s.elapse_rooted n) :)
@[simp] theorem State.elapse_first (s : State) (n : Nat) : (s.elapse n).pw.first = s.pw.first :=
  (congrArg (fun t : State => t.pw.first) (s.elapse_rooted n) :)
@[simp] theorem State.elapse_clk0 (s : State) (n : Nat) : (s.elapse n).pw.clk0 = s.pw.clk0 :=
  (congrArg (fun t : State => t.pw.clk0) (s.elapse_rooted n) :)
@[simp] theorem State.elapse_sd (s : State) (n : Nat) : (s.elapse n).pw.sd = s.pw.sd :=
  (congrArg (fun t : State => t.pw.sd) (s.elapse_rooted n) :)
@[simp] theorem State.elapse_sdClear (s : State) (n : Nat) : (s.elapse n).pw.sdClear = s.pw.sdClear :=
  (congrArg (fun t : State => t.pw.sdClear) (s.elapse_rooted n) :)
@[simp] theorem State.elapse_uvlo (s : State) (n : Nat) : (s.elapse n).pw.uvlo = s.pw.uvlo :=
  (congrArg (fun t : State => t.pw.uvlo) (s.elapse_rooted n) :)
@[simp] theorem State.elapse_addr (s : State) (n : Nat) : (s.elapse n).pw.addr = s.pw.addr :=
  (congrArg (fun t : State => t.pw.addr) (s.elapse_rooted n) :)
@[simp] theorem State.elapse_strap1 (s : State) (n : Nat) : (s.elapse n).pw.strap1 = s.pw.strap1 :=
  (congrArg (fun t : State => t.pw.strap1) (s.elapse_rooted n) :)
@[simp] theorem State.elapse_strap2 (s : State) (n : Nat) : (s.elapse n).pw.strap2 = s.pw.strap2 :=
  (congrArg (fun t : State => t.pw.strap2) (s.elapse_rooted n) :)
@[simp] theorem State.elapse_mrdy (s : State) (n : Nat) : (s.elapse n).mem.mrdy = s.mem.mrdy :=
  (congrArg (fun t : State => t.mem.mrdy) (s.elapse_rooted n) :)

@[simp] theorem State.elapse_window (s : State) (n : Nat) : (s.elapse n).applied.window = s.applied.window :=
  (congrArg (fun t : State => t.applied.window) (s.elapse_rooted n) :)
@[simp] theorem State.elapse_thermal (s : State) (n : Nat) : (s.elapse n).applied.thermal = s.applied.thermal :=
  (congrArg (fun t : State => t.applied.thermal) (s.elapse_rooted n) :)
@[simp] theorem State.elapse_fail (s : State) (n : Nat) : (s.elapse n).mem.fail = s.mem.fail :=
  (congrArg (fun t : State => t.mem.fail) (s.elapse_rooted n) :)
@[simp] theorem State.elapse_failAddr (s : State) (n : Nat) : (s.elapse n).mem.failAddr = s.mem.failAddr :=
  (congrArg (fun t : State => t.mem.failAddr) (s.elapse_rooted n) :)
@[simp] theorem State.elapse_d (s : State) (n : Nat) : (s.elapse n).d = s.d := by unfold State.d; rw [State.elapse_window]

/-- Edges go on as they did, or stand still as they did. -/
@[simp] theorem State.elapse_ticking (s : State) (n : Nat) : (s.elapse n).ticking = s.ticking := by
  simp [State.ticking, State.heldInReset]

/-! ### Fields that edges leave alone while the set-up bus rests -/

@[simp] theorem State.elapse_wild (s : State) (n : Nat) (h : s.port.resting = true) : (s.elapse n).wild = s.wild :=
  (congrArg (fun t : State => t.wild) (s.elapse_fixed n h) :)
@[simp] theorem State.elapse_free (s : State) (n : Nat) (h : s.port.resting = true) : (s.elapse n).free = s.free :=
  (congrArg (fun t : State => t.free) (s.elapse_fixed n h) :)
@[simp] theorem State.elapse_port (s : State) (n : Nat) (h : s.port.resting = true) : (s.elapse n).port = s.port :=
  (congrArg (fun t : State => t.port) (s.elapse_fixed n h) :)
@[simp] theorem State.elapse_tile (s : State) (n : Nat) (h : s.port.resting = true) : (s.elapse n).tile = s.tile :=
  (congrArg (fun t : State => t.tile) (s.elapse_fixed n h) :)
@[simp] theorem State.elapse_tileWritten (s : State) (n : Nat) (h : s.port.resting = true) : (s.elapse n).tileWritten = s.tileWritten :=
  (congrArg (fun t : State => t.tileWritten) (s.elapse_fixed n h) :)
@[simp] theorem State.elapse_lock (s : State) (n : Nat) (h : s.port.resting = true) : (s.elapse n).lock = s.lock :=
  (congrArg (fun t : State => t.lock) (s.elapse_fixed n h) :)
@[simp] theorem State.elapse_shadow (s : State) (n : Nat) (h : s.port.resting = true) : (s.elapse n).shadow = s.shadow :=
  (congrArg (fun t : State => t.shadow) (s.elapse_fixed n h) :)
@[simp] theorem State.elapse_enable (s : State) (n : Nat) (h : s.port.resting = true) : (s.elapse n).enable = s.enable :=
  (congrArg (fun t : State => t.enable) (s.elapse_fixed n h) :)
@[simp] theorem State.elapse_rise (s : State) (n : Nat) (h : s.port.resting = true) : (s.elapse n).mem.rise = s.mem.rise :=
  (congrArg (fun t : State => t.mem.rise) (s.elapse_fixed n h) :)
@[simp] theorem State.elapse_sel (s : State) (n : Nat) (h : s.port.resting = true) : (s.elapse n).mem.sel = s.mem.sel :=
  (congrArg (fun t : State => t.mem.sel) (s.elapse_fixed n h) :)
@[simp] theorem State.elapse_busy (s : State) (n : Nat) (h : s.port.resting = true) : (s.elapse n).pw.busy = s.pw.busy :=
  (congrArg (fun t : State => t.pw.busy) (s.elapse_fixed n h) :)
@[simp] theorem State.elapse_fault (s : State) (n : Nat) (h : s.port.resting = true) : (s.elapse n).sup.fault = s.sup.fault :=
  (congrArg (fun t : State => t.sup.fault) (s.elapse_fixed n h) :)
@[simp] theorem State.elapse_tdie (s : State) (n : Nat) (h : s.port.resting = true) : (s.elapse n).thm.tdie = s.thm.tdie :=
  (congrArg (fun t : State => t.thm.tdie) (s.elapse_fixed n h) :)
@[simp] theorem State.elapse_window0 (s : State) (n : Nat) (h : s.port.resting = true) : (s.elapse n).thm.window0 = s.thm.window0 :=
  (congrArg (fun t : State => t.thm.window0) (s.elapse_fixed n h) :)
@[simp] theorem State.elapse_vlim (s : State) (n : Nat) (h : s.port.resting = true) : (s.elapse n).sup.vlim = s.sup.vlim :=
  (congrArg (fun t : State => t.sup.vlim) (s.elapse_fixed n h) :)

/-- An open transaction stays the one it is; its ready points pass. -/
theorem State.elapse_txn (s : State) (n : Nat) (h : s.port.resting = true) : (s.elapse n).mem.txn.map Txn.loose = s.mem.txn.map Txn.loose :=
  (congrArg (fun t : State => t.mem.txn) (s.elapse_fixed n h) :)

/-- A register of a ring after edges alone. -/
theorem State.elapse_ring (s : State) (k : Nat) (n : RingNo) (h : s.port.resting = true) : (s.elapse k).rings[n].calm = s.rings[n].calm := by
  have h := congrArg State.rings (s.elapse_fixed k h)
  simp only [State.fixed, State.still] at h
  have h2 := congrArg (fun v => v[n]) h
  simpa using h2

/-! ### The arrival of a command -/

theorem State.holdArm_eq (s : State) : ∃ k, s.holdArm = { s with pw := { s.pw with armed0 := k } } := by
  unfold State.holdArm
  split
  · exact ⟨_, rfl⟩
  · exact ⟨s.pw.armed0, rfl⟩

/-- The same fields, the registers of a memory failure aside, which a host error may leave with any value. -/
def State.planted (s : State) : State := { s.rooted with mem := { s.rooted.mem with fail := 0, failAddr := 0 } }

@[simp] theorem State.disturb_planted (s : State) : s.disturb.planted = s.planted := by unfold State.disturb; split <;> rfl

theorem planted_of_rooted {s t : State} (h : t.rooted = s.rooted) : t.planted = s.planted := by unfold State.planted; rw [h]

@[simp] theorem State.arrive_planted (s : State) (dt : Nat) : (s.arrive dt).planted = s.planted := by
  unfold State.arrive; rw [State.disturb_planted]; exact planted_of_rooted (by simp)

@[simp] theorem State.arrive_pending (s : State) (dt : Nat) : (s.arrive dt).pending = s.pending :=
  (congrArg (fun t : State => t.pending) (s.arrive_planted dt) :)
@[simp] theorem State.arrive_tap (s : State) (dt : Nat) : (s.arrive dt).tap = s.tap :=
  (congrArg (fun t : State => t.tap) (s.arrive_planted dt) :)
@[simp] theorem State.arrive_hck (s : State) (dt : Nat) : (s.arrive dt).pw.hck = s.pw.hck :=
  (congrArg (fun t : State => t.pw.hck) (s.arrive_planted dt) :)
@[simp] theorem State.arrive_por (s : State) (dt : Nat) : (s.arrive dt).pw.por = s.pw.por :=
  (congrArg (fun t : State => t.pw.por) (s.arrive_planted dt) :)
@[simp] theorem State.arrive_rstn (s : State) (dt : Nat) : (s.arrive dt).pw.rstn = s.pw.rstn :=
  (congrArg (fun t : State => t.pw.rstn) (s.arrive_planted dt) :)
@[simp] theorem State.arrive_qual (s : State) (dt : Nat) : (s.arrive dt).pw.qual = s.pw.qual :=
  (congrArg (fun t : State => t.pw.qual) (s.arrive_planted dt) :)
@[simp] theorem State.arrive_first (s : State) (dt : Nat) : (s.arrive dt).pw.first = s.pw.first :=
  (congrArg (fun t : State => t.pw.first) (s.arrive_planted dt) :)
@[simp] theorem State.arrive_clk0 (s : State) (dt : Nat) : (s.arrive dt).pw.clk0 = s.pw.clk0 :=
  (congrArg (fun t : State => t.pw.clk0) (s.arrive_planted dt) :)
@[simp] theorem State.arrive_sd (s : State) (dt : Nat) : (s.arrive dt).pw.sd = s.pw.sd :=
  (congrArg (fun t : State => t.pw.sd) (s.arrive_planted dt) :)
@[simp] theorem State.arrive_sdClear (s : State) (dt : Nat) : (s.arrive dt).pw.sdClear = s.pw.sdClear :=
  (congrArg (fun t : State => t.pw.sdClear) (s.arrive_planted dt) :)
@[simp] theorem State.arrive_uvlo (s : State) (dt : Nat) : (s.arrive dt).pw.uvlo = s.pw.uvlo :=
  (congrArg (fun t : State => t.pw.uvlo) (s.arrive_planted dt) :)
@[simp] theorem State.arrive_addr (s : State) (dt : Nat) : (s.arrive dt).pw.addr = s.pw.addr :=
  (congrArg (fun t : State => t.pw.addr) (s.arrive_planted dt) :)
@[simp] theorem State.arrive_strap1 (s : State) (dt : Nat) : (s.arrive dt).pw.strap1 = s.pw.strap1 :=
  (congrArg (fun t : State => t.pw.strap1) (s.arrive_planted dt) :)
@[simp] theorem State.arrive_strap2 (s : State) (dt : Nat) : (s.arrive dt).pw.strap2 = s.pw.strap2 :=
  (congrArg (fun t : State => t.pw.strap2) (s.arrive_planted dt) :)
@[simp] theorem State.arrive_mrdy (s : State) (dt : Nat) : (s.arrive dt).mem.mrdy = s.mem.mrdy :=
  (congrArg (fun t : State => t.mem.mrdy) (s.arrive_planted dt) :)

@[simp] theorem State.arrive_ticking (s : State) (dt : Nat) : (s.arrive dt).ticking = s.ticking := by
  simp [State.ticking, State.heldInReset]

@[simp] theorem State.disturb_wild (s : State) : s.disturb.wild = s.wild := by unfold State.disturb; split <;> rfl
@[simp] theorem State.arrive_wild (s : State) (dt : Nat) (h : s.port.resting = true) : (s.arrive dt).wild = s.wild := by
  obtain ⟨k, e⟩ := State.holdArm_eq (s.elapse (if s.edge.committed then max 1 dt else dt))
  simp [State.arrive, e, h]
@[simp] theorem State.disturb_port (s : State) : s.disturb.port = s.port := by unfold State.disturb; split <;> rfl
@[simp] theorem State.arrive_port (s : State) (dt : Nat) (h : s.port.resting = true) : (s.arrive dt).port = s.port := by
  obtain ⟨k, e⟩ := State.holdArm_eq (s.elapse (if s.edge.committed then max 1 dt else dt))
  simp [State.arrive, e, h]
@[simp] theorem State.disturb_tile (s : State) : s.disturb.tile = s.tile := by unfold State.disturb; split <;> rfl
@[simp] theorem State.arrive_tile (s : State) (dt : Nat) (h : s.port.resting = true) : (s.arrive dt).tile = s.tile := by
  obtain ⟨k, e⟩ := State.holdArm_eq (s.elapse (if s.edge.committed then max 1 dt else dt))
  simp [State.arrive, e, h]
@[simp] theorem State.disturb_tileWritten (s : State) : s.disturb.tileWritten = s.tileWritten := by unfold State.disturb; split <;> rfl
@[simp] theorem State.arrive_tileWritten (s : State) (dt : Nat) (h : s.port.resting = true) : (s.arrive dt).tileWritten = s.tileWritten := by
  obtain ⟨k, e⟩ := State.holdArm_eq (s.elapse (if s.edge.committed then max 1 dt else dt))
  simp [State.arrive, e, h]
@[simp] theorem State.disturb_lock (s : State) : s.disturb.lock = s.lock := by unfold State.disturb; split <;> rfl
@[simp] theorem State.arrive_lock (s : State) (dt : Nat) (h : s.port.resting = true) : (s.arrive dt).lock = s.lock := by
  obtain ⟨k, e⟩ := State.holdArm_eq (s.elapse (if s.edge.committed then max 1 dt else dt))
  simp [State.arrive, e, h]
@[simp] theorem State.disturb_shadow (s : State) : s.disturb.shadow = s.shadow := by unfold State.disturb; split <;> rfl
@[simp] theorem State.arrive_shadow (s : State) (dt : Nat) (h : s.port.resting = true) : (s.arrive dt).shadow = s.shadow := by
  obtain ⟨k, e⟩ := State.holdArm_eq (s.elapse (if s.edge.committed then max 1 dt else dt))
  simp [State.arrive, e, h]
@[simp] theorem State.disturb_enable (s : State) : s.disturb.enable = s.enable := by unfold State.disturb; split <;> rfl
@[simp] theorem State.arrive_enable (s : State) (dt : Nat) (h : s.port.resting = true) : (s.arrive dt).enable = s.enable := by
  obtain ⟨k, e⟩ := State.holdArm_eq (s.elapse (if s.edge.committed then max 1 dt else dt))
  simp [State.arrive, e, h]
@[simp] theorem State.disturb_busy (s : State) : s.disturb.pw.busy = s.pw.busy := by unfold State.disturb; split <;> rfl
@[simp] theorem State.arrive_busy (s : State) (dt : Nat) (h : s.port.resting = true) : (s.arrive dt).pw.busy = s.pw.busy := by
  obtain ⟨k, e⟩ := State.holdArm_eq (s.elapse (if s.edge.committed then max 1 dt else dt))
  simp [State.arrive, e, h]

/-! ### Waiting for an edge -/

@[simp] theorem State.waitUntil_tap (s : State) (n : Nat) : (s.waitUntil n).tap = s.tap := s.elapse_tap _
@[simp] theorem State.waitUntil_ticking (s : State) (n : Nat) : (s.waitUntil n).ticking = s.ticking := s.elapse_ticking _
@[simp] theorem State.waitUntil_wild (s : State) (n : Nat) (h : s.port.resting = true) : (s.waitUntil n).wild = s.wild := s.elapse_wild _ h
@[simp] theorem State.waitUntil_port (s : State) (n : Nat) (h : s.port.resting = true) : (s.waitUntil n).port = s.port := s.elapse_port _ h

/-- A command whose edge has come does not wait. -/
theorem State.waitUntil_past (s : State) (n : Nat) (h : n ≤ s.now) : s.waitUntil n = s := by
  have e : n - s.now = 0 := by omega
  unfold State.waitUntil State.elapse
  rw [e]
  split <;> rfl

/-! ### The form of a command -/

/-- A command answers a next state: what its body leaves, settled. -/
theorem event_next (dt : Nat) (body : State → State) (s : State) : event dt body s = .next (body (s.arrive dt)).settle := rfl

/-- What a next state of a command is. -/
theorem next_of_event {dt : Nat} {body : State → State} {s t : State} (h : event dt body s = .next t) :
    t = (body (s.arrive dt)).settle := by
  cases h; rfl

/-- A command never refuses. -/
theorem event_not_refused (dt : Nat) (body : State → State) (s : State) (r : Refusal) : event dt body s ≠ .refused r :=
  fun h => nomatch h

/-- Nothing faults: there is no reason for a fault. -/
theorem Fault.absurd (f : Fault) : False := nomatch f

end Sys2Proof.Machine
end

