-- ==== Sys2Proof/Laws/Kept.lean ====
section
/-! SUPPORT. One lemma for each shared operation of the engine's own working: it leaves alone what `State.kept` holds, the settings, the
set-up port, the TAP and the queue. -/

set_option linter.unusedTactic false
set_option linter.unusedSimpArgs false
set_option linter.unreachableTactic false

namespace Sys2Proof.Machine

theorem State.kept_fixed (s : State) : s.fixed.kept = s.kept := by
  unfold State.fixed State.still State.kept
  simp only [Vector.map_map]
  rfl

theorem kept_of_fixed {s t : State} (h : t.fixed = s.fixed) : t.kept = s.kept := by
  rw [← t.kept_fixed, h, s.kept_fixed]

theorem kept_of_still {s t : State} (h : t.still = s.still) : t.kept = s.kept := kept_of_fixed (fixed_of_still h)

theorem State.onRing_kept' (s : State) (n : RingNo) (f : Ring → Ring) (h : (f s.rings[n]).kept = s.rings[n].kept) :
    (s.onRing n f).kept = s.kept := by
  simp only [State.kept, State.onRing, map_set_of_eq _ _ _ _ h]

@[simp] theorem State.onRing_kept (s : State) (n : RingNo) (f : Ring → Ring)
    (h : (f s.rings[n]).ctl = s.rings[n].ctl ∧ (f s.rings[n]).base = s.rings[n].base ∧
      (f s.rings[n]).tailAddr = s.rings[n].tailAddr ∧ (f s.rings[n]).headAddr = s.rings[n].headAddr ∧
      (f s.rings[n]).poll = s.rings[n].poll) : (s.onRing n f).kept = s.kept := by
  refine s.onRing_kept' n f ?_
  unfold Ring.kept
  rw [h.1, h.2.1, h.2.2.1, h.2.2.2.1, h.2.2.2.2]

/-- The enable bit aside, a ring keeps its settings. -/
@[simp] theorem State.onRing_disable_kept (s : State) (n : RingNo) :
    (s.onRing n fun r => { r with ctl := r.ctl &&& 68719476734#36 }).kept = s.kept := by
  refine s.onRing_kept' n _ ?_
  simp only [Ring.kept, BitVec.and_assoc]
  rfl

@[simp] theorem State.onJnl_kept (s : State) (f : Journal → Journal)
    (h : (f s.jnl).ctl = s.jnl.ctl ∧ (f s.jnl).base = s.jnl.base ∧ (f s.jnl).size = s.jnl.size) : (s.onJnl f).kept = s.kept := by
  unfold State.kept State.onJnl
  simp only [h.1, h.2.1, h.2.2]

@[simp] theorem State.onSup_kept (s : State) (f : Supply → Supply) (h : (f s.sup).vlim = s.sup.vlim) : (s.onSup f).kept = s.kept := by
  unfold State.kept State.onSup
  simp only [h]

@[simp] theorem State.onDrv_kept (s : State) (f : Drive → Drive) (h : (f s.drv).dcbSel = s.drv.dcbSel) : (s.onDrv f).kept = s.kept := by
  unfold State.kept State.onDrv
  simp only [h]

@[simp] theorem State.onCnv_kept (s : State) (f : Convoy → Convoy) (h : (f s.cnv).ctl = s.cnv.ctl ∧ (f s.cnv).barto = s.cnv.barto) :
    (s.onCnv f).kept = s.kept := by
  unfold State.kept State.onCnv
  simp only [h.1, h.2]

@[simp] theorem State.onPw_kept (s : State) (f : Power → Power)
    (h : (f s.pw).ctl = s.pw.ctl ∧ (f s.pw).por = s.pw.por ∧ (f s.pw).rstn = s.pw.rstn ∧ (f s.pw).hck = s.pw.hck) :
    (s.onPw f).kept = s.kept := by
  unfold State.kept State.onPw
  simp only [h.1, h.2.1, h.2.2.1, h.2.2.2]

theorem foldl_kept {α : Type} (f : State → α → State) (h : ∀ s a, (f s a).kept = s.kept) (l : List α) (s : State) :
    (l.foldl f s).kept = s.kept := by
  induction l generalizing s with
  | nil => rfl
  | cons a t ih => rw [List.foldl_cons, ih, h]
@[simp] theorem State.settle_kept (s : State) : (s.settle).kept = s.kept := kept_of_fixed (s.settle_fixed)
@[simp] theorem State.holdArm_kept (s : State) : (s.holdArm).kept = s.kept := kept_of_fixed (s.holdArm_fixed)
@[simp] theorem State.defer_kept (s : State) (d : Deferred) : (s.defer d).kept = s.kept := kept_of_fixed (s.defer_fixed d)
@[simp] theorem State.setCause_kept (s : State) (m : Word) : (s.setCause m).kept = s.kept := kept_of_fixed (s.setCause_fixed m)
@[simp] theorem State.setStatus_kept (s : State) (m : Word) : (s.setStatus m).kept = s.kept := kept_of_fixed (s.setStatus_fixed m)
@[simp] theorem State.onEdge_kept (s : State) (f : EdgeRec → EdgeRec) : (s.onEdge f).kept = s.kept := kept_of_fixed (s.onEdge_fixed f)
@[simp] theorem State.goTo_kept (s : State) (x : EngState) : (s.goTo x).kept = s.kept := kept_of_fixed (s.goTo_fixed x)
@[simp] theorem State.count_kept (s : State) (c : Cnt) : (s.count c).kept = s.kept := kept_of_fixed (s.count_fixed c)
@[simp] theorem State.startDischarge_kept (s : State) : (s.startDischarge).kept = s.kept := kept_of_fixed (s.startDischarge_fixed)
@[simp] theorem State.onSlot_kept (s : State) (q : Nat) (f : OpenSlot → OpenSlot) : (s.onSlot q f).kept = s.kept := kept_of_fixed (s.onSlot_fixed q f)
@[simp] theorem State.finishEntry_kept (s : State) (n : RingNo) (i : BitVec 16) : (s.finishEntry n i).kept = s.kept := kept_of_fixed (s.finishEntry_fixed n i)
@[simp] theorem State.startReplayFrame_kept (s : State) : (s.startReplayFrame).kept = s.kept := kept_of_fixed (s.startReplayFrame_fixed)
@[simp] theorem State.log_kept (s : State) (c d : Nat) (n : RingNo) (i : Nat) : (s.log_ c d n i).kept = s.kept := kept_of_fixed (s.log_fixed c d n i)
@[simp] theorem State.onUpdate_kept (s : State) (n : RingNo) (f : Update → Update) : (s.onUpdate n f).kept = s.kept := kept_of_fixed (s.onUpdate_fixed n f)
@[simp] theorem State.interruptRing_kept (s : State) (c : Cut) (n : RingNo) : (s.interruptRing c n).kept = s.kept := kept_of_fixed (s.interruptRing_fixed c n)
@[simp] theorem State.abandonRing_kept (s : State) (p : Cut → Bool) (n : RingNo) : (s.abandonRing p n).kept = s.kept := kept_of_fixed (s.abandonRing_fixed p n)
@[simp] theorem State.abandonCut_kept (s : State) (p : Cut → Bool) : (s.abandonCut p).kept = s.kept := kept_of_fixed (s.abandonCut_fixed p)
@[simp] theorem State.abandonAll_kept (s : State) : (s.abandonAll).kept = s.kept := kept_of_fixed (s.abandonAll_fixed)
@[simp] theorem State.resetRing_kept (s : State) (n : RingNo) : (s.resetRing n).kept = s.kept := kept_of_fixed (s.resetRing_fixed n)
@[simp] theorem State.enterParking_kept (s : State) : (s.enterParking).kept = s.kept := kept_of_fixed (s.enterParking_fixed)
@[simp] theorem State.forgetUpdates_kept (s : State) : (s.forgetUpdates).kept = s.kept := kept_of_fixed (s.forgetUpdates_fixed)
@[simp] theorem State.forgetSlots_kept (s : State) : (s.forgetSlots).kept = s.kept := kept_of_fixed (s.forgetSlots_fixed)
@[simp] theorem State.dropBarrier_kept (s : State) (n : RingNo) : (s.dropBarrier n).kept = s.kept := kept_of_fixed (s.dropBarrier_fixed n)
@[simp] theorem State.dropBarriers_kept (s : State) : (s.dropBarriers).kept = s.kept := kept_of_fixed (s.dropBarriers_fixed)
@[simp] theorem State.askIntent_kept (s : State) : (s.askIntent).kept = s.kept := kept_of_fixed (s.askIntent_fixed)
@[simp] theorem State.startReplay_kept (s : State) : (s.startReplay).kept = s.kept := kept_of_fixed (s.startReplay_fixed)
@[simp] theorem State.stopReplay_kept (s : State) : (s.stopReplay).kept = s.kept := kept_of_fixed (s.stopReplay_fixed)
@[simp] theorem State.replayOver_kept (s : State) : (s.replayOver).kept = s.kept := kept_of_fixed (s.replayOver_fixed)
@[simp] theorem State.resume_kept (s : State) : (s.resume).kept = s.kept := kept_of_fixed (s.resume_fixed)
@[simp] theorem State.enterHeld_kept (s : State) : (s.enterHeld).kept = s.kept := kept_of_fixed (s.enterHeld_fixed)
@[simp] theorem State.finishPark_kept (s : State) (n : RingNo) (i : BitVec 16) : (s.finishPark n i).kept = s.kept := kept_of_fixed (s.finishPark_fixed n i)
@[simp] theorem State.parksFinish_kept (s : State) : (s.parksFinish).kept = s.kept := kept_of_fixed (s.parksFinish_fixed)
@[simp] theorem State.afterDischarge_kept (s : State) (b : Bool) : (s.afterDischarge b).kept = s.kept := kept_of_fixed (s.afterDischarge_fixed b)
@[simp] theorem State.railsEnded_kept (s : State) : (s.railsEnded).kept = s.kept := kept_of_fixed (s.railsEnded_fixed)
@[simp] theorem State.uvloSync_kept (s : State) (b : Bool) : (s.uvloSync b).kept = s.kept := kept_of_fixed (s.uvloSync_fixed b)
@[simp] theorem State.unsense_kept (s : State) : (s.unsense).kept = s.kept := kept_of_fixed (s.unsense_fixed)
@[simp] theorem State.endFoldback_kept (s : State) : (s.endFoldback).kept = s.kept := kept_of_fixed (s.endFoldback_fixed)
@[simp] theorem State.addEnergy_kept (s : State) (pj : Nat) : (s.addEnergy pj).kept = s.kept := kept_of_fixed (s.addEnergy_fixed pj)
@[simp] theorem State.drawLogic_kept (s : State) : (s.drawLogic).kept = s.kept := kept_of_fixed (s.drawLogic_fixed)
@[simp] theorem State.takeTargets_kept (s : State) : (s.takeTargets).kept = s.kept := kept_of_fixed (s.takeTargets_fixed)
@[simp] theorem State.takeSupply_kept (s : State) : (s.takeSupply).kept = s.kept := kept_of_fixed (s.takeSupply_fixed)
@[simp] theorem State.completeSupply_kept (s : State) : (s.completeSupply).kept = s.kept := kept_of_fixed (s.completeSupply_fixed)
@[simp] theorem State.tempTakes_kept (s : State) : (s.tempTakes).kept = s.kept := kept_of_fixed (s.tempTakes_fixed)
@[simp] theorem State.elapse_kept (s : State) (n : Nat) (h : s.port.resting = true) : (s.elapse n).kept = s.kept :=
  kept_of_fixed (s.elapse_fixed n h)
@[simp] theorem State.waitUntil_kept (s : State) (n : Nat) (h : s.port.resting = true) : (s.waitUntil n).kept = s.kept :=
  kept_of_fixed (s.waitUntil_fixed n h)
@[simp] theorem State.putCnt_kept (s : State) (c : Cnt) (v : Word) (e : Bool) : (s.putCnt c v e).kept = s.kept := kept_of_still (s.putCnt_still c v e)
@[simp] theorem State.enqueue_kept (s : State) (a : Access) : (s.enqueue a).kept = s.kept := kept_of_still (s.enqueue_still a)
@[simp] theorem State.requestMark_kept (s : State) (q : Nat) (k : Asker) : (s.requestMark q k).kept = s.kept := kept_of_still (s.requestMark_still q k)
@[simp] theorem State.dropGo_kept (s : State) : (s.dropGo).kept = s.kept := kept_of_still (s.dropGo_still)
@[simp] theorem State.releaseFloats_kept (s : State) : (s.releaseFloats).kept = s.kept := kept_of_still (s.releaseFloats_still)
@[simp] theorem State.replayCloses_kept (s : State) : (s.replayCloses).kept = s.kept := kept_of_still (s.replayCloses_still)
@[simp] theorem State.replayDischarge_kept (s : State) : (s.replayDischarge).kept = s.kept := kept_of_still (s.replayDischarge_still)
@[simp] theorem State.replayNext_kept (s : State) (b : Bool) : (s.replayNext b).kept = s.kept := kept_of_still (s.replayNext_still b)
@[simp] theorem State.applyDrive_kept (s : State) : (s.applyDrive).kept = s.kept := kept_of_still (s.applyDrive_still)
@[simp] theorem State.checkAhead_kept (s : State) : (s.checkAhead).kept = s.kept := kept_of_still (s.checkAhead_still)
@[simp] theorem State.drive_kept (s : State) (l : List Level) : (s.drive l).kept = s.kept := kept_of_still (s.drive_still l)
@[simp] theorem State.startFrame_kept (s : State) (l : List Level) : (s.startFrame l).kept = s.kept := kept_of_still (s.startFrame_still l)
@[simp] theorem State.onMem_kept (s : State) (f : MemPort → MemPort) : (s.onMem f).kept = s.kept := rfl
@[simp] theorem State.onThm_kept (s : State) (f : Thermal → Thermal) : (s.onThm f).kept = s.kept := rfl
@[simp] theorem State.evalWrange_kept (s : State) : (s.evalWrange).kept = s.kept := rfl
@[simp] theorem State.scReads_kept (s : State) (w : Word) : (s.scReads w).kept = s.kept := rfl
@[simp] theorem State.onReplaySlot_kept (s : State) (f : ReplaySlot → ReplaySlot) : (s.onReplaySlot f).kept = s.kept := rfl
@[simp] theorem State.dropReads_kept (s : State) (n : RingNo) (p : Asker → Bool) : (s.dropReads n p).kept = s.kept := by
  unfold State.dropReads
  try dsimp only
  repeat' split
  all_goals first | (simp [apply_ite State.kept]; done) | rfl | (simp [apply_ite State.kept]; rfl)
@[simp] theorem State.tombstone_kept (s : State) (q : Nat) : (s.tombstone q).kept = s.kept := by
  unfold State.tombstone
  try dsimp only
  repeat' split
  all_goals first | (simp [apply_ite State.kept]; done) | rfl | (simp [apply_ite State.kept]; rfl)
@[simp] theorem State.discardUpdate_kept (s : State) (n : RingNo) : (s.discardUpdate n).kept = s.kept := by
  unfold State.discardUpdate
  try dsimp only
  repeat' split
  all_goals first | (simp [apply_ite State.kept]; done) | rfl | (simp [apply_ite State.kept]; rfl)
@[simp] theorem State.stopRing_kept (s : State) (n : RingNo) : (s.stopRing n).kept = s.kept := by
  unfold State.stopRing
  try dsimp only
  repeat' split
  all_goals first | (simp [apply_ite State.kept]; done) | rfl | (simp [apply_ite State.kept]; rfl)
@[simp] theorem State.fetchFailure_kept (s : State) (n : RingNo) : (s.fetchFailure n).kept = s.kept := by
  unfold State.fetchFailure
  try dsimp only
  repeat' split
  all_goals first | (simp [apply_ite State.kept]; done) | rfl | (simp [apply_ite State.kept]; rfl)
@[simp] theorem State.commit_kept (s : State) (g : BitVec 4) (x : Staged) : (s.commit g x).kept = s.kept := rfl
@[simp] theorem State.railsOff_kept (s : State) : (s.railsOff).kept = s.kept := by
  unfold State.railsOff
  try dsimp only
  repeat' split
  all_goals first | (simp [apply_ite State.kept]; done) | rfl | (simp [apply_ite State.kept]; rfl)
@[simp] theorem State.fastDischarge_kept (s : State) : (s.fastDischarge).kept = s.kept := by
  unfold State.fastDischarge
  try dsimp only
  repeat' split
  all_goals first | (simp [apply_ite State.kept]; done) | rfl | (simp [apply_ite State.kept]; rfl)
@[simp] theorem State.interruptAll_kept (s : State) (c : Cut) : (s.interruptAll c).kept = s.kept := foldl_kept _ (fun s n => by simp) _ _
@[simp] theorem State.updateOpen_kept (s : State) : (s.updateOpen).kept = s.kept := by
  unfold State.updateOpen
  try dsimp only
  repeat' split
  all_goals first | (simp [apply_ite State.kept]; done) | rfl | (simp [apply_ite State.kept]; rfl)
@[simp] theorem State.markFault_kept (s : State) (m : OutNo) : (s.markFault m).kept = s.kept := by
  unfold State.markFault
  try dsimp only
  repeat' split
  all_goals first | (simp [apply_ite State.kept]; done) | rfl | (simp [apply_ite State.kept]; rfl)
@[simp] theorem State.outputFault_kept (s : State) (d : Nat) (m : OutNo) : (s.outputFault d m).kept = s.kept := by
  unfold State.outputFault
  try dsimp only
  repeat' split
  all_goals first | (simp [apply_ite State.kept]; done) | rfl | (simp [apply_ite State.kept]; rfl)
@[simp] theorem State.beginFoldback_kept (s : State) : (s.beginFoldback).kept = s.kept := by
  unfold State.beginFoldback
  try dsimp only
  repeat' split
  all_goals first | (simp [apply_ite State.kept]; done) | rfl | (simp [apply_ite State.kept]; rfl)
@[simp] theorem State.senseOk_kept (s : State) (ok : BitVec 3) : (s.senseOk ok).kept = s.kept := by
  unfold State.senseOk
  try dsimp only
  repeat' split
  all_goals first | (simp [apply_ite State.kept]; done) | rfl | (simp [apply_ite State.kept]; rfl)
@[simp] theorem State.accountFrame_kept (s : State) (f : Frames) : (s.accountFrame f).kept = s.kept := by
  unfold State.accountFrame
  try dsimp only
  repeat' split
  all_goals first | (simp [apply_ite State.kept]; done) | rfl | (simp [apply_ite State.kept]; rfl)
@[simp] theorem State.completeUpdate_kept (s : State) (n : RingNo) (i : BitVec 16) : (s.completeUpdate n i).kept = s.kept := by
  unfold State.completeUpdate
  try dsimp only
  repeat' split
  all_goals first | (simp [apply_ite State.kept]; done) | rfl | (simp [apply_ite State.kept]; rfl)
@[simp] theorem State.stepUpdate_kept (s : State) (n : RingNo) : (s.stepUpdate n).kept = s.kept := by
  unfold State.stepUpdate
  try dsimp only
  repeat' split
  all_goals first | (simp [apply_ite State.kept]; done) | rfl | (simp [apply_ite State.kept]; rfl)
@[simp] theorem State.stepReplay_kept (s : State) : (s.stepReplay).kept = s.kept := by
  unfold State.stepReplay
  try dsimp only
  repeat' split
  all_goals first | (simp [apply_ite State.kept]; done) | rfl | (simp [apply_ite State.kept]; rfl)
@[simp] theorem State.phaseBoundary_kept (s : State) (f : Frames) (bad : BitVec 292) : (s.phaseBoundary f bad).kept = s.kept := by
  unfold State.phaseBoundary
  split
  · split <;> simp
  · refine foldl_kept _ (fun s n => ?_) _ _
    split <;> simp
@[simp] theorem State.noteChange_kept (s : State) (a b : List Level) (w : List OutNo) (k : Nat) : (s.noteChange a b w k).kept = s.kept := rfl
@[simp] theorem State.stopClock_kept (s : State) (l : List Level) : (s.stopClock l).kept = s.kept := by
  unfold State.stopClock
  have h : ((s.onDrv fun d => { d with frames := none, sliced := false }).noteChange l
      (s.onDrv fun d => { d with frames := none, sliced := false }).levels [] 0).kept = s.kept := by
    rw [State.noteChange_kept, State.onDrv_kept _ _ rfl]
  dsimp only
  revert h
  generalize State.noteChange _ _ _ _ _ = t
  intro h
  split <;> simp [h]
@[simp] theorem State.frameEnd_kept (s : State) (f : Frames) (qp qn : Nat) (bad : BitVec 292) (v : Bool) : (s.frameEnd f qp qn bad v).kept = s.kept := by
  unfold State.frameEnd
  simp only [apply_ite State.kept, State.stopClock_kept, State.startFrame_kept, State.stepReplay_kept, ite_self]
  rw [foldl_kept _ (fun s n => by simp)]
  simp [apply_ite State.kept]
@[simp] theorem State.startUpdate_kept (s : State) (n : RingNo) : (s.startUpdate n).kept = s.kept := by
  unfold State.startUpdate
  try dsimp only
  repeat' split
  all_goals first | (simp [apply_ite State.kept]; done) | rfl | (simp [apply_ite State.kept]; rfl)
@[simp] theorem State.applyWindow_kept (s : State) : (s.applyWindow).kept = s.kept := by
  unfold State.applyWindow
  try dsimp only
  repeat' split
  all_goals first | (simp [apply_ite State.kept]; done) | rfl | (simp [apply_ite State.kept]; rfl)
@[simp] theorem State.setPoints_kept (s : State) (a b : Nat) (c : Int) : (s.setPoints a b c).kept = s.kept := rfl
@[simp] theorem State.askScan_kept (s : State) : (s.askScan).kept = s.kept := by
  unfold State.askScan
  try dsimp only
  repeat' split
  all_goals first | (simp [apply_ite State.kept]; done) | rfl | (simp [apply_ite State.kept]; rfl)
@[simp] theorem State.rescan_kept (s : State) (l : List OpenSlot) : (s.rescan l).kept = s.kept := by
  unfold State.rescan
  try dsimp only
  repeat' split
  all_goals first | (simp [apply_ite State.kept]; done) | rfl | (simp [apply_ite State.kept]; rfl)
@[simp] theorem State.requestIntent_kept (s : State) (n : RingNo) (i : BitVec 16) (u : Update) : (s.requestIntent n i u).kept = s.kept := by
  unfold State.requestIntent
  try dsimp only
  repeat' split
  all_goals first | (simp [apply_ite State.kept]; done) | rfl | (simp [apply_ite State.kept]; rfl)
@[simp] theorem State.scanEnd_kept (s : State) (c : Scan) : (s.scanEnd c).kept = s.kept := by
  unfold State.scanEnd
  try dsimp only
  repeat' split
  all_goals first | (simp [apply_ite State.kept]; done) | rfl | (simp [apply_ite State.kept]; rfl)
@[simp] theorem State.dropReplaySlot_kept (s : State) (q : Nat) : (s.dropReplaySlot q).kept = s.kept := by
  unfold State.dropReplaySlot
  try dsimp only
  repeat' split
  all_goals first | (simp [apply_ite State.kept]; done) | rfl | (simp [apply_ite State.kept]; rfl)
@[simp] theorem State.replayFails_kept (s : State) : (s.replayFails).kept = s.kept := by
  unfold State.replayFails
  try dsimp only
  repeat' split
  all_goals first | (simp [apply_ite State.kept]; done) | rfl | (simp [apply_ite State.kept]; rfl)
@[simp] theorem State.readFails_kept (s : State) (n : RingNo) : (s.readFails n).kept = s.kept := by
  unfold State.readFails
  try dsimp only
  repeat' split
  all_goals first | (simp [apply_ite State.kept]; done) | rfl | (simp [apply_ite State.kept]; rfl)
@[simp] theorem State.intentFails_kept (s : State) (n : RingNo) (q : Nat) : (s.intentFails n q).kept = s.kept := by
  unfold State.intentFails
  try dsimp only
  repeat' split
  all_goals first | (simp [apply_ite State.kept]; done) | rfl | (simp [apply_ite State.kept]; rfl)
@[simp] theorem State.retryLater_kept (s : State) (a : Access) : (s.retryLater a).kept = s.kept := by
  unfold State.retryLater
  try dsimp only
  repeat' split
  all_goals first | (simp [apply_ite State.kept]; done) | rfl | (simp [apply_ite State.kept]; rfl)
@[simp] theorem killAhead_kept (s : State) (n : RingNo) (i : BitVec 16) : (State.failUnit.killAhead s n i).kept = s.kept := by
  unfold State.failUnit.killAhead
  dsimp only
  repeat' split
  all_goals simp
@[simp] theorem State.failUnit_kept (s : State) (a : Access) : (s.failUnit a).kept = s.kept := by
  unfold State.failUnit
  split <;> simp
@[simp] theorem State.memFailure_kept (s : State) (c w d : Nat) (b : Bool) (a : Access) : (s.memFailure c w d b a).kept = s.kept := by
  unfold State.memFailure
  try dsimp only
  repeat' split
  all_goals first | (simp [apply_ite State.kept]; done) | rfl | (simp [apply_ite State.kept]; rfl)
@[simp] theorem State.beginTxn_kept (s : State) (o : OpenAccess) (k : TxKind) (f : Nat) : (s.beginTxn o k f).kept = s.kept := rfl
@[simp] theorem State.beginPiece_kept (s : State) (o : OpenAccess) : (s.beginPiece o).kept = s.kept := rfl
@[simp] theorem State.gotEntry_kept (s : State) (n : RingNo) (e : Entry) (t : List Byte) : (s.gotEntry n e t).kept = s.kept := by
  unfold State.gotEntry
  try dsimp only
  repeat' split
  all_goals first | (simp [apply_ite State.kept]; done) | rfl | (simp [apply_ite State.kept]; rfl)
@[simp] theorem State.closeSlot_kept (s : State) (q : Nat) : (s.closeSlot q).kept = s.kept := by
  unfold State.closeSlot
  try dsimp only
  repeat' split
  all_goals first | (simp [apply_ite State.kept]; done) | rfl | (simp [apply_ite State.kept]; rfl)
@[simp] theorem State.closeDone_kept (s : State) (q : Nat) : (s.closeDone q).kept = s.kept := by
  unfold State.closeDone
  try dsimp only
  repeat' split
  all_goals first | (simp [apply_ite State.kept]; done) | rfl | (simp [apply_ite State.kept]; rfl)
@[simp] theorem State.headDone_kept (s : State) (n : RingNo) (v : BitVec 16) : (s.headDone n v).kept = s.kept := by
  unfold State.headDone
  dsimp only
  rw [State.onEdge_kept, State.onRing_kept _ _ _ ⟨rfl, rfl, rfl, rfl, rfl⟩]
  split <;> simp
@[simp] theorem State.writeDone_kept (s : State) (a : Access) : (s.writeDone a).kept = s.kept := by
  unfold State.writeDone
  generalize a.asker = k
  cases k
  case head v => exact s.headDone_kept _ _
  case intent =>
    dsimp only
    split
    · split <;> simp
    · rfl
  case tomb => exact (State.closeSlot_kept _ _).trans (s.count_kept _)
  case close => exact s.closeDone_kept _
  case progress d => exact s.onSlot_kept _ _
  all_goals rfl
@[simp] theorem State.freePort_kept (s : State) : (s.freePort).kept = s.kept := rfl
@[simp] theorem State.riseNow_kept (s : State) : (s.riseNow).kept = s.kept := rfl
theorem State.runMrdy_kept (l : List Bool) (s : State) (h : s.port.resting = true) : (s.runMrdy l).kept = s.kept := by
  induction l generalizing s with
  | nil => rfl
  | cons b l ih =>
    unfold State.runMrdy
    have e : ((s.onMem fun m => { m with mrdy := b }).elapse 1).port = s.port := State.elapse_port _ _ h
    rw [ih _ (by rw [e]; exact h)]
    exact ((s.onMem fun m => { m with mrdy := b }).elapse_kept 1 h).trans rfl
@[simp] theorem State.takeRequest_kept (s : State) (a : Access) : (s.takeRequest a).kept = s.kept := by
  unfold State.takeRequest
  generalize a.asker = k
  cases k
  all_goals first
    | exact s.onRing_kept _ _ ⟨rfl, rfl, rfl, rfl, rfl⟩
    | exact s.onJnl_kept _ ⟨rfl, rfl, rfl⟩
    | rfl
@[simp] theorem State.resetPark_kept (s : State) : (s.resetPark).kept = s.kept := by
  unfold State.resetPark
  try dsimp only
  repeat' split
  all_goals first | (simp [apply_ite State.kept]; done) | rfl | (simp [apply_ite State.kept]; rfl)
@[simp] theorem State.drainEnd_kept (s : State) : (s.drainEnd).kept = s.kept := by
  unfold State.drainEnd
  try dsimp only
  repeat' split
  all_goals first | (simp [apply_ite State.kept]; done) | rfl | (simp [apply_ite State.kept]; rfl)
@[simp] theorem State.resetStop_kept (s : State) (n : RingNo) : (s.resetStop n).kept = s.kept := by
  unfold State.resetStop
  rw [← s.stopRing_kept n]
  refine State.onRing_kept' _ n _ ?_
  simp only [Ring.kept, BitVec.and_assoc, BitVec.and_self]
@[simp] theorem State.cutPower_kept (s : State) (c : Cut) : (s.cutPower c).kept = s.kept := by
  unfold State.cutPower
  try dsimp only
  repeat' split
  all_goals first | (simp [apply_ite State.kept]; done) | rfl | (simp [apply_ite State.kept]; rfl)
@[simp] theorem State.beginClocking_kept (s : State) : (s.beginClocking).kept = s.kept := by
  unfold State.beginClocking
  try dsimp only
  repeat' split
  all_goals first | (simp [apply_ite State.kept]; done) | rfl | (simp [apply_ite State.kept]; rfl)
theorem State.firstEdge_kept (s : State) (h : s.port.resting = true) : s.firstEdge.kept = s.kept := by
  unfold State.firstEdge
  rw [State.elapse_kept]
  · simp
  · exact h
@[simp] theorem State.takeEntry_kept (s : State) (n : RingNo) : (s.takeEntry n).kept = s.kept := by
  unfold State.takeEntry
  try dsimp only
  repeat' split
  all_goals first | (simp [apply_ite State.kept]; done) | rfl | (simp [apply_ite State.kept]; rfl)
@[simp] theorem State.beginRamp_kept (s : State) : (s.beginRamp).kept = s.kept := by
  unfold State.beginRamp
  try dsimp only
  repeat' split
  all_goals first | (simp [apply_ite State.kept]; done) | rfl | (simp [apply_ite State.kept]; rfl)
@[simp] theorem State.dacStep_kept (s : State) : (s.dacStep).kept = s.kept := by
  unfold State.dacStep
  try dsimp only
  repeat' split
  all_goals first | (simp [apply_ite State.kept]; done) | rfl | (simp [apply_ite State.kept]; rfl)
@[simp] theorem State.railStep_kept (s : State) : (s.railStep).kept = s.kept := by
  unfold State.railStep
  try dsimp only
  repeat' split
  all_goals first | (simp [apply_ite State.kept]; done) | rfl | (simp [apply_ite State.kept]; rfl)
@[simp] theorem State.sense_kept (s : State) (ok : BitVec 3) : (s.sense ok).kept = s.kept := by
  unfold State.sense
  try dsimp only
  repeat' split
  all_goals first | (simp [apply_ite State.kept]; done) | rfl | (simp [apply_ite State.kept]; rfl)
@[simp] theorem State.slewAll_kept (s : State) : (s.slewAll).kept = s.kept := by
  unfold State.slewAll
  try dsimp only
  repeat' split
  all_goals first | (simp [apply_ite State.kept]; done) | rfl | (simp [apply_ite State.kept]; rfl)
@[simp] theorem State.timeoutRing_kept (s : State) (ok : BitVec 3) (n : RingNo) : (s.timeoutRing ok n).kept = s.kept := by
  unfold State.timeoutRing
  try dsimp only
  repeat' split
  all_goals first | (simp [apply_ite State.kept]; done) | rfl | (simp [apply_ite State.kept]; rfl)
@[simp] theorem State.timeoutReplay_kept (s : State) (ok : BitVec 3) : (s.timeoutReplay ok).kept = s.kept := by
  unfold State.timeoutReplay
  try dsimp only
  repeat' split
  all_goals first | (simp [apply_ite State.kept]; done) | rfl | (simp [apply_ite State.kept]; rfl)
@[simp] theorem State.timeout_kept (s : State) (ok : BitVec 3) : (s.timeout ok).kept = s.kept := by
  have h : ((List.finRange 4).foldl (fun s n => s.timeoutRing ok n)
      (((s.senseOk ok).setCause (bitMask 26)).onSup fun u => { u with noPreRamp := true })).kept = s.kept := by
    rw [foldl_kept _ (fun s n => by simp), State.onSup_kept _ _ rfl]
    simp
  unfold State.timeout
  dsimp only
  revert h
  generalize (List.finRange 4).foldl (fun (s : State) n => s.timeoutRing ok n) _ = t
  intro h
  split
  · exact (State.timeoutReplay_kept _ _).trans h
  · split
    · exact t.startDischarge_kept.trans h
    · exact (State.log_kept _ _ _ _ _).trans (t.startDischarge_kept.trans h)
@[simp] theorem State.vcomStep_kept (s : State) (p n j : Nat) : (s.vcomStep p n j).kept = s.kept := by
  unfold State.vcomStep
  try dsimp only
  repeat' split
  all_goals first | (simp [apply_ite State.kept]; done) | rfl | (simp [apply_ite State.kept]; rfl)
@[simp] theorem State.beginBleed_kept (s : State) : (s.beginBleed).kept = s.kept := by
  unfold State.beginBleed
  try dsimp only
  repeat' split
  all_goals first | (simp [apply_ite State.kept]; done) | rfl | (simp [apply_ite State.kept]; rfl)
@[simp] theorem State.applyThermal_kept (s : State) : (s.applyThermal).kept = s.kept := by
  unfold State.applyThermal
  try dsimp only
  repeat' split
  all_goals first | (simp [apply_ite State.kept]; done) | rfl | (simp [apply_ite State.kept]; rfl)
@[simp] theorem State.takeResult_kept (s : State) (m : Int) (e : Nat) : (s.takeResult m e).kept = s.kept := by
  unfold State.takeResult
  try dsimp only
  repeat' split
  all_goals first | (simp [apply_ite State.kept]; done) | rfl | (simp [apply_ite State.kept]; rfl)
@[simp] theorem State.thresholds_kept (s : State) : (s.thresholds).kept = s.kept := by
  unfold State.thresholds
  try dsimp only
  repeat' split
  all_goals first | (simp [apply_ite State.kept]; done) | rfl | (simp [apply_ite State.kept]; rfl)
@[simp] theorem State.resultHolds_kept (s : State) : (s.resultHolds).kept = s.kept := by
  unfold State.resultHolds
  try dsimp only
  repeat' split
  all_goals first | (simp [apply_ite State.kept]; done) | rfl | (simp [apply_ite State.kept]; rfl)
@[simp] theorem State.retryMarks_kept (s : State) : (s.retryMarks).kept = s.kept := by
  unfold State.retryMarks
  refine foldl_kept _ (fun s n => ?_) _ _
  split <;> simp
@[simp] theorem State.result_kept (s : State) (m : Int) (c : List (Nat × Int × Int)) (pj : Nat) : (s.result m c pj).kept = s.kept := by
  unfold State.result
  try dsimp only
  repeat' split
  all_goals first | (simp [apply_ite State.kept]; done) | rfl | (simp [apply_ite State.kept]; rfl)
@[simp] theorem State.disturb_kept (s : State) : (s.disturb).kept = s.kept := by
  have e : ∀ v : Vector Ring 4, (s.rings.zipWith Ring.bound v).map Ring.kept = s.rings.map Ring.kept := by
    intro v
    ext i hi
    · simp [Ring.kept, Ring.bound]
    all_goals simp [Ring.kept, Ring.bound]
  unfold State.disturb
  split
  · rfl
  · unfold State.kept
    simp only [e]
    rfl
@[simp] theorem State.arrive_kept (s : State) (dt : Nat) (h : s.port.resting = true) : (s.arrive dt).kept = s.kept := by
  simp [State.arrive, h]

/-! ### Operations that may meet a host error -/

theorem settings_of_kept {s t : State} (h : t.kept = s.kept) : t.settings = s.settings := by
  unfold State.settings
  rw [h]

@[simp] theorem State.err_settings (s : State) (e : HostError) : (s.err e).settings = s.settings := rfl
@[simp] theorem State.settle_settings (s : State) : (s.settle).settings = s.settings :=
  settings_of_kept (s.settle_kept)
@[simp] theorem State.holdArm_settings (s : State) : (s.holdArm).settings = s.settings :=
  settings_of_kept (s.holdArm_kept)
@[simp] theorem State.defer_settings (s : State) (d : Deferred) : (s.defer d).settings = s.settings :=
  settings_of_kept (s.defer_kept d)
@[simp] theorem State.setCause_settings (s : State) (m : Word) : (s.setCause m).settings = s.settings :=
  settings_of_kept (s.setCause_kept m)
@[simp] theorem State.setStatus_settings (s : State) (m : Word) : (s.setStatus m).settings = s.settings :=
  settings_of_kept (s.setStatus_kept m)
@[simp] theorem State.onEdge_settings (s : State) (f : EdgeRec → EdgeRec) : (s.onEdge f).settings = s.settings :=
  settings_of_kept (s.onEdge_kept f)
@[simp] theorem State.goTo_settings (s : State) (x : EngState) : (s.goTo x).settings = s.settings :=
  settings_of_kept (s.goTo_kept x)
@[simp] theorem State.count_settings (s : State) (c : Cnt) : (s.count c).settings = s.settings :=
  settings_of_kept (s.count_kept c)
@[simp] theorem State.onSlot_settings (s : State) (q : Nat) (f : OpenSlot → OpenSlot) : (s.onSlot q f).settings = s.settings :=
  settings_of_kept (s.onSlot_kept q f)
@[simp] theorem State.finishEntry_settings (s : State) (n : RingNo) (i : BitVec 16) : (s.finishEntry n i).settings = s.settings :=
  settings_of_kept (s.finishEntry_kept n i)
@[simp] theorem State.log_settings (s : State) (c d : Nat) (n : RingNo) (i : Nat) : (s.log_ c d n i).settings = s.settings :=
  settings_of_kept (s.log_kept c d n i)
@[simp] theorem State.onUpdate_settings (s : State) (n : RingNo) (f : Update → Update) : (s.onUpdate n f).settings = s.settings :=
  settings_of_kept (s.onUpdate_kept n f)
@[simp] theorem State.elapse_settings (s : State) (n : Nat) (h : s.port.resting = true) : (s.elapse n).settings = s.settings :=
  settings_of_kept (s.elapse_kept n h)
@[simp] theorem State.waitUntil_settings (s : State) (n : Nat) (h : s.port.resting = true) : (s.waitUntil n).settings = s.settings :=
  settings_of_kept (s.waitUntil_kept n h)
@[simp] theorem State.requestMark_settings (s : State) (q : Nat) (k : Asker) : (s.requestMark q k).settings = s.settings :=
  settings_of_kept (s.requestMark_kept q k)
@[simp] theorem State.replayNext_settings (s : State) (b : Bool) : (s.replayNext b).settings = s.settings :=
  settings_of_kept (s.replayNext_kept b)
@[simp] theorem State.onMem_settings (s : State) (f : MemPort → MemPort) : (s.onMem f).settings = s.settings :=
  settings_of_kept (s.onMem_kept f)
@[simp] theorem State.onThm_settings (s : State) (f : Thermal → Thermal) : (s.onThm f).settings = s.settings :=
  settings_of_kept (s.onThm_kept f)
@[simp] theorem State.onReplaySlot_settings (s : State) (f : ReplaySlot → ReplaySlot) : (s.onReplaySlot f).settings = s.settings :=
  settings_of_kept (s.onReplaySlot_kept f)
@[simp] theorem State.tombstone_settings (s : State) (q : Nat) : (s.tombstone q).settings = s.settings :=
  settings_of_kept (s.tombstone_kept q)
@[simp] theorem State.completeUpdate_settings (s : State) (n : RingNo) (i : BitVec 16) : (s.completeUpdate n i).settings = s.settings :=
  settings_of_kept (s.completeUpdate_kept n i)
@[simp] theorem State.askScan_settings (s : State) : (s.askScan).settings = s.settings :=
  settings_of_kept (s.askScan_kept)
@[simp] theorem State.requestIntent_settings (s : State) (n : RingNo) (i : BitVec 16) (u : Update) : (s.requestIntent n i u).settings = s.settings :=
  settings_of_kept (s.requestIntent_kept n i u)
@[simp] theorem State.scanEnd_settings (s : State) (c : Scan) : (s.scanEnd c).settings = s.settings :=
  settings_of_kept (s.scanEnd_kept c)
@[simp] theorem State.memFailure_settings (s : State) (c w d : Nat) (b : Bool) (a : Access) : (s.memFailure c w d b a).settings = s.settings :=
  settings_of_kept (s.memFailure_kept c w d b a)
@[simp] theorem State.beginTxn_settings (s : State) (o : OpenAccess) (k : TxKind) (f : Nat) : (s.beginTxn o k f).settings = s.settings :=
  settings_of_kept (s.beginTxn_kept o k f)
@[simp] theorem State.beginPiece_settings (s : State) (o : OpenAccess) : (s.beginPiece o).settings = s.settings :=
  settings_of_kept (s.beginPiece_kept o)
@[simp] theorem State.gotEntry_settings (s : State) (n : RingNo) (e : Entry) (t : List Byte) : (s.gotEntry n e t).settings = s.settings :=
  settings_of_kept (s.gotEntry_kept n e t)
@[simp] theorem State.writeDone_settings (s : State) (a : Access) : (s.writeDone a).settings = s.settings :=
  settings_of_kept (s.writeDone_kept a)
@[simp] theorem State.freePort_settings (s : State) : (s.freePort).settings = s.settings :=
  settings_of_kept (s.freePort_kept)
@[simp] theorem State.riseNow_settings (s : State) : (s.riseNow).settings = s.settings :=
  settings_of_kept (s.riseNow_kept)
@[simp] theorem State.takeRequest_settings (s : State) (a : Access) : (s.takeRequest a).settings = s.settings :=
  settings_of_kept (s.takeRequest_kept a)
@[simp] theorem State.takeEntry_settings (s : State) (n : RingNo) : (s.takeEntry n).settings = s.settings :=
  settings_of_kept (s.takeEntry_kept n)
@[simp] theorem State.disturb_settings (s : State) : (s.disturb).settings = s.settings :=
  settings_of_kept (s.disturb_kept)
@[simp] theorem State.onRing_settings (s : State) (n : RingNo) (f : Ring → Ring)
    (h : (f s.rings[n]).ctl = s.rings[n].ctl ∧ (f s.rings[n]).base = s.rings[n].base ∧
      (f s.rings[n]).tailAddr = s.rings[n].tailAddr ∧ (f s.rings[n]).headAddr = s.rings[n].headAddr ∧
      (f s.rings[n]).poll = s.rings[n].poll) : (s.onRing n f).settings = s.settings := settings_of_kept (s.onRing_kept n f h)
@[simp] theorem State.onJnl_settings (s : State) (f : Journal → Journal)
    (h : (f s.jnl).ctl = s.jnl.ctl ∧ (f s.jnl).base = s.jnl.base ∧ (f s.jnl).size = s.jnl.size) :
    (s.onJnl f).settings = s.settings := settings_of_kept (s.onJnl_kept f h)
@[simp] theorem State.onSup_settings (s : State) (f : Supply → Supply) (h : (f s.sup).vlim = s.sup.vlim) :
    (s.onSup f).settings = s.settings := settings_of_kept (s.onSup_kept f h)
@[simp] theorem State.gotTail_settings (s : State) (n : RingNo) (bs : List Byte) : (s.gotTail n bs).settings = s.settings := by
  unfold State.gotTail
  try dsimp only
  repeat' split
  all_goals first | (simp [apply_ite State.settings]; done) | rfl
@[simp] theorem State.gotProbe_settings (s : State) (n : RingNo) (bs : List Byte) : (s.gotProbe n bs).settings = s.settings := by
  unfold State.gotProbe
  try dsimp only
  repeat' split
  all_goals first | (simp [apply_ite State.settings]; done) | rfl
@[simp] theorem State.readsDone_settings (s : State) (n : RingNo) : (s.readsDone n).settings = s.settings := by
  unfold State.readsDone
  try dsimp only
  repeat' split
  all_goals first | (simp [apply_ite State.settings]; done) | rfl
@[simp] theorem State.gotUpdateRead_settings (s : State) (n : RingNo) (f : Update → Update) : (s.gotUpdateRead n f).settings = s.settings := by
  unfold State.gotUpdateRead
  try dsimp only
  repeat' split
  all_goals first | (simp [apply_ite State.settings]; done) | rfl
@[simp] theorem State.gotAhead_settings (s : State) (n : RingNo) (i : BitVec 16) (f : Fetched → Fetched) (g : Update → Update) : (s.gotAhead n i f g).settings = s.settings := by
  unfold State.gotAhead
  try dsimp only
  repeat' split
  all_goals first | (simp [apply_ite State.settings]; done) | rfl
@[simp] theorem State.gotReplayRead_settings (s : State) (f : ReplaySlot → ReplaySlot) : (s.gotReplayRead f).settings = s.settings := by
  unfold State.gotReplayRead
  try dsimp only
  repeat' split
  all_goals first | (simp [apply_ite State.settings]; done) | rfl
@[simp] theorem State.gotReplayIntent_settings (s : State) (q : Nat) (bs : List Byte) : (s.gotReplayIntent q bs).settings = s.settings := by
  unfold State.gotReplayIntent
  try dsimp only
  repeat' split
  all_goals first | (simp [apply_ite State.settings]; done) | rfl
@[simp] theorem State.readDone_settings (s : State) (o : OpenAccess) (bs : List Byte) : (s.readDone o bs).settings = s.settings := by
  unfold State.readDone
  try dsimp only
  repeat' split
  all_goals first | (simp [apply_ite State.settings]; done) | rfl
@[simp] theorem State.startAccess_settings (s : State) (a : Access) : (s.startAccess a).settings = s.settings := by
  unfold State.startAccess
  try dsimp only
  repeat' split
  all_goals first | (simp [apply_ite State.settings]; done) | rfl
@[simp] theorem State.arbitrate_settings (s : State) : (s.arbitrate).settings = s.settings := by
  unfold State.arbitrate
  try dsimp only
  repeat' split
  all_goals first | (simp [apply_ite State.settings]; done) | rfl
@[simp] theorem State.pieceDone_settings (s : State) (o : OpenAccess) (k : Nat) (bs : List Byte) : (s.pieceDone o k bs).settings = s.settings := by
  unfold State.pieceDone
  try dsimp only
  repeat' split
  all_goals first | (simp [apply_ite State.settings]; done) | rfl
@[simp] theorem State.txnFails_kept (s : State) (o : OpenAccess) (t : Txn) (c : Nat) : (s.txnFails o t c).kept = s.kept := by
  unfold State.txnFails; simp
@[simp] theorem State.txnFails_settings (s : State) (o : OpenAccess) (t : Txn) (c : Nat) : (s.txnFails o t c).settings = s.settings :=
  settings_of_kept (s.txnFails_kept o t c)
@[simp] theorem State.txnEnd_settings (s : State) (o : OpenAccess) (t : Txn) (bs : List Byte) : (s.txnEnd o t bs).settings = s.settings := by
  unfold State.txnEnd
  try dsimp only
  repeat' split
  all_goals first | (simp [apply_ite State.settings]; done) | rfl
theorem State.abortTxn_settings (s : State) (o : OpenAccess) (t : Txn) (c : Nat) (h : s.port.resting = true) :
    (s.abortTxn o t c).settings = s.settings := by
  have e : (s.txnFails o t c).port = s.port := (congrArg State.port (s.txnFails_kept o t c) :)
  unfold State.abortTxn
  rw [State.riseNow_settings, State.elapse_settings _ _ (by rw [e]; exact h), State.txnFails_settings]
theorem State.atEdge_settings (s : State) (e : Nat) (f : OpenAccess → State → State) (h : s.port.resting = true)
    (hf : ∀ o s, s.port.resting = true → (f o s).settings = s.settings) : (s.atEdge e f).settings = s.settings := by
  have r : (s.waitUntil e).port.resting = true := by rw [State.waitUntil_port _ _ h]; exact h
  unfold State.atEdge
  dsimp only
  split
  · split
    · rw [hf _ _ r, State.waitUntil_settings _ _ h]
    · exact s.waitUntil_settings _ h
  · exact s.waitUntil_settings _ h
theorem State.endTxn_settings (s : State) (o : OpenAccess) (t : Txn) (w : Nat) (bs : List Byte) (h : s.port.resting = true) :
    (s.endTxn o t w bs).settings = s.settings := by
  unfold State.endTxn
  dsimp only
  repeat' split
  all_goals exact State.atEdge_settings _ _ _ h (fun o s r => by first | exact State.abortTxn_settings _ _ _ _ r | simp)
@[simp] theorem State.admitUpdate_settings (s : State) (n : RingNo) (f : Fetched) : (s.admitUpdate n f).settings = s.settings := by
  unfold State.admitUpdate
  dsimp only
  rw [State.onSup_settings _ _ rfl, State.onRing_settings _ _ _ ⟨rfl, rfl, rfl, rfl, rfl⟩]
  split <;> rfl

end Sys2Proof.Machine
end

