-- ==== Sys2Proof/Laws/Now.lean ====
section
/-! SUPPORT. The edge count: no operation moves it but a passing edge; and the form in which a command's next state is shown. -/

set_option linter.unusedTactic false
set_option linter.unusedSimpArgs false
set_option linter.unreachableTactic false

namespace Sys2Proof.Machine

theorem foldl_now {α : Type} (f : State → α → State) (h : ∀ s a, (f s a).now = s.now) (l : List α) (s : State) :
    (l.foldl f s).now = s.now := by
  induction l generalizing s with
  | nil => rfl
  | cons a l ih => rw [List.foldl_cons, ih, h]

@[simp] theorem State.log_now (s : State) (c d : Nat) (n : RingNo) (i : Nat) : (s.log_ c d n i).now = s.now := by
  unfold State.log_; split <;> rfl

@[simp] theorem State.takeSupply_now (s : State) : s.takeSupply.now = s.now := by
  unfold State.takeSupply; split
  · split <;> rfl
  · rfl

@[simp] theorem State.completeSupply_now (s : State) : s.completeSupply.now = s.now := by
  have h := s.takeSupply_now
  unfold State.completeSupply
  dsimp only
  split
  · split
    · exact h
    · split
      · exact h
      · split <;> exact h
  · split <;> exact h

@[simp] theorem State.onUpdate_now (s : State) (n : RingNo) (f : Update → Update) : (s.onUpdate n f).now = s.now := rfl

@[simp] theorem State.interruptRing_now (s : State) (c : Cut) (n : RingNo) : (s.interruptRing c n).now = s.now := by
  unfold State.interruptRing
  split
  · split
    · dsimp only; split <;> rfl
    · rfl
  · rfl

@[simp] theorem State.abandonRing_now (s : State) (p : Cut → Bool) (n : RingNo) : (s.abandonRing p n).now = s.now := by
  unfold State.abandonRing
  split
  · split
    · split
      · rfl
      · exact State.log_now _ _ _ _ _
    · rfl
  · rfl

@[simp] theorem State.abandonCut_now (s : State) (p : Cut → Bool) : (s.abandonCut p).now = s.now :=
  foldl_now _ (fun s n => s.abandonRing_now p n) _ _

@[simp] theorem State.abandonAll_now (s : State) : s.abandonAll.now = s.now := s.abandonCut_now _

@[simp] theorem State.askIntent_now (s : State) : s.askIntent.now = s.now := (congrArg State.now s.askIntent_still :)
@[simp] theorem State.replayCloses_now (s : State) : s.replayCloses.now = s.now := (congrArg State.now s.replayCloses_still :)
@[simp] theorem State.finishEntry_now (s : State) (n : RingNo) (i : BitVec 16) : (s.finishEntry n i).now = s.now := rfl

@[simp] theorem State.endCodes_now (s : State) : s.endCodes.now = s.now := by unfold State.endCodes; split <;> rfl

@[simp] theorem State.startReplay_now (s : State) : s.startReplay.now = s.now := by
  unfold State.startReplay
  rw [State.askIntent_now]; rfl

@[simp] theorem State.replayOver_now (s : State) : s.replayOver.now = s.now := by
  unfold State.replayOver; dsimp only; split <;> rfl

@[simp] theorem State.resume_now (s : State) : s.resume.now = s.now := by
  unfold State.resume
  split
  · simp
  · split
    · rw [State.replayOver_now]; rfl
    · rfl

@[simp] theorem State.dropBarriers_now (s : State) : s.dropBarriers.now = s.now :=
  foldl_now State.dropBarrier (fun _ _ => rfl) _ _

@[simp] theorem State.afterDischarge_now (s : State) (h : Bool) : (s.afterDischarge h).now = s.now := by
  have held : s.enterHeld.now = s.now := by
    unfold State.enterHeld; exact (congrArg State.now (State.count_still _ .held) :).trans (State.log_now _ _ _ _ _)
  unfold State.afterDischarge
  split
  · split
    · exact held
    · rfl
  · split
    · exact held
    · rfl
  · split
    · split
      · split
        · rfl
        · exact s.replayCloses_now
      · rfl
    · rfl
  · rfl

@[simp] theorem State.parksFinish_now (s : State) : s.parksFinish.now = s.now := by
  unfold State.parksFinish
  refine foldl_now _ (fun s n => ?_) _ _
  split <;> rfl

@[simp] theorem State.railsEnded_now (s : State) : s.railsEnded.now = s.now := by
  unfold State.railsEnded
  dsimp only
  rw [State.afterDischarge_now, State.parksFinish_now]
  exact State.completeSupply_now _

@[simp] theorem State.stopReplay_now (s : State) : s.stopReplay.now = s.now := rfl

@[simp] theorem State.uvloSync_now (s : State) (h : Bool) : (s.uvloSync h).now = s.now := by
  have e : ((((s.setCause (bitMask 12)).log_ 8 0 0 0).dropBarriers).abandonCut (· == .uvlo)).now = s.now := by
    rw [State.abandonCut_now, State.dropBarriers_now, State.log_now]; rfl
  unfold State.uvloSync
  dsimp only
  generalize (((s.setCause (bitMask 12)).log_ 8 0 0 0).dropBarriers).abandonCut (· == .uvlo) = t at e
  split
  · rfl
  · split
    · rw [State.resume_now, e]
    · rw [State.resume_now, e]
    · rw [State.resume_now, e]
    · rw [State.startReplay_now, State.stopReplay_now, e]
    · exact e

@[simp] theorem State.resetRing_now (s : State) (n : RingNo) : (s.resetRing n).now = s.now := by
  unfold State.resetRing
  dsimp only
  split
  · split
    · split
      · exact State.interruptRing_now _ _ _
      · exact (State.log_now _ _ _ _ _).trans (State.interruptRing_now _ _ _)
    · exact State.interruptRing_now _ _ _
  · exact State.interruptRing_now _ _ _

@[simp] theorem State.enterParking_now (s : State) : s.enterParking.now = s.now := by
  have h : (if s.pw.busy then (List.finRange 4).foldl State.resetRing s else s).now = s.now := by
    split
    · exact foldl_now _ (fun s n => s.resetRing_now n) _ _
    · rfl
  unfold State.enterParking
  dsimp only
  split
  · rfl
  · revert h
    generalize (if s.pw.busy then (List.finRange 4).foldl State.resetRing s else s) = t
    intro h
    repeat' split
    all_goals exact h

@[simp] theorem State.forgetUpdates_now (s : State) : s.forgetUpdates.now = s.now := by
  unfold State.forgetUpdates
  dsimp only
  rw [State.abandonAll_now, foldl_now _ (fun s n => s.onUpdate_now n _)]

theorem State.runDeferred_now (s : State) (d : Deferred) : (s.runDeferred d).now = s.now := by
  cases d <;> simp only [State.runDeferred]
  case enterArmed => split <;> rfl
  case enterParking => exact s.enterParking_now
  case endRecovery =>
    have h : (s.onJnl fun j => { j with replay := none }).replayOver.endCodes.now = s.now := by
      rw [State.endCodes_now, State.replayOver_now]; rfl
    repeat' split
    all_goals exact h
  case forgetSlots => exact State.forgetUpdates_now _
  case dropSequencing =>
    split
    · rw [State.afterDischarge_now]; exact State.completeSupply_now _
    · rfl
  case tempCurrent => unfold State.tempTakes; dsimp only; split <;> rfl
  case floatFaulted => exact (congrArg State.now (State.unsense_still _) :)
  case dropLimited => unfold State.endFoldback; split <;> rfl
  case replayFrame =>
    split
    · exact (congrArg State.now s.startReplayFrame_still :)
    · rfl
  case leaveHeld => split <;> rfl
  case railsEnd => exact s.railsEnded_now
  case uvloSeen => exact s.uvloSync_now _
  all_goals rfl

@[simp] theorem State.addEnergy_now (s : State) (e : Nat) : (s.addEnergy e).now = s.now := rfl

@[simp] theorem State.drawLogic_now (s : State) : s.drawLogic.now = s.now := s.addEnergy_now _

/-! ### The port's part of an edge -/

@[simp] theorem State.holdArm_now (s : State) : s.holdArm.now = s.now := (congrArg State.now s.holdArm_still :)
@[simp] theorem State.count_now (s : State) (c : Cnt) : (s.count c).now = s.now := (congrArg State.now (s.count_still c) :)
@[simp] theorem State.putCnt_now (s : State) (c : Cnt) (v : Word) (e : Bool) : (s.putCnt c v e).now = s.now :=
  (congrArg State.now (s.putCnt_still c v e) :)
@[simp] theorem State.requestMark_now (s : State) (q : Nat) (k : Asker) : (s.requestMark q k).now = s.now :=
  (congrArg State.now (s.requestMark_still q k) :)
@[simp] theorem State.onSlot_now (s : State) (q : Nat) (f : OpenSlot → OpenSlot) : (s.onSlot q f).now = s.now := rfl
@[simp] theorem State.enqueue_now (s : State) (a : Access) : (s.enqueue a).now = s.now := rfl
@[simp] theorem State.commit_now (s : State) (g : BitVec 4) (x : Staged) : (s.commit g x).now = s.now := rfl
@[simp] theorem State.takeTargets_now (s : State) : s.takeTargets.now = s.now := rfl
@[simp] theorem State.recover_now (s : State) : s.recover.now = s.now := rfl

theorem ite_now {p : Prop} [Decidable p] {s a b : State} (ha : a.now = s.now) (hb : b.now = s.now) : (if p then a else b).now = s.now := by
  split
  · exact ha
  · exact hb

@[simp] theorem State.heal_now (s : State) : (s.heal).now = s.now := by
  unfold State.heal
  try dsimp only
  repeat' split
  all_goals first | rfl | (simp; done) | (simp; rfl)

@[simp] theorem State.dropReads_now (s : State) (n : RingNo) (p : Asker → Bool) : (s.dropReads n p).now = s.now := by
  unfold State.dropReads
  try dsimp only
  repeat' split
  all_goals first | rfl | (simp; done) | (simp; rfl)

@[simp] theorem State.tombstone_now (s : State) (q : Nat) : (s.tombstone q).now = s.now := by
  unfold State.tombstone
  try dsimp only
  repeat' split
  all_goals first | rfl | (simp; done) | (simp; rfl)

@[simp] theorem State.discardUpdate_now (s : State) (n : RingNo) : (s.discardUpdate n).now = s.now := by
  unfold State.discardUpdate
  try dsimp only
  repeat' split
  all_goals first | rfl | (simp; done) | (simp; rfl)

@[simp] theorem State.stopRing_now (s : State) (n : RingNo) : (s.stopRing n).now = s.now := by
  unfold State.stopRing
  try dsimp only
  repeat' split
  all_goals first | rfl | (simp; done) | (simp; rfl)

@[simp] theorem State.lockViolation_now (s : State) : (s.lockViolation).now = s.now := by
  unfold State.lockViolation
  try dsimp only
  repeat' split
  all_goals first | rfl | (simp; done) | (simp; rfl)

@[simp] theorem State.writeShadow_now (s : State) (r : StReg) (v : Word) : (s.writeShadow r v).now = s.now := by
  unfold State.writeShadow
  try dsimp only
  repeat' split
  all_goals first | rfl | (simp; done) | (simp; rfl)

@[simp] theorem State.hostShadow_now (s : State) (r : StReg) (v : Word) : (s.hostShadow r v).now = s.now := by
  unfold State.hostShadow
  try dsimp only
  repeat' split
  all_goals first | rfl | (simp; done) | (simp; rfl)

@[simp] theorem State.resetPark_now (s : State) : (s.resetPark).now = s.now := by
  unfold State.resetPark
  try dsimp only
  repeat' split
  all_goals first | rfl | (simp; done) | (simp; rfl)

@[simp] theorem State.drainEnd_now (s : State) : (s.drainEnd).now = s.now := by
  unfold State.drainEnd
  try dsimp only
  repeat' split
  all_goals first | rfl | (simp; done) | (simp; rfl)

@[simp] theorem State.resetStop_now (s : State) (n : RingNo) : (s.resetStop n).now = s.now := by
  unfold State.resetStop
  try dsimp only
  repeat' split
  all_goals first | rfl | (simp; done) | (simp; rfl)

@[simp] theorem State.functionReset_now (s : State) : s.functionReset.now = s.now := by
  have e : ((List.finRange 4).foldl State.resetStop
        ((if s.heal.jnl.replay.isSome then s.heal.stopReplay else s.heal).onPw fun p =>
          { p with busy := true, drain := none, shut := decide (p.st = .shutdown) })).now = s.now := by
    rw [foldl_now _ (fun s n => by simp), State.onPw_now]
    split <;> simp
  unfold State.functionReset
  dsimp only
  revert e
  generalize (List.finRange 4).foldl State.resetStop _ = t
  intro e
  refine ite_now ?_ e
  rw [State.drainEnd_now]
  exact e

@[simp] theorem State.writeRingCtl_now (s : State) (n : RingNo) (v : Word) : (s.writeRingCtl n v).now = s.now := by
  unfold State.writeRingCtl
  try dsimp only
  repeat' split
  all_goals first | rfl | (simp; done) | (simp; rfl)

@[simp] theorem State.askScan_now (s : State) : (s.askScan).now = s.now := by
  unfold State.askScan
  try dsimp only
  repeat' split
  all_goals first | rfl | (simp; done) | (simp; rfl)

@[simp] theorem State.journalCheck_now (s : State) : (s.journalCheck).now = s.now := by
  unfold State.journalCheck
  try dsimp only
  repeat' split
  all_goals first | rfl | (simp; done) | (simp; rfl)

@[simp] theorem State.writeJnlCtl_now (s : State) (v : Word) : (s.writeJnlCtl v).now = s.now := by
  unfold State.writeJnlCtl
  try dsimp only
  repeat' split
  all_goals first | rfl | (simp; done) | (simp; rfl)

@[simp] theorem State.writeRegion_now (s : State) (f : Journal → Journal) : (s.writeRegion f).now = s.now := by
  unfold State.writeRegion
  try dsimp only
  repeat' split
  all_goals first | rfl | (simp; done) | (simp; rfl)

@[simp] theorem State.writeVlim_now (s : State) (v : Word) : (s.writeVlim v).now = s.now := by
  unfold State.writeVlim
  try dsimp only
  repeat' split
  all_goals first | rfl | (simp; done) | (simp; rfl)

@[simp] theorem State.writeCnt_now (s : State) (c : Cnt) (v : Word) : (s.writeCnt c v).now = s.now := by
  unfold State.writeCnt
  try dsimp only
  repeat' split
  all_goals first | rfl | (simp; done) | (simp; rfl)

@[simp] theorem State.writeEnergy_now (s : State) (v : Word) : (s.writeEnergy v).now = s.now := by
  unfold State.writeEnergy
  try dsimp only
  repeat' split
  all_goals first | rfl | (simp; done) | (simp; rfl)

@[simp] theorem State.writeReg_now (s : State) (r : Reg) (v : Word) : (s.writeReg r v).now = s.now := by
  cases r <;> simp only [State.writeReg]
  all_goals first | (simp; done) | rfl | (split <;> first | (simp; done) | rfl)

@[simp] theorem State.writeSlot_now (s : State) (slot : BitVec 13) (v : Word) : (s.writeSlot slot v).now = s.now := by
  unfold State.writeSlot; split <;> simp

@[simp] theorem State.leaveSlot_now (s : State) : (s.leaveSlot).now = s.now := by
  unfold State.leaveSlot
  try dsimp only
  repeat' split
  all_goals first | rfl | (simp; done) | (simp; rfl)

@[simp] theorem State.stretch_now (s : State) : (s.stretch).now = s.now := by
  unfold State.stretch
  try dsimp only
  repeat' split
  all_goals first | rfl | (simp; done) | (simp; rfl)

@[simp] theorem State.acknowledge_now (s : State) : (s.acknowledge).now = s.now := by
  unfold State.acknowledge
  try dsimp only
  repeat' split
  all_goals first | rfl | (simp; done) | (simp; rfl)

@[simp] theorem State.commitSlot_now (s : State) (k : BitVec 13) (v : Word) : (s.commitSlot k v).now = s.now := by
  unfold State.commitSlot
  try dsimp only
  repeat' split
  all_goals first | rfl | (simp; done) | (simp; rfl)

@[simp] theorem State.enterSlot_now (s : State) : (s.enterSlot).now = s.now := by
  unfold State.enterSlot
  try dsimp only
  repeat' split
  all_goals first | rfl | (simp; done) | (simp; rfl)

@[simp] theorem State.writeByte_now (s : State) (b : Byte) : (s.writeByte b).now = s.now := by
  unfold State.writeByte
  try dsimp only
  repeat' split
  all_goals first | rfl | (simp; done) | (simp; rfl)

@[simp] theorem State.capture_now (s : State) : (s.capture).now = s.now := by
  unfold State.capture
  try dsimp only
  repeat' split
  all_goals first | rfl | (simp; done) | (simp; rfl)

@[simp] theorem State.sendByte_now (s : State) : (s.sendByte).now = s.now := by
  unfold State.sendByte
  try dsimp only
  repeat' split
  all_goals first | rfl | (simp; done) | (simp; rfl)

@[simp] theorem State.byteEnd_now (s : State) : (s.byteEnd).now = s.now := by
  unfold State.byteEnd
  try dsimp only
  repeat' split
  all_goals first | rfl | (simp; done) | (simp; rfl)

@[simp] theorem State.ackEnd_now (s : State) : (s.ackEnd).now = s.now := by
  unfold State.ackEnd
  try dsimp only
  repeat' split
  all_goals first | rfl | (simp; done) | (simp; rfl)

@[simp] theorem State.sclFall_now (s : State) : (s.sclFall).now = s.now := by
  unfold State.sclFall
  try dsimp only
  repeat' split
  all_goals first | rfl | (simp; done) | (simp; rfl)

@[simp] theorem State.takeBit_now (s : State) (b : Bool) : (s.takeBit b).now = s.now := by
  unfold State.takeBit
  try dsimp only
  repeat' split
  all_goals first | rfl | (simp; done) | (simp; rfl)

@[simp] theorem State.endTransaction_now (s : State) : (s.endTransaction).now = s.now := by
  unfold State.endTransaction
  try dsimp only
  repeat' split
  all_goals first | rfl | (simp; done) | (simp; rfl)

@[simp] theorem State.startOrStop_now (s : State) : (s.startOrStop).now = s.now := by
  unfold State.startOrStop
  try dsimp only
  repeat' split
  all_goals first | rfl | (simp; done) | (simp; rfl)

@[simp] theorem State.stopSeen_now (s : State) : (s.stopSeen).now = s.now := by
  unfold State.stopSeen
  try dsimp only
  repeat' split
  all_goals first | rfl | (simp; done) | (simp; rfl)

@[simp] theorem State.scramble_now (s : State) : (s.scramble).now = s.now := by
  unfold State.scramble
  try dsimp only
  repeat' split
  all_goals first | rfl | (simp; done) | (simp; rfl)

@[simp] theorem State.timed_now (s : State) (b : Bool) : (s.timed b).now = s.now := by
  unfold State.timed
  try dsimp only
  repeat' split
  all_goals first | rfl | (simp; done) | (simp; rfl)

@[simp] theorem State.sampleLines_now (s : State) : (s.sampleLines).now = s.now := by
  unfold State.sampleLines
  try dsimp only
  repeat' split
  all_goals first | rfl | (simp; done) | (simp; rfl)

@[simp] theorem State.sampleBit_now (s : State) : (s.sampleBit).now = s.now := by
  unfold State.sampleBit
  try dsimp only
  repeat' split
  all_goals first | rfl | (simp; done) | (simp; rfl)

@[simp] theorem State.startMet_now (s : State) : (s.startMet).now = s.now := by
  unfold State.startMet
  try dsimp only
  repeat' split
  all_goals first | rfl | (simp; done) | (simp; rfl)

@[simp] theorem State.stopMet_now (s : State) : (s.stopMet).now = s.now := by
  unfold State.stopMet
  try dsimp only
  repeat' split
  all_goals first | rfl | (simp; done) | (simp; rfl)

@[simp] theorem State.recognise_now (s : State) (c : Bool) (d : Bool) : (s.recognise c d).now = s.now := by
  unfold State.recognise
  try dsimp only
  repeat' split
  all_goals first | rfl | (simp; done) | (simp; rfl)

@[simp] theorem State.sampleBus_now (s : State) : (s.sampleBus).now = s.now := by
  unfold State.sampleBus
  try dsimp only
  repeat' split
  all_goals first | rfl | (simp; done) | (simp; rfl)

@[simp] theorem State.markSampled_now (s : State) : s.markSampled.now = s.now := rfl

@[simp] theorem State.closeEdge_now (s : State) : (s.closeEdge).now = s.now := by
  unfold State.closeEdge
  try dsimp only
  repeat' split
  all_goals first | rfl | (simp; done) | (simp; rfl)

/-! ### Edges -/

@[simp] theorem State.passMrdy_now (s : State) (k : Nat) : (s.passMrdy k).now = s.now := rfl

@[simp] theorem State.coast_now (s : State) (k : Nat) : (s.coast k).now = s.now + k := by
  cases k with
  | zero => rfl
  | succ k => unfold State.coast; dsimp only; rw [State.drawLogic_now]; simp

/-- An edge advances the count by one. -/
@[simp] theorem State.advance_now (s : State) : s.advance.now = s.now + 1 := by
  unfold State.advance
  dsimp only
  rw [State.settle_now, State.takeSupply_now, foldl_now _ (fun s d => s.runDeferred_now d), State.drawLogic_now]
  rfl

@[simp] theorem State.tick_now (s : State) : s.tick.now = s.now + 1 := by
  unfold State.tick; rw [State.onEdge_now, State.advance_now, State.closeEdge_now]

theorem State.glide_now (n w : Nat) (s : State) : (s.glide n w).now = s.now + n := by
  induction n generalizing s w with
  | zero => rfl
  | succ n ih =>
    unfold State.glide
    split
    · split
      · simp
      · rw [ih, State.tick_now]; omega
    · rw [ih, State.tick_now]; omega

/-- n edges advance the count by n, where HCK advances the logic at all. -/
theorem State.elapse_now (s : State) (n : Nat) (h : s.ticking = true) : (s.elapse n).now = s.now + n := by
  unfold State.elapse
  rw [if_pos h, State.glide_now]

/-- A timed command acts no earlier than its due edge. -/
theorem State.waitUntil_reaches (s : State) (n : Nat) (h : s.ticking = true) : n ≤ (s.waitUntil n).now := by
  unfold State.waitUntil
  rw [State.elapse_now _ _ h]; omega

theorem State.answering_ticking {s : State} (h : s.answering = true) : s.ticking = true := by
  simp [State.answering] at h; exact h.1.1

/-- A command's next state, with what holds of its body's result. -/
theorem exec_next {c : Instr} {dt : Nat} {body : State → State} {s : State} {P : State → Prop} (hc : exec c s = event dt body s)
    (hp : P (body (s.arrive dt))) : ∃ b : State, exec c s = .next b.settle ∧ P b := ⟨_, hc, hp⟩

end Sys2Proof.Machine
end

