-- ==== Sys2Proof/Laws/Port.lean ====
section
/-! SUPPORT. What one HCK edge of the set-up port can do: sampling, taking a bit, and the four recognised edges. The proofs about the bus
cite these and unfold nothing. -/

namespace Sys2Proof.Machine

open Sys2Proof.Safety

theorem State.glide_one (s : State) : s.glide 1 4 = s.tick := by
  unfold State.glide; split <;> rfl

theorem State.elapse_one (s : State) (h : s.ticking = true) : s.elapse 1 = s.tick := by
  unfold State.elapse; rw [if_pos h, State.glide_one]

@[simp] theorem State.tick_sampled (s : State) : s.tick.edge.sampled = false := rfl

/-- The port has its part of the edge before it. -/
theorem State.busEdge_sampled (s : State) (h : s.ticking = true) : s.busEdge.edge.sampled = false := by
  unfold State.busEdge
  split
  · rw [s.elapse_one h]; rfl
  · next e => simpa using e

@[simp] theorem State.busEdge_rooted (s : State) : s.busEdge.rooted = s.rooted := by
  unfold State.busEdge; split <;> simp

@[simp] theorem State.busEdge_ticking (s : State) : s.busEdge.ticking = s.ticking := by
  unfold State.busEdge; split <;> simp

@[simp] theorem State.setPins_ticking (s : State) (c d : Bool) : (s.setPins c d).ticking = s.ticking := rfl

/-- While the bus rests, the port is on its next edge what it is. -/
theorem State.busEdge_port (s : State) (h : s.port.resting = true) : s.busEdge.port = s.port := by
  unfold State.busEdge; split <;> simp [h]

/-- A command of one pair of levels is one edge of the bus. -/
theorem State.runBus_one (s : State) (c d : Bool) (h : s.ticking = true) :
    s.runBus [(c, d)] = (s.busEdge.setPins c d).sampleBus.markSampled := by
  have e : (s.busEdge.setPins c d).edge.sampled = false := s.busEdge_sampled h
  show (s.busEdge.setPins c d).closeEdge = _
  unfold State.closeEdge
  rw [e]
  simp

/-- What sampling leaves of the port. -/
theorem State.sampleLines_frame (s : State) :
    ∃ p, s.sampleLines = { s with port := p } ∧ p.bits = s.port.bits ∧ p.atEnd = s.port.atEnd ∧ p.shift = s.port.shift ∧
      p.phase = s.port.phase ∧ p.ptr = s.port.ptr ∧ p.buf = s.port.buf ∧ p.cap = s.port.cap ∧ p.ack = s.port.ack ∧ p.tx = s.port.tx ∧
      p.setup = s.port.setup ∧ p.inForce = s.port.inForce ∧ p.setupst = s.port.setupst ∧ p.rose = false ∧ p.drive = s.port.drive ∧
      p.broken = s.port.broken :=
  ⟨_, rfl, rfl, rfl, rfl, rfl, rfl, rfl, rfl, rfl, rfl, rfl, rfl, rfl, rfl, rfl, rfl⟩

/-- Outside the first bit of a data byte, an edge of the bus up to the bit that it takes changes nothing but the port, and there not the
pointer, the buffer, the capture or a register. -/
theorem State.sampleBit_frame (s : State) (h : ¬(s.port.bits = 0 ∧ s.port.phase = .write)) :
    ∃ p, s.sampleBit = { s with port := p } ∧ p.atEnd = s.port.atEnd ∧ p.ptr = s.port.ptr ∧ p.buf = s.port.buf ∧ p.cap = s.port.cap ∧
      p.ack = s.port.ack ∧ p.tx = s.port.tx ∧ p.setup = s.port.setup ∧ p.inForce = s.port.inForce ∧ p.setupst = s.port.setupst ∧
      p.rose = false ∧ p.drive = s.port.drive ∧ p.broken = s.port.broken ∧ p.scl = s.sampleLines.port.scl ∧ p.sda2 = s.sampleLines.port.sda2 := by
  unfold State.sampleBit State.takeBit
  dsimp only
  split
  · split
    · exact ⟨_, rfl, rfl, rfl, rfl, rfl, rfl, rfl, rfl, rfl, rfl, rfl, rfl, rfl, rfl, rfl⟩
    · split
      · rw [if_neg (show ¬(s.sampleLines.port.bits = 0 ∧ s.sampleLines.port.phase = .write) from h)]
        exact ⟨_, rfl, rfl, rfl, rfl, rfl, rfl, rfl, rfl, rfl, rfl, rfl, rfl, rfl, rfl, rfl⟩
      · exact ⟨_, rfl, rfl, rfl, rfl, rfl, rfl, rfl, rfl, rfl, rfl, rfl, rfl, rfl, rfl, rfl⟩
  · exact ⟨_, rfl, rfl, rfl, rfl, rfl, rfl, rfl, rfl, rfl, rfl, rfl, rfl, rfl, rfl, rfl⟩

/-- The bits counted after an edge that is not the first of a data byte: so a byte whose end is met has been entered before. -/
theorem State.sampleBit_phase (s : State) (h : s.sampleBit.port.bits ≠ 1) :
    ¬(s.port.rose = true ∧ s.port.bits = 0 ∧ s.port.phase = .write) := by
  rintro ⟨hr, hb, hp⟩
  apply h
  unfold State.sampleBit State.takeBit
  simp only [hr, if_true]
  have hb' : s.sampleLines.port.bits = 0 := hb
  have hp' : s.sampleLines.port.phase = .write := hp
  simp only [hb', hp', PortPhase.takesPart, Bool.not_true, Bool.false_eq_true, if_false, Nat.zero_lt_succ, if_true, and_self]
  unfold State.enterSlot State.leaveSlot State.onPort State.setSetupst State.setCause
  split
  · split
    · simp [hb']
    · split
      · dsimp only; split <;> simp [hb']
      · simp [hb']
  · simp [hb']

/-- Sampling, where no bit is taken. -/
theorem State.sampleBit_of_not_rose (s : State) (h : s.port.rose = false) : s.sampleBit = s.sampleLines := by
  simp [State.sampleBit, h]

/-- An edge of the bus that does not take the first bit of a data byte: the same frame as `sampleBit_frame`. -/
theorem State.sampleBit_byte (s : State) (h : s.sampleBit.port.bits ≠ 1) :
    ∃ p, s.sampleBit = { s with port := p } ∧ p.atEnd = s.port.atEnd ∧ p.ptr = s.port.ptr ∧ p.buf = s.port.buf ∧ p.cap = s.port.cap ∧
      p.ack = s.port.ack ∧ p.tx = s.port.tx ∧ p.setup = s.port.setup ∧ p.inForce = s.port.inForce ∧ p.setupst = s.port.setupst := by
  by_cases hr : s.port.rose = true
  · have := s.sampleBit_phase h
    obtain ⟨p, hp, h1, h2, h3, h4, h5, h6, h7, h8, h9, _⟩ := s.sampleBit_frame (fun hx => this ⟨hr, hx⟩)
    exact ⟨p, hp, h1, h2, h3, h4, h5, h6, h7, h8, h9⟩
  · rw [s.sampleBit_of_not_rose (by simpa using hr)]
    obtain ⟨p, hp, h0, h1, h2, h3, h4, h5, h6, h7, h8, h9, h10, h11, _⟩ := s.sampleLines_frame
    exact ⟨p, hp, h1, h4, h5, h6, h7, h8, h9, h10, h11⟩

/-! ### The edges that come in time (R99) -/

/-- In time, nothing of the transaction is lost. -/
theorem State.timed_same (s : State) (b : Bool) (h : s.port.broken = false) (hb : (s.port.phase.takesPart && b) = false) : s.timed b = s := by
  unfold State.timed; rw [hb]; simp [h]

/-- A recognised falling edge of SCL. -/
theorem State.sampleBus_fall (s : State) (h : s.answering = true) (hf : sclFalls s s.sampleBit = true) (ht : inTime s s.sampleBit = true) :
    s.sampleBus = (s.sampleBit.onPort fun p => { p with sclAt := s.sampleBit.now, fallAt := some s.sampleBit.now }).sclFall := by
  simp only [inTime, tooSoon, hf, if_true, Bool.and_eq_true, Bool.not_eq_true', State.sampleBit_now] at ht
  simp only [sclFalls, Bool.and_eq_true, Bool.not_eq_true'] at hf
  simp [State.sampleBus, State.answering_ticking h, h, State.recognise, hf.1, hf.2, State.timed_same _ _ ht.1 ht.2]

/-- A recognised START. -/
theorem State.sampleBus_start (s : State) (h : s.answering = true) (hf : Safety.startSeen s s.sampleBit = true)
    (ht : inTime s s.sampleBit = true) :
    s.sampleBus = s.sampleBit.startOrStop.onPort fun p =>
      { p with phase := .address, shift := 0, sclAt := s.sampleBit.now - 2, fallAt := none, broken := false } := by
  have hf' := hf
  simp only [Safety.startSeen, Bool.and_eq_true, Bool.not_eq_true'] at hf
  simp only [inTime, tooSoon, sclFalls, sclRises, hf.1.1.1, hf.1.1.2, hf', Bool.not_true, Bool.and_false, Bool.false_and,
    Bool.false_eq_true, if_false, Bool.true_or, Bool.true_and, Bool.and_eq_true, Bool.not_eq_true', State.sampleBit_now] at ht
  simp [State.sampleBus, State.answering_ticking h, h, State.recognise, hf.1.1.1, hf.1.1.2, hf.1.2, hf.2, State.startMet,
    ht.2, State.timed_same _ _ ht.1 (Bool.and_false _)]

/-- A recognised STOP. -/
theorem State.sampleBus_stop (s : State) (h : s.answering = true) (hf : Safety.stopSeen s s.sampleBit = true)
    (ht : inTime s s.sampleBit = true) :
    s.sampleBus = s.sampleBit.startOrStop.stopSeen.onPort fun p => { p with broken := false } := by
  have hf' := hf
  simp only [Safety.stopSeen, Bool.and_eq_true, Bool.not_eq_true'] at hf
  simp only [inTime, tooSoon, sclFalls, sclRises, hf.1.1.1, hf.1.1.2, hf', Bool.not_true, Bool.and_false, Bool.false_and,
    Bool.false_eq_true, if_false, Bool.or_true, Bool.true_and, Bool.and_eq_true, Bool.not_eq_true', State.sampleBit_now] at ht
  simp [State.sampleBus, State.answering_ticking h, h, State.recognise, hf.1.1.1, hf.1.1.2, hf.1.2, hf.2, State.stopMet,
    ht.2, State.timed_same _ _ ht.1 (Bool.and_false _)]

/-- Before edge 64 an edge of the bus passes the filters and no more. -/
theorem State.sampleBus_early (s : State) (h : s.answering = false) (ht : s.ticking = true) : s.sampleBus = s.sampleLines := by
  simp [State.sampleBus, h, ht]

/-- What the end of a transaction leaves: the port alone changes, but for the mark of a slot that is cut short (R92). -/
theorem State.endTransaction_eq (s : State) :
    ∃ p, p.ptr = s.port.ptr ∧ p.setup = s.port.setup ∧ p.inForce = s.port.inForce ∧ p.phase = .idle ∧ p.buf = none ∧ p.cap = none ∧ p.ack = false ∧
      p.bits = 0 ∧ p.hold = none ∧ p.sdaLow = false ∧
      ((∃ h, s.port.buf = some h ∧ h.short = true) → p.setupst = s.port.setupst ||| bitMask 1 ∧
        s.endTransaction = { s with
          port := p, cause := s.cause ||| bitMask 13
          edge := { s.edge with setupst := s.edge.setupst ||| bitMask 1, cause := s.edge.cause ||| bitMask 13 } }) ∧
      ((∀ h, s.port.buf = some h → h.short = false) → p.setupst = s.port.setupst ∧ s.endTransaction = { s with port := p }) := by
  let q : SetupPort := { s.port with
    buf := none, phase := .idle, cap := none, ack := false, bits := 0, atEnd := false, drive := none, sdaLow := false, hold := none }
  cases hb : s.port.buf with
  | none =>
    exact ⟨q, rfl, rfl, rfl, rfl, rfl, rfl, rfl, rfl, rfl, rfl, by simp, fun _ => ⟨rfl, by simp [endTransaction, leaveSlot, onPort, hb, q]⟩⟩
  | some b =>
    cases hs : b.short with
    | false =>
      exact ⟨q, rfl, rfl, rfl, rfl, rfl, rfl, rfl, rfl, rfl, rfl, by simp [hs], fun _ => ⟨rfl, by simp [endTransaction, leaveSlot, onPort, hb, hs, q]⟩⟩
    | true =>
      refine ⟨{ q with setupst := s.port.setupst ||| bitMask 1 }, rfl, rfl, rfl, rfl, rfl, rfl, rfl, rfl, rfl, rfl, fun _ => ⟨rfl, ?_⟩, fun h => ?_⟩
      · simp only [endTransaction, leaveSlot, hb, hs, if_true]; rfl
      · exact absurd (h b rfl) (by simp [hs])

end Sys2Proof.Machine
end

