-- ==== Sys2Proof/Tests/Slice0.lean ====
section
/-! SUPPORT. Tests: ill-formed operands, the worked examples of spec/, and for every statement with hypotheses a concrete state and
operands that meet them (theorems test_hyp_…, one conjunct for each clause). -/

namespace Sys2Proof.Tests

set_option Elab.async false

open Machine Safety

/-! ### Ill-formed operands -/

theorem test_wf_bytes : (Instr.memTransactionEnd 0 ⟨[], 0⟩ (List.replicate 514 0)).wf = true ∧
    (Instr.memTransactionEnd 0 ⟨[], 0⟩ (List.replicate 515 0)).wf = false := by decide +kernel
theorem test_wf_limited : (Instr.outputLimited 0 3 512 true 7).wf = true ∧ (Instr.outputLimited 0 3 511 true 7).wf = false := by decide
theorem test_wf_charge : (Instr.conversionResult 0 0 [(65536, 5, 320)] 0).wf = true ∧
    (Instr.conversionResult 0 0 [(5, 5, 5), (65537, 5, 0)] 0).wf = false := by decide
theorem test_wf_bypass : (Instr.bypass ⟨0, []⟩ 0xF).wf = true ∧ (Instr.bypass ⟨0, []⟩ 5).wf = true ∧
    (Instr.bypass ⟨0, []⟩ 8).wf = false := by decide

/-! ### Helpers -/

/-- HCK runs, edge 64 has long come, nothing is in progress. -/
def idle : State := { State.reset with pw := { Power.reset with hck := true, first := false, st := .idle, addr := 0x6B } }

/-- A state of the engine with the rails in regulation. -/
def railed (st : EngState) : State :=
  { idle with
    pw := { idle.pw with st := st }
    sup := { Supply.reset with phase := .up, railsUp := true, vposOk := true, vnegOk := true, vcomOk := true } }

/-- A valid reading of 25 degC. -/
def warm (s : State) : State := { s with thm := { Thermal.reset with valid := true, tdie := 200, tpan := 200 } }

/-- An entry that runs here, waiting in ring 0. -/
def waits (e : Entry) (s : State) : State :=
  s.onRing 0 fun r => { r with fetched := [⟨7, e, [], true, ⟨none, none, 0, 0, true⟩⟩] }

/-- An entry with an opcode and words 1 to 3. -/
def entry (op : Nat) (a b c : Word) : Entry := ⟨BitVec.ofNat 36 op, a, b, c⟩

def plan1 : Plan := ⟨[[⟨1, 0, 2⟩]], List.replicate 288 (some 0), 0, 2⟩

/-- An update of segment 0. -/
def upd (st : Stage) (plan : Option Plan) : Update where
  clear := false
  force := false
  journaled := false
  gated := false
  old := 0
  new_ := 0
  state := 0
  frags := []
  claim := 1
  gangs := 0
  preRamp := false
  tpan := 200
  aheadTpan := none
  atlas := 0
  frameLen := 200000
  tp := 0
  vpos := 140
  vneg := 140
  vcom := 0
  stage := st
  oldImg := none
  newImg := none
  masks := []
  legend := none
  index := none
  records := []
  plan := plan
  slot := none

/-- Ring 0 works on an update. -/
def works (u : Update) (s : State) : State := s.onRing 0 fun r => { r with work := some (7, .update u) }

/-- The step answers a next state. -/
def answers : Host.Outcome State Fault Refusal → Bool
  | .next _ => true
  | _ => false

/-! ### Worked examples of spec/ -/

/-- Section 15.9: the first progress mark and the close mark, byte for byte. -/
theorem test_marks : markBytes 6 0x10 2 = [0x06, 0x01, 0, 0, 0x20, 0, 0, 0, 0x82] ∧
    markBytes 9 0x10 0 = [0x09, 0x01, 0, 0, 0, 0, 0, 0, 0xAD] := by decide

/-- Section 15.9: slot 3 of 4,096-byte sectors lies at 0x6C0, and a region of 8 KB has 14 slots. -/
theorem test_slots : slotOffset 4096 3 = 0x6C0 ∧ slotAt 4096 0x6C0 = 3 ∧ slotsInRegion 4096 8192 = 14 := by decide

/-- Section 3.7: level 3 on ADR0 and level 2 on ADR1 give address 0x6B. -/
theorem test_address : (match exec (.addressLatch 0) { idle with pw := { Power.reset with
    hck := true, qual := true, strap1 := some (true, true), strap2 := some (true, false) } } with
    | .next t => t.pw.addr == 0x6B && t.pw.st == .idle && t.now == 64
    | _ => false) = true := by decide

/-- Section 11.11: the 18 bytes of the UPDATE of S009 to S017. -/
theorem test_entry : entryOf [0x21, 1, 0, 0, 0, 0x12, 0, 0, 2, 0xB0, 1, 0, 0x20, 0x90, 0x20, 2, 0, 0x80] =
      ⟨0x000000121, 0x020000120, 0x0200001B0, 0x800002209⟩ ∧
    (entry 0x121 0 0 0x800002209).op = 1 ∧ (entry 0x121 0 0 0x800002209).tile = 0x12 ∧
    (entry 0x121 0 0 0x800002209).frags [] = [⟨9, 17, none⟩] := by decide

/-- Section 11.11: the two CFG records. -/
theorem test_cfg_records : (entry 0x030700003 0 0 0).count = 2 ∧ (entry 0x030700003 0 0 0).groups = 3 ∧
    (entry 0x030700003 0 0 0).records [0, 0x0C, 0, 0, 0, 0x98, 0x3A, 0, 0, 0, 0x10, 0, 0, 0x80, 7, 0, 0, 0] =
      [(0x0C00, 0x3A980), (0x1000, 0x78)] ∧ recordReg 0x0C00 = some .frameLen ∧ recordReg 0x1000 = some .vpos := by decide

/-- Section 9.7: doublet 0 of the image, and the mask of S009 to S017. -/
theorem test_images : stateOf [0x21, 0x43, 0x65, 0x87, 0xA9, 0xAA, 0xAA, 0xAA, 0x3A] 13 = 0xA ∧
    stateOf [0x21, 0x43, 0x65, 0x87, 0xA9, 0xAA, 0xAA, 0xAA, 0x3A] 17 = 3 ∧
    wordAt [0x21, 0x43, 0x65, 0x87, 0xA9, 0xAA, 0xAA, 0xAA, 0x3A] 0 = 0x987654321 ∧
    (List.range 20).map (maskBit [0, 0xFE, 3, 0, 0]) = (List.range 20).map (fun n => decide (9 ≤ n ∧ n ≤ 17)) := by decide

/-- Section 12.10: the waveform record and its phases. -/
theorem test_record : phasesOf [4, 0, 0, 0, 0x20, 2, 0x21, 0x20, 2, 0x41, 0, 0, 0, 0, 0, 0, 0, 0] =
    [⟨2, 0, 2⟩, ⟨1, 0, 2⟩, ⟨2, 0, 2⟩, ⟨1, 0, 4⟩] := by decide

/-- Section 12.10: the legend, its band at +23.5 degC, and index word 19. -/
theorem test_legend : legendNs [0x32, 0x17, 0x0A, 0, 0] = 4 ∧ legendIdent [0x32, 0x17, 0x0A, 0, 0] = 0xA17 ∧
    bandOf [0x32, 0x17, 0x0A, 0, 0, 0x05, 0x68, 0x01, 0] 188 = 1 ∧ indexWord 4 1 0 3 = 19 := by decide

/-- Section 8.12: the second program of the split write has C = 64 and carries 0x02, 0x02, 0x00. -/
theorem test_program : (let x := (⟨jnlAccess .close 0 0 0x400001FC 9 0 true (List.replicate 9 7), ⟨0x40000000, 2, 0, 0x61090B⟩, 1, 0x200, 5, [], 0, [],
    false⟩ : OpenAccess).txn .program 278
    (x.piece, x.lo, x.count, x.sent, x.cycles, x.fall) = (5, 0x200, 5, [2, 2, 0, 7, 7, 7, 7, 7], 64, 278)) := by decide

/-- Section 14.8: the rise of period 1 is 384 units, THM_TDIE 60.000 degC, Tpan 59.875 degC; of period 2, 762 units. -/
theorem test_thermal : nextRise 0x40140 983040 0 = 384 ∧ convert 600000 = 480 ∧ modelTpan 480 384 = 479 ∧
    nextRise 0x40140 983040 384 = 762 := by decide

/-- Section 14.8: 121 degC asserts the warning, 115.000 degC keeps it, 114.875 degC releases it. -/
theorem test_warning : overT false 968 (warnT 0x283C0) (hyst 0x283C0) = true ∧ overT true 920 (warnT 0x283C0) (hyst 0x283C0) = true ∧
    overT true 919 (warnT 0x283C0) (hyst 0x283C0) = false := by decide

/-- Section 13.11: the log word of the level fault of S009. -/
theorem test_log_word : ((idle.log_ 0x20 1 0 9).log.map (·.a)) = [0x00240120] := by decide

/-- Section 7.14 and others: register addresses. -/
theorem test_addresses : regAt 0x0538 = some (.st (.winCfg 1)) ∧ regAt 0x0930 = some (.ringHead 2) ∧ regAt 0x1098 = none ∧
    regAt 0x1090 = some (.fault 8) ∧ regAt 0x21F8 = some (.logB 15) ∧ regAt 0x0118 = some .hccnt ∧ regAt 0x2050 = none := by decide

/-- A line of the set-up bus whose recognised level falls with the next sample, at filt = 2. -/
def falls : Line := ⟨true, false, true, 2⟩

/-- The engine long after the last edge of the bus. -/
def quiet_ : State := { idle with now := 1000 }

/-- The set-up port in a phase, after that many bits of a byte, with SCL about to be recognised low. -/
def clocked (ph : PortPhase) (bits : Nat) (ptr : BitVec 16) (buf : Option HoldBuf) : State :=
  { quiet_ with port := { SetupPort.reset with scl := falls, phase := ph, bits := bits, ptr := ptr, buf := buf, shift := 0xD6 } }

/-- Section 5.9: byte 4 of the write commits PWR_CTL.armto = 0x0020, and the pointer moves on. -/
theorem test_slot_commit : (match exec (.slotCommit 0 [(true, true)]) ((clocked .write 8 0x0114 (some ⟨0x22, 4, false, [0x20, 0, 0, 0]⟩)).onPort
      fun p => { p with shift := 0 }) with
    | .next t => t.pw.ctl == 0x20 && t.port.ptr == 0x0115 && t.port.ack
    | _ => false) = true := by decide +kernel

/-- R97: with filt = 2 a pulse of two edges is rejected; of a longer one the filtered level follows on the fifth edge. -/
theorem test_filter : let run := fun (pins : List Bool) => (pins.foldl (fun l b => l.sample 2 b) Line.high).level
    run [false, false, true] = true ∧ run [false, false, true, true] = true ∧ run [false, false, true, true, true] = true ∧
    run [false, false, true, true, true, true] = true ∧ run [false, false, false, true] = true ∧
    run [false, false, false, true, true] = false ∧ run [false, false, false, false] = true := by decide

/-- R97, R386: with filt = 2 SDA's fall is recognised on the fifth edge, and counts for a START on the seventh. -/
theorem test_start_delay :
    let after := fun n => ((List.range n).foldl (fun s _ => s.sampleLines) (quiet_.setPins true false)).port
    (after 4).sda.level = true ∧ (after 5).sda.level = false ∧ (after 6).sda2 = true ∧ (after 7).sda2 = false := by decide +kernel

/-- R84: the recognised fall of SDA with SCL high is a START. -/
theorem test_start : (match exec (.i2cStart 0 [(true, false)]) { quiet_ with port := { SetupPort.reset with
    sda := ⟨false, false, false, 0⟩, sda1 := false } } with
    | .next t => t.port.phase == .address && !t.port.sda2
    | _ => false) = true := by decide +kernel

/-- Section 3.4 and Table 18.2: the pulls of a strap, and the boundary register on the pins. -/
theorem test_pins : ({ idle with pw := { Power.reset with hck := true, qual := true, strap1 := some (true, false) }, now := 30 } : State).strapPull 0 =
      some false ∧ ({ idle with tap := { Tap.reset with ir := 4 } } : State).logicPin false .mcsN = none := by decide +kernel

/-! ### Hypotheses that are met -/

theorem test_hyp_step : ({ idle with pending := [.uvloRelease 0] } : State).pending = .uvloRelease 0 :: [] := rfl
theorem test_hyp_idle : idle.pending = [] ∧ idle.ticking = true ∧ idle.port.resting = true ∧ State.reset.pending = [] ∧
    State.reset.ticking = false ∧ State.reset.wild = none := by decide

/-- After a host error: window 0 is writable, so a write access within it may be open. -/
def wild : State := { idle with wild := some .reservedOpcode, applied := { Staged.reset with window :=
  { Staged.reset.window with win := Staged.reset.window.win.set 0 ⟨0, 2, 0, 0x61090B⟩ } } }

theorem test_hyp_answers : mayErr (.uvloRelease 0) = false ∧ idle.port.resting = true ∧ answers (exec (.uvloRelease 0) idle) = true ∧
    idle.wild = none ∧ wild.wild = some .reservedOpcode ∧ wild.errorHeld = false ∧
    (let o : OpenAccess := ⟨jnlAccess .close 0 0 0 9 0 true (List.replicate 9 0), Win.reset, 0, 0, 9, [], 0, [], false⟩
     let x := idle.onMem fun m => { m with cur := some o, txn := some (o.txn .program 0) }
     ((wild.boundMem x).cur.map (·.acc.write)) = some true ∧ ((wild.boundMem x).txn.map fun y => stores y.kind) = some true) := by
  decide +kernel
theorem test_hyp_reserved : Reserved idle ∧ answers (step idle) = true := by
  refine ⟨⟨fun r m h => ?_, by decide, by decide, fun r => ?_, fun g h => ?_, fun p h => ?_, fun p h => ?_, fun p h => ?_,
    fun p h => ?_⟩, by decide⟩
  · cases r
    case st r => cases r <;> cases h <;> first | decide | (rename_i n; revert n; decide)
    all_goals first | (cases h; done) | (cases h; first | decide | (rename_i n; revert n; decide))
  · cases r <;> first | decide | (rename_i n; revert n; decide)
  all_goals cases h
theorem test_hyp_settings : mayChangeSettings (.uvloRelease 0) = false ∧ idle.port.resting = true ∧ isTap (.uvloRelease 0) = false ∧ isPort (.uvloRelease 0) = false ∧
    resetsCore (.uvloRelease 0) = false ∧ answers (exec (.uvloRelease 0) idle) = true ∧ answers (exec (.clockLoss 0) idle) = true := by decide
theorem test_hyp_bounds : (∀ c : Cnt, (idle.cnt.get c).toNat ≤ c.max.toNat) ∧ idle.log.length ≤ 16 ∧ idle.sup.wraps.toNat ≤ 255 ∧
    (idle.mem.txn.isSome = true → idle.mem.cur.isSome = true) ∧ answers (step idle) = true :=
  ⟨fun c => by cases c <;> decide, by decide⟩
/-- The bus edge of a command: the engine answers, its edge brings a START, a STOP or an SCL falling edge, and R99 is kept. -/
def onEdge (s : State) (sees : State → State → Bool) : Prop :=
  let w := (s.arrive 0).busEdge.setPins true true
  w.answering = true ∧ sees w w.sampleBit = true ∧ inTime w w.sampleBit = true

/-- The bus is about to show a START or a STOP to a port in that phase. -/
def begins (ph : PortPhase) (buf : Option HoldBuf) : State :=
  { quiet_ with port := { SetupPort.reset with sda := ⟨false, false, false, 0⟩, sda1 := false, phase := ph, buf := buf } }
def stops (ph : PortPhase) (buf : Option HoldBuf) : State :=
  { quiet_ with port := { SetupPort.reset with sda2 := false, phase := ph, buf := buf } }

/-- A bit is taken on the next edge of the bus. -/
def rose (ph : PortPhase) (bits : Nat) (buf : Option HoldBuf) : State :=
  { quiet_ with port := { SetupPort.reset with phase := ph, bits := bits, buf := buf, rose := true } }

/-- The port after the sample of the bus edge. -/
def sampled (s : State) : SetupPort := ((s.arrive 0).busEdge.setPins true true).sampleBit.port

theorem test_hyp_stop : onEdge (stops .write none) stopSeen ∧ busLines (.uvloRelease 0) = [] ∧ resetsCore (.uvloRelease 0) = false ∧
    idle.port.resting = true ∧ answers (exec (.uvloRelease 0) idle) = true := by unfold onEdge; decide +kernel
theorem test_hyp_start : onEdge (begins .away none) startSeen ∧ onEdge (clocked .address 8 0 none) sclFalls ∧
    (sampled (clocked .address 8 0 none)).phase = .address ∧ (sampled (clocked .address 8 0 none)).bits = 8 ∧
    (sampled (clocked .address 8 0 none)).shift.extractLsb' 1 7 = (0x6B : BitVec 7) ∧ idle.pw.addr = 0x6B ∧
    (quiet_.onPw fun p => { p with addr := 0x60 }).pw.addr ≠ 0x6B ∧
    (rose .address 7 none).port.rose = true ∧ (rose .address 7 none).port.phase.takesPart = true ∧
    (let w := { quiet_ with port := { SetupPort.reset with phase := .away, scl := falls } }
     w.answering = true ∧ w.port.broken = false ∧ startSeen w w.sampleBit = false ∧ stopSeen w w.sampleBit = false) := by
  unfold onEdge; decide +kernel
theorem test_hyp_pointer : onEdge (clocked .ptrHigh 8 0 none) sclFalls ∧ onEdge (clocked (.ptrLow 1) 8 0 none) sclFalls ∧
    (sampled (clocked .ptrHigh 8 0 none)).bits = 8 ∧ (sampled (clocked .ptrHigh 8 0 none)).phase = .ptrHigh ∧
    (sampled (clocked (.ptrLow 1) 8 0 none)).phase = .ptrLow 1 ∧ onEdge (clocked .write 8 0x11F none) sclFalls ∧
    (sampled (clocked .write 8 0x11F none)).phase = .write ∧
    onEdge (begins .ptrHigh none) startSeen ∧ onEdge (stops .ptrHigh none) stopSeen := by unfold onEdge; decide +kernel
theorem test_hyp_slot :
    (let s := clocked .write 8 0x113 (some ⟨0x22, 3, false, [1, 2, 3]⟩)
     onEdge s sclFalls ∧ (sampled s).phase = .write ∧ (sampled s).bits = 8 ∧ (sampled s).ptr.toNat % 8 = 3 ∧
       (sampled s).buf = some ⟨slotOf (sampled s).ptr, 3, false, [1, 2, 3]⟩) ∧
    (let s := clocked .write 8 0x110 none
     onEdge s sclFalls ∧ (sampled s).ptr.toNat % 8 = 0 ∧ (sampled s).buf = none) ∧
    (let s := clocked .write 8 0x114 (some ⟨0x22, 4, false, [1, 2, 3, 4]⟩)
     onEdge s sclFalls ∧ (sampled s).ptr.toNat % 8 = 4 ∧ (sampled s).buf = some ⟨slotOf (sampled s).ptr, 4, false, [1, 2, 3, 4]⟩) ∧
    (let s := clocked .write 8 0x115 (some ⟨0x22, 5, false, [1, 2, 3, 4, 5]⟩)
     onEdge s sclFalls ∧ 4 < (sampled s).ptr.toNat % 8 ∧ (sampled s).buf = some ⟨slotOf (sampled s).ptr, 5, false, [1, 2, 3, 4, 5]⟩) ∧
    (let h : HoldBuf := ⟨0x22, 4, false, [1, 2, 3, 4]⟩
     h.short = true ∧ onEdge (stops .write (some h)) stopSeen ∧ onEdge (begins .write (some h)) startSeen ∧
       (sampled (stops .write (some h))).buf = some h ∧ (rose .write 0 (some h)).port.buf = some h ∧
       h.slot ≠ slotOf (rose .write 0 (some h)).port.ptr) ∧
    (⟨0x22, 5, false, [1, 2, 3, 4, 5]⟩ : HoldBuf).short = false := by unfold onEdge; decide +kernel
theorem test_hyp_framing : onEdge (begins .write none) startSeen ∧ onEdge (stops .idle none) stopSeen ∧
    (let s := { quiet_ with port := { SetupPort.reset with hold := some 1000 } }
     ((s.arrive 0).runBus []).ticking = true ∧ ((s.arrive 0).runBus []).port.hold = some 1000 ∧
       ((s.arrive 0).runBus [(true, true)]).port.hold = some 1000) ∧
    (let w := { idle with port := { SetupPort.reset with phase := .write, scl := falls } }
     w.answering = true ∧ w.sampleBit.port.phase.takesPart = true ∧ tooSoon w w.sampleBit = true ∧ sclFalls w w.sampleBit = true) ∧
    (let w := { idle with port := { SetupPort.reset with phase := .write, sda2 := false } }
     w.answering = true ∧ w.sampleBit.port.phase.takesPart = true ∧ tooSoon w w.sampleBit = true ∧ sclFalls w w.sampleBit = false) := by
  unfold onEdge; decide +kernel
theorem test_hyp_read :
    (let s := clocked .read 9 0x110 none
     let w := fun bar => ((s.arrive 0).barSeen bar).busEdge.setPins true true
     (s.arrive 0).answering = true ∧ ∀ bar, (w bar).answering = true ∧ inTime (w bar) (w bar).sampleBit = true ∧
       sclFalls (w bar) (w bar).sampleBit = true ∧ (w bar).sampleBit.port.phase = .read ∧ (w bar).sampleBit.port.bits = 9 ∧
       (w bar).sampleBit.port.cap = none) ∧
    (let s := (clocked .read 9 0x117 none).onPort fun p => { p with cap := some (0x22, 7) }
     (sampled s).cap = some (slotOf s.port.ptr, 7)) ∧
    (let s := (clocked .read 9 0x118 none).onPort fun p => { p with cap := some (0x22, 7) }
     (sampled s).cap = some (0x22, 7) ∧ (0x22 : BitVec 13) ≠ slotOf s.port.ptr) ∧
    onEdge (clocked .read 7 0x110 none) sclFalls ∧ onEdge (clocked .read 8 0x110 none) sclFalls ∧
    (rose .read 8 none).port.rose = true ∧ (rose .read 8 none).port.ack = false := by unfold onEdge; decide +kernel
theorem test_hyp_registers : regOfSlot 0x3FF = none ∧ readOnly .ident = true ∧ idle.locked .vpos = false ∧
    ({ idle with lock := 8 } : State).locked (.winCfg 7) = true ∧ idle.lock.getLsbD 2 = false ∧ idle.edge.energy = 0 ∧
    idle.edge.cnts = [] := by decide
theorem test_hyp_locks : (∀ dt, Instr.uvloRelease 0 ≠ .powerOnReset dt) ∧ answers (exec (.uvloRelease 0) idle) = true ∧
    ({ idle with tileWritten := true } : State).tileWritten = true ∧ (idle.writeReg .vlim 0).sup.vlim ≠ idle.sup.vlim ∧
    (idle.writeReg .jnlBase 0x1000).jnl ≠ idle.jnl :=
  ⟨fun _ h => (nomatch h), by decide⟩
theorem test_hyp_ignored : ({ idle with tileWritten := true } : State).tileWritten = true ∧ idle.tileWritten = false ∧
    ({ idle with lock := 4 } : State).lock.getLsbD 2 = true ∧ ({ idle with lock := 16 } : State).lock.getLsbD 4 = true ∧
    idle.lock.getLsbD 4 = false ∧ bitOf (idle.onJnl fun j => { j with ctl := 1 }).jnl.ctl 0 = true ∧ bitOf idle.jnl.ctl 0 = false ∧
    idle.pw.jopen = false ∧ idle.jnl.scan = none ∧ idle.jnl.replay = none := by decide
theorem test_hyp_commit : (idle.onPw fun p => { p with busy := true }).pw.busy = true ∧ idle.pw.busy = false ∧ bitOf (8 : Word) 3 = true ∧
    (let s := { idle with now := 1, pend := ⟨some ⟨Staged.reset.drive, 0⟩, some ⟨Staged.reset.supply, 0⟩, some ⟨Staged.reset.window, 0⟩, none⟩ }
     (s.arrive 0).answering = true ∧ (s.arrive 0).pend.drive = some ⟨Staged.reset.drive, 0⟩ ∧ (s.arrive 0).drv.frames = none ∧
       0 < (s.arrive 0).now ∧ (s.arrive 0).pend.window = some ⟨Staged.reset.window, 0⟩ ∧ (s.arrive 0).mem.cur = none ∧
       (s.arrive 0).mem.txn = none ∧ (s.arrive 0).edge.arbitrated = false ∧ (s.arrive 0).mem.rise < (s.arrive 0).now ∧
       (s.arrive 0).pend.supply = some ⟨Staged.reset.supply, 0⟩ ∧ (s.arrive 0).sup.railsUp = false) := by decide
theorem test_hyp_rings : (idle.onRing 3 fun r => { r with ctl := 0x21 }).rings[(3 : RingNo)].enabled = true ∧
    (works (upd .reads none) idle).rings[(0 : RingNo)].work.isSome = true ∧ idle.rings[(0 : RingNo)].enabled = false ∧
    idle.rings[(0 : RingNo)].work = none ∧ bitOf (1 : Word) 0 = true ∧ idle.edge.enableCleared.getLsbD 0 = false := by decide
theorem test_hyp_counters : Cnt.frames.max.toNat ≤ (({ Counters.reset with frames := 0xFFFFFFFFE }).get .frames).toNat + 1 ∧
    idle.log.length < 16 ∧ 16 ≤ (List.replicate 16 (⟨0, 0⟩ : LogEntry)).length := by decide

/-! #### Power and resets -/

theorem test_hyp_por : ((railed .armed).arrive 0).sup.rampBegun = true ∧ ((railed .armed).arrive 0).pw.por = false ∧
    (let s := idle.onSup fun u => { u with phase := .sequencing 0, railsUp := true }
     (s.arrive 0).sup.railsUp = true ∧ (s.arrive 0).sup.phase = .sequencing 0) := by decide +kernel
theorem test_hyp_rstn : ((railed .armed).arrive 0).pw.por = false ∧ ((railed .armed).arrive 0).sup.rampBegun = true ∧
    idle.errorHeld = false ∧
    ({ idle with applied := { Staged.reset with window :=
      { Staged.reset.window with win := Staged.reset.window.win.set 7 ⟨0, 2, 0, 0x11⟩ } } } : State).errorHeld = true := by decide +kernel
theorem test_hyp_clocking :
    (let s := idle.onPw fun p => { p with por := true }
     (s.arrive 0).pw.por = true ∧ (s.arrive 0).pw.rstn = true ∧ testMode (s.arrive 0).tap.ir = false ∧ (s.arrive 0).pw.hck = true) ∧
    (let s := State.reset.onPw fun p => { p with por := true }
     (s.arrive 0).pw.por = true ∧ (s.arrive 0).pw.hck = false) ∧
    (let s := idle.onPw fun p => { p with rstn := false }
     (s.arrive 0).pw.rstn = false ∧ (s.arrive 0).pw.por = false ∧ testMode (s.arrive 0).tap.ir = false ∧ (s.arrive 0).pw.hck = true) ∧
    (let s := State.reset.onPw fun p => { p with rstn := false }
     (s.arrive 0).pw.rstn = false ∧ (s.arrive 0).pw.hck = false) ∧
    (State.reset.arrive 0).pw.hck = false ∧ (State.reset.arrive 0).heldInReset = false := by decide

/-- Within the first clocking, with the strap samples given. -/
def boot (a b : Option (Bool × Bool)) : State :=
  { idle with pw := { Power.reset with hck := true, qual := true, strap1 := a, strap2 := b } }

theorem test_hyp_straps :
    (let s := (boot none none).onPw fun p => { p with clk0 := 0 }
     s.pw.first = true ∧ s.pw.qual = true ∧ s.pw.clk0 + 16 ≤ 15 + 1) ∧
    ((boot none none).arrive 0).ticking = true ∧ ((boot none none).arrive 0).pw.qual = true ∧
    ((boot none none).arrive 0).pw.first = true ∧ ((boot none none).arrive 0).pw.strap1 = none ∧
    (boot (some (true, true)) none).pw.strap1 = some (true, true) ∧
    ((boot (some (true, true)) none).arrive 0).pw.strap1.isSome = true ∧ ((boot (some (true, true)) none).arrive 0).pw.strap2 = none ∧
    ((boot (some (true, true)) (some (true, false))).arrive 0).pw.strap2 = some (true, false) := by decide
theorem test_hyp_wake : (let s := { idle with pw := { Power.reset with hck := true, qual := true, first := false } }
    (s.arrive 0).ticking = true ∧ (s.arrive 0).pw.qual = true ∧ (s.arrive 0).pw.first = false) := by decide
theorem test_hyp_loss :
    (let w := ((railed .armed).arrive 0).closeEdge
     w.pw.hck = true ∧ w.heldInReset = false ∧ w.sup.railsUp = true ∧ w.sup.rampBegun = true) ∧
    (idle.arrive 0).closeEdge.pw.hck = true ∧ (idle.arrive 0).closeEdge.heldInReset = false ∧
    (idle.arrive 0).closeEdge.sup.railsUp = false := by decide +kernel
theorem test_hyp_interrupted : (let s := works { upd (.running ⟨1, 0, 1, false⟩) (some plan1) with journaled := true } (railed .driving)
    ((s.arrive 0).closeEdge.rings[(0 : RingNo)].update?.map fun x => x.2.interruptible) = some true) := by decide +kernel
theorem test_hyp_shutdown : ((railed .armed).arrive 0).pw.sd = false ∧ ((railed .armed).arrive 0).pw.st ≠ .dormant ∧
    ((railed .armed).arrive 0).heldInReset = false ∧ ((railed .armed).arrive 0).sup.rampBegun = true ∧ (idle.arrive 0).sup.rampBegun = false ∧
    ((railed .armed).arrive 0).pw.uvlo = false ∧ ((railed .armed).arrive 0).log = [] ∧ ((railed .armed).arrive 0).pw.st = .armed ∧
    ((railed .armed).arrive 0).ticking = true ∧ State.reset.ticking = false ∧ State.reset.pw.uvlo = false ∧ State.reset.heldInReset = false ∧
    (let s := idle.onPw fun p => { p with sd := true }
     (s.arrive 0).pw.sd = true) ∧
    (let s := idle.goTo .shutdown
     (s.arrive 0).answering = true ∧ (s.arrive 0).pw.st = .shutdown ∧ (s.arrive 0).pw.sd = false) := by decide +kernel
theorem test_hyp_function_reset :
    (let s := (railed .armed).onPw fun p => { p with busy := true }
     (s.arrive 0).answering = true ∧ (s.arrive 0).pw.busy = true ∧ (s.arrive 0).pw.drain = none ∧ (s.arrive 0).mem.cur = none ∧
       (s.arrive 0).mem.txn = none ∧ (s.arrive 0).sup.railsUp = true ∧ (s.arrive 0).pw.st ≠ .shutdown) ∧
    (let s := (railed .armed).onPw fun p => { p with busy := true }
     s.pw.busy = true ∧ s.pw.st ≠ .dormant ∧ s.sup.rampBegun = true ∧ s.sup.ramps = true ∧
       (s.onSup fun u => { u with phase := .fast }).sup.rampBegun = true ∧ (s.onSup fun u => { u with phase := .fast }).sup.ramps = false) ∧
    (let s := (idle.goTo .shutdown).onPw fun p => { p with busy := true }
     (s.arrive 0).answering = true ∧ (s.arrive 0).pw.drain = none ∧ (s.arrive 0).pw.st = .shutdown) ∧
    (let s := idle.onPw fun p => { p with busy := true, drain := some 0 }
     let b := (s.arrive 0).waitUntil (max 0 (s.arrive 0).pw.off0 + 16)
     (s.arrive 0).answering = true ∧ (s.arrive 0).pw.busy = true ∧ (s.arrive 0).pw.drain = some 0 ∧ (s.arrive 0).pw.shut = false ∧
       (s.arrive 0).sup.railsUp = false ∧ Deferred.enterParking ∉ (s.arrive 0).later ∧ (s.arrive 0).pw.st ≠ .shutdown ∧
       b.jnl.replay = none) ∧
    (let s := idle.onPw fun p => { p with busy := true, drain := some 0, shut := true }
     (s.arrive 0).pw.shut = true ∧ (s.arrive 0).pw.st ≠ .shutdown) ∧
    (let s := (idle.goTo .shutdown).onPw fun p => { p with busy := true, drain := some 0 }
     let w := (s.arrive 0).waitUntil ((s.arrive 0).pw.sdClear + 64)
     (s.arrive 0).answering = true ∧ (s.arrive 0).pw.st = .shutdown ∧ (s.arrive 0).pw.sd = false ∧ w.pw.busy = true ∧
       w.pw.drain = some 0) := by decide +kernel

/-! #### Memory port -/

/-- Window 0 maps the first 8 KB of the store to an FRAM in profile S1. -/
def win0 : Win := ⟨0, 2, 0, 0x61090B⟩
def mapped (s : State) : State :=
  { s with applied := { s.applied with window := { s.applied.window with win := s.applied.window.win.set 0 win0 } } }

/-- The next access goes to a window with that configuration. -/
def asks (cfg : Word) (a : Access) : State :=
  { idle with applied := { Staged.reset with window := { Staged.reset.window with win := Staged.reset.window.win.set 0 ⟨0, 2, 0, cfg⟩ } },
              jnl := { Journal.reset with queue := [a] } }

def markAccess (addr : Nat) : Access := jnlAccess .close 0 0 addr 9 0 true (List.replicate 9 0)

/-- A read of 600 bytes, of which the first 512 are on the bus. -/
def bigRead : OpenAccess := ⟨readAccess .oldImage 3 0 7 3 0 600, win0, 0, 0, 600, [], 0, [], false⟩
def lastRead : OpenAccess := { bigRead with acc := readAccess .probe 0 0 7 4 0 9, left := 9 }
def markWrite : OpenAccess := ⟨markAccess 0, win0, 0, 0, 9, [], 0, [], false⟩
def splitWrite : OpenAccess := { markWrite with acc := markAccess 0xFC, target := 0xFC }

/-- A read of two bytes, and a mark, in H8. -/
def h8Read : OpenAccess := ⟨readAccess .oldImage 3 0 7 3 0 2, ⟨0, 2, 0, 0x20000021⟩, 0, 0, 2, [], 0, [], false⟩
def h8Write : OpenAccess := { markWrite with win := ⟨0, 2, 0, 0x20000921⟩ }

/-- The port is open for an access; a stretch of 16 hc is too long. -/
def onPort (k : TxKind) (o : OpenAccess) : State :=
  { idle.onMem (fun m => { m with cur := some o, txn := some (o.txn k 0) }) with
    applied := { Staged.reset with window := { Staged.reset.window with ctl := 8 } } }

/-- The port after the levels of MRDY, and the transaction with the stretches that it will have (`meets`). -/
def after (k : TxKind) (o : OpenAccess) (mrdy : List Bool) : State := ((onPort k o).arrive 0).runMrdy mrdy
def seen (k : TxKind) (o : OpenAccess) (mrdy : List Bool) : Txn :=
  let y := after k o mrdy
  (y.mem.txn.getD (o.txn k 0)).foresee y.mem y.d (mrdyBound y.applied.window.ctl) y.now

def failsAt (k : TxKind) (o : OpenAccess) (mrdy : List Bool) : Option Nat :=
  (seen k o mrdy).mrdyFails (after k o mrdy).d (mrdyBound (after k o mrdy).applied.window.ctl)

/-- The hypotheses of `meets`. -/
def opens (k : TxKind) (o : OpenAccess) (mrdy : List Bool) : Bool :=
  ((onPort k o).arrive 0).ticking && (after k o mrdy).mem.cur == some o && (after k o mrdy).mem.txn.isSome

theorem meets_of_opens {k : TxKind} {o : OpenAccess} {mrdy : List Bool} (h : opens k o mrdy = true) :
    meets (onPort k o) 0 mrdy (after k o mrdy) o (seen k o mrdy) := by
  simp only [opens, Bool.and_eq_true, beq_iff_eq, Option.isSome_iff_exists] at h
  obtain ⟨⟨ht, hc⟩, x, hx⟩ := h
  exact ⟨ht, rfl, hc, x, hx, by simp [seen, hx]⟩

/-- The transaction is open still on that edge. -/
def stands (k : TxKind) (o : OpenAccess) (mrdy : List Bool) (e : Nat) : Bool :=
  let w := (after k o mrdy).waitUntil e
  w.mem.cur == some o && w.mem.txn.isSome

theorem holds_of_stands {k : TxKind} {o : OpenAccess} {mrdy : List Bool} {e : Nat} (h : stands k o mrdy e = true) :
    holds ((after k o mrdy).waitUntil e) o := by
  simpa [stands, holds] using h

/-- The transaction ends well, with its access still open. -/
def ends (k : TxKind) (o : OpenAccess) (mrdy : List Bool) (wait : Nat) (bytes : List Byte) : Bool :=
  let x := seen k o mrdy
  let d := (after k o mrdy).d
  opens k o mrdy && (failsAt k o mrdy).isNone && decide ((o.strobed x).1 + (o.strobed x).2 ≤ bytes.length) && decide (wait ≤ 8 * d) &&
    (decide ((o.strobed x).2 = 0) || h8Ok (bytes.drop (o.strobed x).1)) && stands k o mrdy (endEdge o x d wait)

theorem answered_of_ends {k : TxKind} {o : OpenAccess} {mrdy : List Bool} {wait : Nat} {bytes : List Byte}
    (h : ends k o mrdy wait bytes = true) : answered o (seen k o mrdy) (after k o mrdy).d wait bytes := by
  simp only [ends, Bool.and_eq_true, Bool.or_eq_true, decide_eq_true_eq] at h
  exact ⟨h.1.1.1.2, fun _ => h.1.1.2, fun h0 => h.1.2.resolve_left (by omega)⟩

theorem test_hyp_arbitrate :
    (let s := mapped (works (upd .reads none) idle)
     (s.arrive 0).mayArbitrate = true ∧ (s.arrive 0).edge.arbitrated = false ∧ (s.arrive 0).mem.rise ≤ (s.arrive 0).now ∧
       (s.arrive 0).choice = some (.inr (readAccess .oldImage 3 0 7 3 0 144)) ∧ (s.arrive 0).matching 0 = [0] ∧
       win0 = (s.arrive 0).applied.window.win[0] ∧ 0 + 144 - 1 ≤ win0.last ∧ win0.profile = 0) ∧
    (let s := asks 0x61090B (markAccess 8183)
     (s.arrive 0).mayArbitrate = true ∧ (s.arrive 0).choice = some (.inr (markAccess 8183)) ∧
       (s.arrive 0).matching (markAccess 8183).anchor = [0] ∧ 8183 + 9 - 1 ≤ win0.last ∧ win0.writable = true) ∧
    (let s := asks 0x20000921 (markAccess 0)
     (s.arrive 0).choice = some (.inr (markAccess 0)) ∧ (⟨0, 2, 0, 0x20000921⟩ : Win).profile = 2) ∧
    (let s := (mapped idle).onMem fun m => { m with parked := [bigRead] }
     (s.arrive 0).mayArbitrate = true ∧ (s.arrive 0).choice = some (.inl bigRead) ∧ bigRead.acc.write = false) := by decide +kernel
theorem test_hyp_transactions :
    (ends .read bigRead [false, false, true] 0 [] = true ∧ (seen .read bigRead []).piece < bigRead.left ∧ bigRead.acc.write = false) ∧
    ends .read { bigRead with drop := true } [] 0 [] = true ∧ ends .writeEnable markWrite [] 0 [] = true ∧
    ends .program markWrite [] 0 [] = true ∧
    (ends .status markWrite [] 0 [1] = true ∧ ((busBytes (seen .status markWrite []).count [1]).getD 0 0).getLsbD 0 = true ∧
      markWrite.polls + 1 ≠ markWrite.win.pollMax) ∧
    ends .read h8Read [] 8 [1, 2, 0, 0xFF] = true ∧
    (let s := idle.onMem fun m => { m with cur := some markWrite }
     (s.arrive 0).ticking = true ∧ (s.arrive 0).pollGap = some (markWrite, markWrite.win.pollGap) ∧
       ((s.arrive 0).waitUntil ((s.arrive 0).mem.rise + markWrite.win.pollGap)).pollGap.isSome = true) := by
  decide +kernel
theorem test_hyp_mrdy : idle.mem.mrdy2 = true ∧ (idle.onMem fun m => { m with mrdy2 := false }).mem.mrdy2 = false ∧
    (bigRead.txn .read 0).ready[(bigRead.txn .read 0).stretch.length]? = some 0 := by decide +kernel
theorem test_hyp_complete :
    (ends .read lastRead [] 0 [] = true ∧ lastRead.left ≤ (seen .read lastRead []).piece ∧ lastRead.drop = false) ∧
    (ends .status markWrite [] 0 [0] = true ∧ ((busBytes (seen .status markWrite []).count [0]).getD 0 0).getLsbD 0 = false ∧
      markWrite.left ≤ (seen .status markWrite []).piece ∧ markWrite.acc.write = true) ∧
    (ends .status splitWrite [] 0 [0] = true ∧ (seen .status splitWrite []).piece < splitWrite.left ∧ splitWrite.acc.asker ≠ .erase) ∧
    ends .h8write h8Write [] 8 [0, 0xFF] = true := by
  decide +kernel
theorem test_hyp_delivered :
    ((entryOf (List.replicate 18 0)).namesTable = false ∧ (entryOf [1, 0, 0x20]).namesTable = true ∧
      (idle.onRing 0 fun r => { r with fetching := .table (entry 0x200001 0 0 0) }).rings[(0 : RingNo)].fetching =
        .table (entry 0x200001 0 0 0)) ∧
    (phaseBit [0, 0, 0, 0, 0, 0, 0, 0, 0x80] ≠ idle.rings[(0 : RingNo)].lap 0 ∧ phaseBit [] = idle.rings[(0 : RingNo)].lap 0) ∧
    ((4 : BitVec 16).toNat = fld (wordAt [4] 0) 0 16 ∧ ((4 : BitVec 16) - idle.rings[(0 : RingNo)].head).toNat ≤ 2 ^ ringExp 0x20 ∧
      idle.rings[(0 : RingNo)].tailRead = false ∧ idle.rings[(0 : RingNo)].stale = false ∧
      2 ^ ringExp 0x20 < ((5 : BitVec 16) - idle.rings[(0 : RingNo)].head).toNat ∧
      (let r := { Ring.reset with tail := 4, tailRead := true }
       ((4 : BitVec 16) - r.tail).toNat < 2 ^ 15 ∧ 2 ^ 15 ≤ ((3 : BitVec 16) - r.tail).toNat)) ∧
    (works (upd .reads none) idle).rings[(0 : RingNo)].update? = some (7, upd .reads none) ∧
    (let c : Scan := ⟨false, List.replicate 3584 0⟩
     (idle.onJnl fun j => { j with scan := some c }).jnl.scan = some c ∧ c.bytes.length + 512 = regionBytes 1 ∧ c.bytes.length < regionBytes 1 ∧
       scanIntent (c.bytes ++ List.replicate 512 0) (sectorBytes 0x20) 0 = none) := by decide +kernel

/-- An update with every read done: the legend and the index block hold zeros, the images are alike, so nothing is driven. -/
def readUp (sel : Nat) : Update :=
  { upd .reads none with
    oldImg := some (List.replicate 144 0), newImg := some (BitVec.ofNat 8 sel :: List.replicate 143 0)
    legend := some ([0x10] ++ List.replicate 35 0), index := some (List.replicate 36 0)
    frags := [⟨0, 0, none⟩]
    records := [(1, [4, 0, 0, 0, 0x20, 2, 0x21, 0x20, 2, 0x41, 0, 0, 0, 0, 0, 0, 0, 0], true)] }

theorem test_hyp_reads_done : (upd .reads none).legend = none ∧ (upd .reads none).nextRead.isSome = true ∧
    (readUp 0).nextRead = none ∧ (readUp 1).nextRead = none ∧
    (let p := fun (u : Update) => planOf 2 (bandOf ([0x10] ++ List.replicate 35 0) 200) u.moves u.records
     (p (readUp 0)).drives = false ∧ (p (readUp 1)).drives = true) := by decide +kernel
def slot0 : OpenSlot := ⟨0, 5, 0, 7, false, 0, 0, 0, true, false, none, 0, none, true⟩
theorem test_hyp_write_done :
    (let u := { upd .intent (some plan1) with slot := some 0 }
     let s := works u (idle.onJnl fun j => { j with slots := [slot0] })
     s.findSlot 0 = some slot0 ∧ s.rings[slot0.ring].update? = some (7, u) ∧ slot0.wantTomb = false ∧ (∀ x ∈ s.jnl.slots, x.q = 0)) ∧
    (idle.onJnl fun j => { j with slots := [{ slot0 with wantTomb := true }] }).findSlot 0 = some { slot0 with wantTomb := true } := by
  decide +kernel
theorem test_hyp_failures :
    (let s := works (upd .reads none) idle
     (s.arrive 0).mayArbitrate = true ∧ (s.arrive 0).edge.arbitrated = false ∧ (s.arrive 0).mem.rise ≤ (s.arrive 0).now ∧
       (s.arrive 0).choice = some (.inr (readAccess .oldImage 3 0 7 3 0 144)) ∧ (s.arrive 0).matching 0 = []) ∧
    (let s := asks 0x61090B (markAccess 8184)
     (s.arrive 0).choice = some (.inr (markAccess 8184)) ∧ (s.arrive 0).matching 8184 = [0] ∧ win0.last < 8184 + 9 - 1) ∧
    (let s := asks 0x61080B (markAccess 8183)
     (s.arrive 0).choice = some (.inr (markAccess 8183)) ∧ (⟨0, 2, 0, 0x61080B⟩ : Win).writable = false) ∧
    (idle.rings[(0 : RingNo)].hard = false ∧ (idle.onRing 0 fun r => { r with ctl := 0x25 }).rings[(0 : RingNo)].hard = true) := by
  decide +kernel
theorem test_hyp_bad_ends :
    (ends .status { markWrite with polls := 7 } [] 0 [1] = true ∧ 7 + 1 = markWrite.win.pollMax) ∧
    (let d := (after .read h8Read []).d
     let x := seen .read h8Read []
     opens .read h8Read [] = true ∧ failsAt .read h8Read [] = none ∧ usesMdqs h8Read .read = true ∧ h8Read.strobed x = (2, 2) ∧
       stands .read h8Read [] (Txn.late d (x.endBefore d (x.cycles - 1))) = true ∧
       stands .read h8Read [] (Txn.late d (x.cycleAt d x.cycles)) = true ∧ stands .read h8Read [] (x.cycleAt d x.cycles + 8) = true ∧
       ([1] : List Byte).length < 2 ∧ ([1, 2, 0] : List Byte).length < 2 + 2 ∧ 8 * d < 9 ∧
       h8Ok (([1, 2, 0, 0] : List Byte).drop 2) = false) ∧
    (let d := (after .h8write h8Write []).d
     let x := seen .h8write h8Write []
     opens .h8write h8Write [] = true ∧ failsAt .h8write h8Write [] = none ∧ usesMdqs h8Write .h8write = true ∧ h8Write.strobed x = (0, 2) ∧
       stands .h8write h8Write [] (Txn.late d (x.cycleAt d x.cycles)) = true) := by decide +kernel
theorem test_hyp_stretch :
    (opens .read bigRead ([] ++ [false]) = true ∧ failsAt .read bigRead ([] ++ [false]) = some 41 ∧ stands .read bigRead [false] 41 = true) ∧
    (let l := [true, true, true, true, false]
     let d := (after .read h8Read l).d
     let x := seen .read h8Read l
     opens .read h8Read l = true ∧ failsAt .read h8Read l = some 23 ∧ x.stretch.length + 1 = x.ready.length ∧
       Txn.late d (x.endBefore d (x.cycles - 1)) = 17 ∧ stands .read h8Read l 17 = true) := by decide +kernel

/-! #### Rings -/

theorem test_hyp_polling :
    (let s := ({ idle with now := 65536 } : State).onRing 2 fun r => { r with timer := some 0 }
     (s.arrive 0).answering = true ∧ (s.arrive 0).rings[(2 : RingNo)].timer = some 0 ∧
       ((s.arrive 0).waitUntil (0 + pollInterval (s.arrive 0).rings[(2 : RingNo)].poll)).rings[(2 : RingNo)].timer = some 0) ∧
    (((5 : BitVec 16) - 1 - 4).toNat < 2 ^ 15 ∧ 2 ^ 15 ≤ ((5 : BitVec 16) - 1 - 5).toNat) ∧ idle.rings[(0 : RingNo)].marks = [] ∧
    (idle.onRing 0 fun r => { r with parkHead := some 3 }).rings[(0 : RingNo)].parkHead = some 3 := by decide +kernel

/-- The hypotheses of the statements on entries: the entry waits in ring 0 and is the one to be admitted. -/
def admits (e : Entry) (s : State) : Prop :=
  ((waits e s).arrive 0).answering = true ∧
  ((waits e s).arrive 0).rings[(0 : RingNo)].fetched = [⟨7, e, [], true, ⟨none, none, 0, 0, true⟩⟩] ∧
  ((waits e s).arrive 0).chosen 0 = true ∧ ((waits e s).arrive 0).rings[(0 : RingNo)].barrier = none ∧
  ((waits e s).arrive 0).rings[(0 : RingNo)].syncNext = false

theorem test_hyp_nop_mark : admits (entry 0 0 0 0) idle ∧ admits (entry 7 0 0 0) idle ∧ (entry 7 0 0 0).op = 7 ∧ (entry 0 0 0 0).op = 0 ∧
    idle.rings[(0 : RingNo)].hole = false ∧ idle.rings[(0 : RingNo)].comp = 0 ∧
    (idle.onRing 0 fun r => { r with hole := true }).rings[(0 : RingNo)].hole = true ∧
    (let s := (waits (entry 1 0 0 0) idle).onRing 0 fun r => { r with fetched := r.fetched.map fun f => { f with runsHere := false } }
     (s.arrive 0).chosen 0 = true ∧ (s.arrive 0).rings[(0 : RingNo)].fetched.map (·.runsHere) = [false]) := by
  unfold admits; decide +kernel
theorem test_hyp_temp : admits (entry 4 0xE0 0 0) idle ∧ (entry 4 0xE0 0 0).op = 4 ∧
    bitOf ({ idle with applied := { Staged.reset with thermal := { Staged.reset.thermal with ctl := 1 } } }).applied.thermal.ctl 0 = true ∧
    idle.pw.qual = false ∧ bitOf idle.applied.thermal.ctl 0 = false := by
  unfold admits; decide +kernel
theorem test_hyp_sync : admits (entry 5 0x1000 0 0) idle ∧ (entry 5 0 0 0).op = 5 ∧
    (let s := (waits (entry 5 0x1000 0 0) idle).onRing 0 fun r => { r with barrier := some ⟨0, 0, true, 0x1000, none⟩, syncNext := true }
     (s.arrive 0).chosen 0 = true ∧ (s.arrive 0).rings[(0 : RingNo)].barrier.isSome = true ∧ (s.arrive 0).wild = none) := by
  unfold admits; decide +kernel
theorem test_hyp_park : admits (entry 6 0 0 0) (idle.onCnv fun c => { c with high := true }) ∧
    admits (entry 6 0 0 0) ((railed .armed).onCnv fun c => { c with high := true }) ∧ (entry 6 0 0 0).op = 6 ∧ idle.sup.railsUp = false ∧
    (railed .armed).pw.busy = false ∧ (railed .armed).sup.phase = .up ∧
    ((railed .armed).onRing 0 fun r => { r with work := some (7, .park) }).rings[(0 : RingNo)].work = some (7, .park) ∧
    (let s := works (upd .ready (some plan1)) (railed .armed)
     s.pw.busy = false ∧ s.anyUpdate = true ∧ ∀ n : RingNo, s.rings[n].work.map (·.2) ≠ some .park) := by
  unfold admits; decide +kernel
theorem test_hyp_cfg :
    (let e := entry 0x30000003 0x1000 0x78 0
     admits e idle ∧ e.op = 3 ∧ e.ind = false ∧ recordReg (fld e.w1 0 16) = some .vpos ∧ ((waits e idle).arrive 0).locked .vpos = false ∧
       ((waits e idle).arrive 0).edge.shadow0 = none ∧ ((waits e idle).arrive 0).edge.shadowWrites = [] ∧
       ((waits e idle).arrive 0).commitsNow = 0) := by
  unfold admits; decide +kernel
theorem test_hyp_update : admits (entry 1 0 144 0x2209) (warm idle) ∧ admits (entry 2 0 3 0x2209) (warm idle) ∧
    ((entry 1 0 144 0x2209).frags []).all Frag.trusted = true ∧ (entry 2 0 3 0x2209).op = 2 := by
  unfold admits; decide +kernel

/-! #### Journal -/

theorem test_hyp_intent :
    (let u := { upd .waitIntent (some plan1) with journaled := true }
     let s := works u ((mapped idle).onJnl fun j => { j with ctl := 0x21, base := 0, gate := true })
     (s.arrive 0).answering = true ∧ (s.arrive 0).rings[(0 : RingNo)].update? = some (7, u) ∧ (s.arrive 0).checking = false ∧
       (s.arrive 0).pw.busy = false ∧ (s.arrive 0).pw.st ≠ .recovery ∧ (s.arrive 0).pw.st ≠ .shutdown ∧ (s.arrive 0).regionOk = true ∧
       (s.arrive 0).slotBlocked (s.arrive 0).nextSlot = false) ∧
    (let u := { upd .waitIntent (some plan1) with journaled := true }
     let s := works u (idle.onJnl fun j => { j with ctl := 0x21, gate := true })
     (s.arrive 0).rings[(0 : RingNo)].update? = some (7, u) ∧ (s.arrive 0).regionOk = false) := by decide +kernel

/-- A replay whose closes are done. -/
def closing : State := (idle.goTo .recovery).onJnl fun j => { j with replay := some ⟨[], none, none, [], .close, false⟩, gateAfter := true }

theorem test_hyp_replay : (closing.arrive 0).answering = true ∧ (closing.arrive 0).jnl.replay = some ⟨[], none, none, [], .close, false⟩ ∧
    (∀ o ∈ (closing.arrive 0).jnl.slots, o.replayed = false ∧ o.wantTomb = false) ∧ Deferred.endRecovery ∉ (closing.arrive 0).later ∧
    closing.pw.st = .recovery ∧
    closing.jnl.gateAfter = true ∧
    (∀ st ∈ [EngState.idle, .armed, .held],
      let s := ((idle.goTo st).onPw fun p => { p with jopen := true }).onJnl fun j => { j with gateAfter := true, slots := [slot0] }
      s.jnl.gateAfter = true ∧ s.pw.jopen = true ∧ s.jnl.scan = none ∧ s.jnl.replay = none ∧ s.pw.busy = false ∧ s.pw.st = st ∧
        s.drv.frames = none ∧ Deferred.enterParking ∉ s.later) := by decide +kernel
theorem test_hyp_close :
    (let s := idle.onJnl fun j => { j with slots := [slot0] }
     s.findSlot 0 = some slot0 ∧ (∀ x ∈ s.jnl.slots, x.q = 0) ∧ s.rings[slot0.ring].update? = none) ∧
    (let u := { upd .closing (some plan1) with slot := some 0 }
     let s := works u (idle.onJnl fun j => { j with slots := [slot0] })
     s.findSlot 0 = some slot0 ∧ s.rings[slot0.ring].update? = some (7, u) ∧ u.slot = some 0) := by decide +kernel
theorem test_hyp_newer : newer (0xFFFFFF + BitVec.ofNat 24 455) 0xFFFFFF = true ∧ newer 0x800000 0 = false ∧ newer 0x7FFFFF 0 = true := by decide +kernel

/-! #### Frames -/

def frame1 (dwell : List OutNo) : Frames := ⟨0, 200000, [], [], dwell, 0, 40⟩

theorem test_hyp_start1 : (let s := works (upd .ready (some plan1)) (railed .armed)
    (s.arrive 0).startable 0 = true ∧ (s.arrive 0).rings[(0 : RingNo)].update? = some (7, upd .ready (some plan1)) ∧
      (s.arrive 0).drv.frames = none) := by decide +kernel
theorem test_hyp_barrier_start :
    (let u := { upd .ready (some plan1) with gated := true }
     let s := (works u (railed .armed)).onRing 0 fun r => { r with barrier := some ⟨0, 0, true, 0x1000, some 0⟩ }
     (s.arrive 0).startable 0 = true ∧ (s.arrive 0).rings[(0 : RingNo)].update? = some (7, u) ∧
       (s.arrive 0).rings[(0 : RingNo)].barrier = some ⟨0, 0, true, 0x1000, some 0⟩ ∧ ((s.arrive 0).waitUntil 4).drv.frames = none) := by
  decide +kernel
theorem test_hyp_frame_end :
    (let s := (railed .driving).onDrv fun d => { d with frames := some (frame1 [3]) }
     (s.arrive 0).answering = true ∧ (s.arrive 0).drv.frames = some (frame1 [3]) ∧ (frame1 [3]).dwell ≠ [] ∧
       (let s := { s with now := 200000 }
        ((s.arrive 0).waitUntil ((frame1 [3]).start + (frame1 [3]).len)).drv.frames = some (frame1 [3]))) ∧
    (let s := { (railed .driving).onDrv fun d => { d with frames := some (frame1 [3]) } with now := 40 }
     (frame1 [3]).dwell0 + (frame1 [3]).dwellLen ≤ (s.arrive 0).now) ∧
    -32767 < (0x8002#16).toInt ∧ (0x7FFE#16).toInt < 32767 ∧ (0x8001#16).toInt = -32767 ∧ (0x7FFF#16).toInt = 32767 := by decide +kernel

/-! #### Outputs and rails -/

def lim3 : Lim := ⟨3, 0, 0, true, false⟩

/-- Pair 0 (outputs 0 and 1) is declared. -/
def paired (s : State) : State :=
  { s with applied := { s.applied with drive := { s.applied.drive with gang := s.applied.drive.gang.set 0 1 } } }

theorem test_hyp_level_check :
    (paired (railed .driving)).partner 0 = some 1 ∧ (railed .driving).partner 3 = none ∧ (railed .driving).sup.noCheck = false ∧
    ((railed .driving).onSup fun u => { u with noCheck := true }).sup.noCheck = true ∧ (outBit 3).getLsbD 3 = true ∧
    (3 : OutNo) ∉ (frame1 []).dwell ∧ (frame1 []).target.getD 3 .vcom ≠ .float ∧
    (let s := { (works (upd (.running ⟨2, 0, 1, false⟩) (some { plan1 with waves := [[⟨1, 0, 2⟩, ⟨2, 0, 2⟩]], len := 4 })) (railed .driving)).onDrv
       fun d => { d with frames := some (frame1 []) } with now := 200000 }
     (s.arrive 0).answering = true ∧ (s.arrive 0).drv.frames = some (frame1 []) ∧
       (let w := (s.arrive 0).waitUntil ((frame1 []).start + (frame1 []).len)
        w.drv.frames = some (frame1 []) ∧ w.runners.any Runner.boundary = true ∧ w.runners.any Runner.phaseStarts = true ∧
          w.sup.noCheck = false ∧ w.sup.fault.getLsbD 3 = false)) ∧
    (let s := works (upd (.running ⟨1, 0, 1, false⟩) (some plan1)) (railed .driving)
     s.runners.any Runner.boundary = false) := by decide +kernel
theorem test_hyp_outputs :
    (let s := { (railed .armed) with now := 512 }
     (s.arrive 0).senses = true ∧ (s.arrive 0).sensed 3 = true ∧ (s.arrive 0).sup.limited = [] ∧
      (s.arrive 0).changeDone 3 ≤ (s.arrive 0).now ∧ (s.arrive 0).sup.foldback = false ∧ (s.arrive 0).log.length < 16) ∧
    (let s := { (railed .armed).onSup fun u => { u with limited := [lim3] } with now := 2048 }
     (s.arrive 0).answering = true ∧ (∃ l ∈ (s.arrive 0).sup.limited, l.out = 3) ∧ (s.arrive 0).senses = true ∧
       (s.arrive 0).sup.limited.find? (fun x => x.out == 3) = some lim3 ∧
       (let w := (s.arrive 0).waitUntil (lim3.since + 2048)
        w.sup.fault.getLsbD 3 = false ∧ w.log.length < 16 ∧ (∃ z ∈ w.sup.limited, z.out = 3) ∧
          (∀ z ∈ w.sup.limited, w.tied lim3 z = false) ∧ lim3.tied = false ∧ w.partner 3 = none)) ∧
    (let s := { (railed .armed).onSup fun u => { u with limited := [lim3, { lim3 with out := 6, entered := 4, since := 1, sink := false }] } with
       now := 2048 }
     let w := (s.arrive 0).waitUntil (lim3.since + 2048)
     ∃ z ∈ w.sup.limited, w.tied lim3 z = true ∧ w.now < z.since + 2048) ∧
    (let s := paired { (railed .armed).onSup fun u => { u with limited := [{ lim3 with out := 0 }] } with now := 2048 }
     ((s.arrive 0).waitUntil 2048).partner 0 = some 1 ∧ ((s.arrive 0).waitUntil 2048).sup.fault.getLsbD 1 = false) := by decide +kernel
theorem test_hyp_foldback :
    (let s := { (railed .armed).onSup fun u => { u with limited := List.replicate 16 { lim3 with out := 5 } } with now := 512 }
     (s.arrive 0).senses = true ∧ (∀ l ∈ (s.arrive 0).sup.limited, l.out ≠ 3) ∧ (s.arrive 0).changeDone 3 ≤ (s.arrive 0).now ∧
       (s.arrive 0).sup.foldback = false ∧ 16 < ((s.arrive 0).sup.limited ++ [lim3]).length) := by decide +kernel
theorem test_hyp_pair : (let s := paired (railed .armed)
    (s.arrive 0).senses = true ∧ ((s.arrive 0).gangsAt 0).getLsbD 0 = true ∧ (s.arrive 0).sup.fault.getLsbD 0 = false ∧
      (s.arrive 0).sup.fault.getLsbD 1 = false ∧ (s.arrive 0).log.length < 16) := by decide +kernel

/-- An update needs the rails. -/
def needs (ph : RailPhase) (up : Bool) : State :=
  (works (upd .ready (some plan1)) (warm idle)).onSup fun u => { u with phase := ph, railsUp := up }

theorem test_hyp_sequencing : ((needs .off false).arrive 0).maySequence = true ∧
    ((needs (.sequencing 0) true).arrive 0).answering = true ∧ ((needs (.sequencing 0) true).arrive 0).sup.phase = .sequencing 0 ∧
    (((needs (.sequencing 0) true).arrive 0).waitUntil 16).sup.phase = .sequencing 0 ∧
    Deferred.dropSequencing ∉ (((needs (.sequencing 0) true).arrive 0).waitUntil 16).later := by decide +kernel
theorem test_hyp_ramp :
    (let s := (needs (.ramp 0 140) true).onSup fun u => { u with vcom := -60 }
     (s.arrive 0).answering = true ∧ (s.arrive 0).sup.ramps = true ∧ (s.arrive 0).sup.dac ≠ (s.arrive 0).sup.vcom ∧
       (s.arrive 0).sup.tpos < 160 + (s.arrive 0).sup.vpos ∧ ((s.arrive 0).waitUntil ((s.arrive 0).sup.dac0 + 8)).sup.ramps = true ∧
       ((s.arrive 0).waitUntil ((s.arrive 0).sup.rail0 + 128)).sup.ramps = true) := by decide +kernel
theorem test_hyp_slew :
    (let s := (needs .up true).onSup fun u => { u with vpos := 120 }
     let w := (s.arrive 0).waitUntil ((s.arrive 0).sup.slew0 + slewStep (s.arrive 0).applied.supply.conv)
     (s.arrive 0).answering = true ∧ (s.arrive 0).sup.railsUp = true ∧ (s.arrive 0).sup.switching = true ∧ (s.arrive 0).settled = false ∧
       w.pend.supply = none ∧ w.sup.railsUp = true ∧ w.sup.switching = true ∧ w.sup.phase = .up) ∧ idle.jnl.replay = none ∧
    (let p : Pending SupplyGroup := ⟨{ Staged.reset.supply with vpos := 0x8B }, 0⟩
     let s := { needs .up true with now := 1024, pend := ⟨none, some p, none, none⟩, applied := { Staged.reset with supply := p.val } }
     let w := (s.arrive 0).waitUntil ((s.arrive 0).sup.slew0 + slewStep (s.arrive 0).applied.supply.conv)
     (s.arrive 0).answering = true ∧ (s.arrive 0).settled = false ∧ w.pend.supply = some p ∧ p.at0 < w.now ∧ w.now ≠ p.at0 + 1 ∧
       w.sup.railsUp = true ∧ w.sup.switching = true) ∧
    ((needs .up true).arrive 0).settled = true ∧ ((needs (.discharge 0 2 1) true).arrive 0).sup.switching = true ∧
    (let x : Int := (BitVec.ofNat 10 (fld Staged.reset.supply.vcom 0 10)).toInt
     x.natAbs ≤ fld Supply.reset.vlim 18 9 ∧ x.natAbs ≤ 500) := by decide +kernel
theorem test_hyp_safe_points :
    (let p : Pending DriveGroup := ⟨Staged.reset.drive, 0⟩
     let s := { (railed .driving).onDrv fun d => { d with frames := some (frame1 []) } with now := 200000, pend := ⟨some p, none, none, none⟩ }
     let w := (s.arrive 0).waitUntil (max (p.at0 + 1) ((frame1 []).start + (frame1 []).len))
     (s.arrive 0).answering = true ∧ (s.arrive 0).pend.drive = some p ∧ (s.arrive 0).drv.frames = some (frame1 []) ∧
       w.pend.drive = some p ∧ w.drv.frames = some (frame1 []) ∧ p.at0 < w.now) ∧
    (let p : Pending DriveGroup := ⟨Staged.reset.drive, 0⟩
     let s := { works (upd .ready (some plan1)) (railed .armed) with now := 1, pend := ⟨some p, none, none, none⟩ }
     (s.arrive 0).startable 0 = true ∧ (s.arrive 0).gated 0 = false ∧ (s.arrive 0).drv.frames = none ∧
       (s.arrive 0).pend.drive = some p ∧ p.at0 < (s.arrive 0).now) ∧
    (let p : Pending SupplyGroup := ⟨Staged.reset.supply, 0⟩
     let s := { (railed .armed) with now := 1, pend := ⟨none, some p, none, none⟩ }
     (s.arrive 0).answering = true ∧ (s.arrive 0).pend.supply = some p ∧ (s.arrive 0).sup.railsUp = true ∧ p.at0 < (s.arrive 0).now) ∧
    (∀ at0 ∈ [0, 65536],
      let p : Pending ThermalGroup := ⟨Staged.reset.thermal, at0⟩
      let s := { idle with now := 65536, pend := ⟨none, none, none, some p⟩ }
      let w := (s.arrive 0).waitUntil ((s.arrive 0).thm.window0 + 65536)
      (s.arrive 0).answering = true ∧ w.pend.thermal = some p ∧ w.now = 65536) := by decide +kernel
theorem test_hyp_slot_actions :
    (idle.onRing 3 fun r => { r with ctl := 0x21 }).rings[(3 : RingNo)].enabled = true ∧ idle.rings[(3 : RingNo)].enabled = false ∧
    bitOf (3 : Word) 1 = true ∧ bitOf (3 : Word) 0 = true ∧ bitOf (2 : Word) 0 = false ∧ idle.jnl.scan = none ∧ idle.jnl.replay = none ∧
    idle.pw.jopen = false ∧ idle.jnl.gate = false ∧ closing.jnl.replay.isSome = true ∧
    (let s := (idle.onPw fun p => { p with jopen := true }).onJnl fun j => { j with gate := true }
     s.pw.jopen = true ∧ s.jnl.gate = true) ∧
    (∀ u ∈ [upd .ready (some plan1), upd (.running ⟨1, 0, 1, false⟩) (some plan1)],
      let s := (works u (railed .driving)).onRing 0 fun r => { r with ctl := 0x21 }
      s.rings[(0 : RingNo)].enabled = true ∧ s.rings[(0 : RingNo)].hard = false ∧ s.edge.enableCleared.getLsbD 0 = false ∧
        s.rings[(0 : RingNo)].update? = some (7, u)) ∧
    (upd .ready (some plan1)).stage.unstarted = true ∧ (upd (.running ⟨1, 0, 1, false⟩) (some plan1)).stage.unstarted = false ∧
    (onPort .read { bigRead with acc := readAccess .entry 0 0 7 4 0 18 }).mem.cur.map (·.acc.asker.isFetch) = some true ∧
    idle.rings[(0 : RingNo)].work = none ∧ idle.edge.headTaken.getLsbD 0 = false := by decide +kernel
/-- The three events that discharge the rails at once, in each phase after the ramp's start and in a sequencing. -/
theorem test_hyp_immediate :
    ∀ ph ∈ [RailPhase.ramp 0 140, .up, .discharge 0 2 1, .bleed, .sequencing 0],
      let s := needs ph true
      (s.arrive 0).closeEdge.heldInReset = false ∧ (s.arrive 0).closeEdge.pw.hck = true ∧ (s.arrive 0).heldInReset = false ∧
        (s.arrive 0).pw.sd = false ∧ (s.arrive 0).pw.uvlo = false ∧ (s.arrive 0).sup.railsUp = true ∧ (s.arrive 0).sup.phase = ph ∧
        (s.arrive 0).sup.rampBegun = decide (ph ≠ .sequencing 0) := by decide +kernel
theorem test_hyp_regulation : ((needs (.ramp 0 140) true).arrive 0).sup.phase = .ramp 0 140 ∧ (railed .idle).sup.phase = .up ∧
    (railed .idle).pw.st = .idle ∧
    (let s := idle.goTo .parking
     (s.arrive 0).answering = true ∧ (s.arrive 0).pw.st = .parking ∧ (s.arrive 0).sup.phase = .off ∧ (s.arrive 0).pw.busy = false) ∧
    (let s := (railed .armed)
     (s.arrive 0).answering = true ∧ (s.arrive 0).pw.st = .armed ∧ (s.arrive 0).anyUpdate = false ∧ (s.arrive 0).armto ≠ 0 ∧
       Deferred.enterParking ∉ (s.arrive 0).later ∧
       ((s.arrive 0).waitUntil ((s.arrive 0).pw.armed0 + 65536 * (s.arrive 0).armto)).pw.st = .armed) ∧
    (let s := idle.goTo .held
     (s.arrive 0).answering = true ∧ (s.arrive 0).pw.st = .held ∧ (s.arrive 0).heldFlag = false ∧ (s.arrive 0).readsPending = false ∧
       (s.arrive 0).needed = false ∧ Deferred.leaveHeld ∉ (s.arrive 0).later ∧ ∀ n, (s.arrive 0).admissible n = false) := by decide +kernel
theorem test_hyp_ramp_timeout :
    (let s := needs (.ramp 0 140) true
     let w := (s.arrive 0).waitUntil (0 + 2 * (128 * (160 + 140) + 2048))
     (s.arrive 0).answering = true ∧ (s.arrive 0).sup.phase = .ramp 0 140 ∧ w.sup.phase = .ramp 0 140 ∧ w.jnl.replay = none ∧
       w.rings[(0 : RingNo)].waitsForRails = true) ∧
    (let s := (((railed .recovery).onSup fun u => { u with phase := .ramp 0 0 })).onJnl fun j =>
       { j with replay := some ⟨[], none, none, [], .close, false⟩ }
     let t := { s with now := 2 * (128 * (160 + 0) + 2048) }
     ((t.arrive 0).waitUntil (0 + 2 * (128 * (160 + 0) + 2048))).sup.phase = .ramp 0 0 ∧
       ((t.arrive 0).waitUntil (0 + 2 * (128 * (160 + 0) + 2048))).jnl.replay.isSome = true) := by decide +kernel
theorem test_hyp_discharge : (let s := needs (.discharge 0 2 1) true
    (s.arrive 0).answering = true ∧ (s.arrive 0).sup.phase = .discharge 0 2 1) ∧
    (let s := needs (.discharge 0 2 2) true
     (s.arrive 0).sup.phase = .discharge 0 2 2) ∧
    (let s := ((railed .armed).onSup fun u => { u with phase := .bleed }).onRing 0 fun r => { r with work := some (7, .park) }
     (s.arrive 0).sup.phase = .bleed ∧ (s.arrive 0).rings[(0 : RingNo)].work = some (7, .park) ∧ (s.arrive 0).pw.st = .armed ∧
       (s.arrive 0).sup.toHeld = false ∧ (s.arrive 0).ticking = true) ∧
    (let s := State.reset.onSup fun u => { u with phase := .fast, railsUp := true }
     (s.arrive 0).sup.phase = .fast ∧ (s.arrive 0).ticking = false) := by decide +kernel
theorem test_hyp_energy : (idle.arrive 0).ticking = true ∧ (idle.arrive 0).pw.st ≠ .dormant ∧
    2 ^ 36 ≤ (0xFFFFFFFFF : Word).toNat + (idle.onEdge fun e => { e with energy := 1 }).edge.energy ∧
    2 ^ 36 ≤ (idle.onSup fun u => { u with energy := 0xFFFFFFFFF }).sup.energy.toNat + (idle.sup.energyRem + 1000000) / 1000000 := by decide +kernel

/-! #### Temperature, convoy, test access port -/

theorem test_hyp_conversion : (let s := { idle with now := 65536 }
    let w := (s.arrive 0).waitUntil ((s.arrive 0).thm.window0 + 65536)
    (s.arrive 0).answering = true ∧ w.pend.thermal = none ∧ w.thm.warn = false ∧ w.thm.throttle = false ∧
      overT false (tempInt (convert 1500000)) (warnT w.applied.thermal.warn) (hyst w.applied.thermal.warn) = true ∧
      bitOf w.applied.thermal.ctl 0 = false) := by decide +kernel
theorem test_hyp_barrier :
    (let s := { (works { upd .ready (some plan1) with gated := true } (railed .armed)).onRing 0 fun r =>
        { r with barrier := some ⟨0, 256, true, 0x1000, none⟩ } with now := 17 }
     let w := (s.arrive 0).waitUntil (max (max (s.arrive 0).cnv.rel (s.arrive 0).pw.clk0) (s.arrive 0).cnv.lowAt + 17)
     (s.arrive 0).answering = true ∧ (s.arrive 0).cnv.drv = false ∧ w.cnv.drv = false ∧ w.allReady = true ∧
       w.rings[(0 : RingNo)].barrier = some ⟨0, 256, true, 0x1000, none⟩ ∧ s.armed = true ∧ s.allReady = true) ∧
    (let s := { idle.onRing 0 fun r => { r with barrier := some ⟨0, 0, true, 0x1000, none⟩ } with now := 17 }
     (s.arrive 0).allReady = false ∧ s.armed = true ∧ s.allReady = false ∧ (s.arrive 0).answering = true ∧
       ((s.arrive 0).waitUntil 17).allReady = false ∧ ((s.arrive 0).waitUntil 17).cnv.drv = false) := by decide +kernel
theorem test_hyp_bar_drive : idle.heldInReset = false ∧ idle.pw.busy = false ∧ idle.pw.qual = false ∧ idle.pw.st ≠ .dormant ∧
    idle.armed = false ∧ idle.vote = true ∧ (idle.onCnv fun c => { c with ctl := 0 }).vote = false ∧
    (idle.onRing 0 fun r => { r with parkHead := some 3 }).casting = true ∧ (railed .armed).casting = false ∧ (railed .armed).hasWork = true ∧
    ((railed .armed).onCnv fun c => { c with voted := true }).cnv.voted = true := by decide +kernel
/-- The TAP stands in Shift-IR with an opcode in its shift stage; two TCK edges with TMS high lead to Update-IR. -/
def scanning (op ir : BitVec 4) : State := { idle with tap := { Tap.reset with ctl := .shiftIr, irShift := op, ir := ir } }

theorem test_hyp_tap : ((scanning 0 2).arrive 0).pw.por = false ∧
    (∀ op : BitVec 4, (scanning op 2).tap.ctl.reaches .updateIr [false, true, true] = none) ∧
    (∀ op : BitVec 4, { (scanning op 2).tap with ctl := .exit1Ir }.ctl.reaches .updateIr [true] = some .updateIr ∧ (scanning op 2).tap.irShift = op) ∧
    testMode 8 = true ∧ testMode 5 = false ∧ testMode (scanning 0 2).tap.ir = false ∧ testMode (scanning 0 8).tap.ir = true ∧
    listedOpcode 5 = false ∧ listedOpcode 0xF = false ∧ (idle.arrive 0).heldInReset = false ∧ idle.pw.rstn = true ∧ idle.pw.hck = true := by
  decide +kernel
theorem test_hyp_tap_data : TapCtl.runTestIdle.reaches .captureIr [true, true, false, false] = some .shiftIr ∧
    TapCtl.runTestIdle.reaches .captureDr [true, false, true] = some .exit1Dr ∧ TapCtl.exit1Dr.reaches .updateDr [true] = some .updateDr ∧
    TapCtl.shiftIr.reaches .shiftIr [false] = some .shiftIr ∧ TapCtl.pauseIr.walk [true, false] = some .shiftIr ∧
    TapCtl.pauseDr.walk [true, false] = some .shiftDr ∧ TapCtl.shiftDr.reaches .shiftDr [true] = some .exit1Dr ∧
    dataReg 2 = .ident ∧ dataReg 0xF = .bypass ∧ dataReg 0 = .boundary ∧ dataReg 8 = .segment ∧ (idle.arrive 0).sup.railsUp = false ∧
    ((railed .armed).arrive 0).sup.railsUp = true ∧ ((railed .armed).arrive 0).sup.near = false := by decide +kernel

end Sys2Proof.Tests
end

/-! SUPPORT. What an edge of the set-up bus leaves of the port: register writes, the bit taken, the value of PWR_SETUP in force, the end of
a byte. The proofs of O11 and O12 (R84, R87, R90). -/

namespace Sys2Proof.Machine

open Sys2Proof.Safety

/-! ### Shared operations leave the set-up port alone -/

/-- What leaves alone all that the host makes leaves alone the set-up port. -/
theorem port_of_kept {s t : State} (h : t.kept = s.kept) : t.port = s.port := (congrArg State.port h :)

theorem foldl_port {α : Type} (f : State → α → State) (h : ∀ s a, (f s a).port = s.port) (l : List α) (s : State) :
    (l.foldl f s).port = s.port := by
  induction l generalizing s with
  | nil => rfl
  | cons a l ih => rw [List.foldl_cons, ih, h]

@[simp] theorem State.count_port (s : State) (c : Cnt) : (s.count c).port = s.port := port_of_kept (s.count_kept c)
@[simp] theorem State.putCnt_port (s : State) (c : Cnt) (v : Word) (e : Bool) : (s.putCnt c v e).port = s.port :=
  port_of_kept (s.putCnt_kept c v e)
@[simp] theorem State.commit_port (s : State) (g : BitVec 4) (x : Staged) : (s.commit g x).port = s.port := port_of_kept (s.commit_kept g x)
@[simp] theorem State.stopReplay_port (s : State) : s.stopReplay.port = s.port := port_of_kept s.stopReplay_kept
@[simp] theorem State.resetStop_port (s : State) (n : RingNo) : (s.resetStop n).port = s.port := port_of_kept (s.resetStop_kept n)
@[simp] theorem State.drainEnd_port (s : State) : s.drainEnd.port = s.port := port_of_kept s.drainEnd_kept
@[simp] theorem State.stopRing_port (s : State) (n : RingNo) : (s.stopRing n).port = s.port := port_of_kept (s.stopRing_kept n)
@[simp] theorem State.askScan_port (s : State) : s.askScan.port = s.port := port_of_kept s.askScan_kept
@[simp] theorem State.takeTargets_port (s : State) : s.takeTargets.port = s.port := port_of_kept s.takeTargets_kept

/-! ### A register write reaches no field of the port but PWR_SETUP and PWR_SETUPST -/

@[simp] theorem State.lockViolation_port (s : State) : s.lockViolation.port = s.port := by
  unfold State.lockViolation; simp

@[simp] theorem State.writeShadow_port (s : State) (r : StReg) (v : Word) : (s.writeShadow r v).port = s.port := by
  unfold State.writeShadow
  split
  · exact s.lockViolation_port
  · dsimp only; split
    · split <;> rfl
    · rfl

@[simp] theorem State.hostShadow_port (s : State) (r : StReg) (v : Word) : (s.hostShadow r v).port = s.port := by
  unfold State.hostShadow; simp

@[simp] theorem State.heal_port (s : State) : s.heal.port = s.port := by
  unfold State.heal; split <;> rfl

@[simp] theorem State.functionReset_port (s : State) : s.functionReset.port = s.port := by
  unfold State.functionReset
  simp [apply_ite State.port, foldl_port _ State.resetStop_port]

@[simp] theorem State.writeRingCtl_port (s : State) (n : RingNo) (v : Word) : (s.writeRingCtl n v).port = s.port := by
  unfold State.writeRingCtl
  simp [apply_ite State.port]

@[simp] theorem State.journalCheck_port (s : State) : s.journalCheck.port = s.port := by
  unfold State.journalCheck
  simp [apply_ite State.port]

@[simp] theorem State.writeJnlCtl_port (s : State) (v : Word) : (s.writeJnlCtl v).port = s.port := by
  unfold State.writeJnlCtl
  simp [apply_ite State.port]

@[simp] theorem State.writeRegion_port (s : State) (f : Journal → Journal) : (s.writeRegion f).port = s.port := by
  unfold State.writeRegion
  simp [apply_ite State.port]

@[simp] theorem State.writeVlim_port (s : State) (v : Word) : (s.writeVlim v).port = s.port := by
  unfold State.writeVlim
  split
  · exact s.lockViolation_port
  · dsimp only; split <;> simp

@[simp] theorem State.writeCnt_port (s : State) (c : Cnt) (v : Word) : (s.writeCnt c v).port = s.port := by
  unfold State.writeCnt; simp

@[simp] theorem State.writeEnergy_port (s : State) (v : Word) : (s.writeEnergy v).port = s.port := by
  unfold State.writeEnergy
  simp [apply_ite State.port]

/-- A register write changes of the port the two registers PWR_SETUP and PWR_SETUPST alone. -/
theorem State.writeReg_port (s : State) (r : Reg) (v : Word) :
    ∃ a b, (s.writeReg r v).port = { s.port with setup := a, setupst := b } := by
  cases r
  case pwrSetup => exact ⟨_, _, rfl⟩
  case pwrSetupst => exact ⟨_, _, rfl⟩
  all_goals
    refine ⟨s.port.setup, s.port.setupst, ?_⟩
    simp [State.writeReg, apply_ite State.port]

theorem State.writeSlot_port (s : State) (k : BitVec 13) (v : Word) :
    ∃ a b, (s.writeSlot k v).port = { s.port with setup := a, setupst := b } := by
  unfold State.writeSlot
  split
  · exact s.writeReg_port _ v
  · exact ⟨_, _, rfl⟩

theorem State.commitSlot_port (s : State) (k : BitVec 13) (v : Word) :
    ∃ a b, (s.commitSlot k v).port = { s.port with setup := a, setupst := b } := by
  obtain ⟨a, b, h⟩ := s.writeSlot_port k v
  refine ⟨a, b, ?_⟩
  unfold State.commitSlot
  simp [apply_ite State.port, h]

/-! ### The bit that an edge takes -/

/-- Leaving a slot drops the holding buffer and may mark PWR_SETUPST (R92). -/
theorem State.leaveSlot_port (s : State) : ∃ b, s.leaveSlot.port = { s.port with buf := none, setupst := b } := by
  unfold State.leaveSlot
  split
  · dsimp only; split <;> exact ⟨_, rfl⟩
  · next h => exact ⟨s.port.setupst, by rw [← h]⟩

theorem State.enterSlot_port (s : State) : ∃ h b, s.enterSlot.port = { s.port with buf := h, setupst := b } := by
  unfold State.enterSlot
  split
  · split
    · exact ⟨_, _, rfl⟩
    · exact ⟨none, s.leaveSlot_port⟩
  · exact ⟨_, _, rfl⟩

theorem State.takeBit_port (s : State) (x : Bool) :
    ∃ h b sh n ph, (s.takeBit x).port = { s.port with buf := h, setupst := b, shift := sh, bits := n, phase := ph } := by
  unfold State.takeBit
  split
  · exact ⟨_, _, _, _, _, rfl⟩
  · split
    · dsimp only
      split
      · obtain ⟨h, b, e⟩ := s.enterSlot_port
        exact ⟨h, b, _, _, _, by rw [State.onPort_port, e]⟩
      · exact ⟨_, _, _, _, _, rfl⟩
    · exact ⟨_, _, _, _, _, rfl⟩

/-- Up to the bit that it takes, an edge of the bus leaves the pointer, PWR_SETUP and the value in force. -/
theorem State.sampleBit_keeps (s : State) :
    s.sampleBit.port.ptr = s.port.ptr ∧ s.sampleBit.port.setup = s.port.setup ∧ s.sampleBit.port.inForce = s.port.inForce := by
  unfold State.sampleBit
  dsimp only
  split
  · obtain ⟨h, b, sh, n, ph, e⟩ := s.sampleLines.takeBit_port s.sampleLines.port.sda.level
    rw [e]
    exact ⟨rfl, rfl, rfl⟩
  · exact ⟨rfl, rfl, rfl⟩

/-- A START or STOP ends the transaction: both lines are let go, the slot is dropped; the pointer and PWR_SETUP stay (R92, R103). -/
theorem State.startOrStop_port (s : State) :
    ∃ b, s.startOrStop.port = { s.port with
      buf := none, phase := .idle, cap := none, ack := false, bits := 0, atEnd := false, drive := none, sdaLow := false, hold := none
      setupst := b } := by
  obtain ⟨b, e⟩ := s.leaveSlot_port
  unfold State.startOrStop State.endTransaction
  dsimp only
  split
  · exact ⟨b ||| bitMask 0, by simp [State.setSetupst, e]⟩
  · exact ⟨b, by rw [State.onPort_port, e]⟩

/-! ### The value in force over one edge of the bus (R102) -/

@[simp] theorem State.stretch_inForce (s : State) : s.stretch.port.inForce = s.port.inForce := by
  unfold State.stretch; split <;> rfl

@[simp] theorem State.acknowledge_inForce (s : State) : s.acknowledge.port.inForce = s.port.inForce := by
  unfold State.acknowledge; simp

@[simp] theorem State.commitSlot_inForce (s : State) (k : BitVec 13) (v : Word) : (s.commitSlot k v).port.inForce = s.port.inForce := by
  obtain ⟨a, b, e⟩ := s.commitSlot_port k v
  rw [e]

@[simp] theorem State.writeByte_inForce (s : State) (b : Byte) : (s.writeByte b).port.inForce = s.port.inForce := by
  unfold State.writeByte
  dsimp only
  split <;> simp

@[simp] theorem State.capture_inForce (s : State) : s.capture.port.inForce = s.port.inForce := by
  unfold State.capture
  dsimp only
  split
  · split <;> rfl
  · rfl

@[simp] theorem State.sendByte_inForce (s : State) : s.sendByte.port.inForce = s.port.inForce := s.capture_inForce

@[simp] theorem State.byteEnd_inForce (s : State) : s.byteEnd.port.inForce = s.port.inForce := by
  unfold State.byteEnd
  dsimp only
  split
  · split <;> simp
  all_goals simp

@[simp] theorem State.ackEnd_inForce (s : State) : s.ackEnd.port.inForce = s.port.inForce := by
  unfold State.ackEnd
  dsimp only
  split
  · split <;> simp
  · rfl

/-- A falling edge of SCL, which may end a byte and commit a slot, leaves the value in force. -/
@[simp] theorem State.sclFall_inForce (s : State) : s.sclFall.port.inForce = s.port.inForce := by
  unfold State.sclFall
  dsimp only
  repeat' split
  all_goals simp

/-- A breach of R99 leaves the registers of the port. -/
theorem State.timed_keeps (s : State) (b : Bool) : (s.timed b).port.setup = s.port.setup ∧ (s.timed b).port.inForce = s.port.inForce := by
  unfold State.timed State.scramble
  dsimp only
  repeat' split
  all_goals exact ⟨rfl, rfl⟩

@[simp] theorem State.timed_setup (s : State) (b : Bool) : (s.timed b).port.setup = s.port.setup := (s.timed_keeps b).1
@[simp] theorem State.timed_inForce (s : State) (b : Bool) : (s.timed b).port.inForce = s.port.inForce := (s.timed_keeps b).2

@[simp] theorem State.startMet_inForce (s : State) : s.startMet.port.inForce = s.port.inForce := by
  unfold State.startMet
  dsimp only
  obtain ⟨b, e⟩ := (s.timed (s.port.phase.takesPart && s.port.setupShort s.now)).startOrStop_port
  rw [State.onPort_port, e]
  simp

/-- A recognised STOP puts PWR_SETUP in force (R102). -/
theorem State.stopMet_port (s : State) : s.stopMet.port.inForce = s.port.setup ∧ s.stopMet.port.setup = s.port.setup := by
  unfold State.stopMet State.stopSeen
  dsimp only
  obtain ⟨b, e⟩ := (s.timed (s.port.phase.takesPart && s.port.setupShort s.now)).startOrStop_port
  simp only [State.onPort_port]
  rw [e]
  simp

/-- What an edge of the bus recognises puts PWR_SETUP in force if it is a STOP, and only then. -/
theorem State.recognise_inForce (s : State) (c d : Bool) :
    (s.recognise c d).port.inForce =
      if c && s.port.scl.level && !d && s.port.sda2 then s.port.setup else s.port.inForce := by
  unfold State.recognise
  cases c <;> cases s.port.scl.level <;> cases d <;> cases s.port.sda2 <;> simp [s.stopMet_port]

theorem State.sampleBus_inForce (w : State) :
    w.sampleBus.port.inForce = if w.answering && Safety.stopSeen w w.sampleBit then w.port.setup else w.port.inForce := by
  obtain ⟨-, hset, hforce⟩ := w.sampleBit_keeps
  unfold State.sampleBus
  cases ha : w.answering with
  | false => cases w.ticking <;> rfl
  | true => simp [State.answering_ticking ha, State.recognise_inForce, Safety.stopSeen, hset, hforce]

/-- The edge that recognises a STOP leaves PWR_SETUP itself. -/
theorem State.sampleBus_stop_port (w : State) (ha : w.answering = true) (hs : Safety.stopSeen w w.sampleBit = true) :
    w.sampleBus.port.inForce = w.port.setup ∧ w.sampleBus.port.setup = w.port.setup := by
  obtain ⟨-, hset, -⟩ := w.sampleBit_keeps
  obtain ⟨hforce', hset'⟩ := w.sampleBit.stopMet_port
  simp only [Safety.stopSeen, Bool.and_eq_true, Bool.not_eq_true'] at hs
  obtain ⟨⟨⟨hc, hc'⟩, hd⟩, hd'⟩ := hs
  have e : w.sampleBus = w.sampleBit.stopMet := by
    simp [State.sampleBus, State.answering_ticking ha, ha, State.recognise, hc, hc', hd, hd']
  rw [e]
  exact ⟨hforce'.trans hset, hset'.trans hset⟩

/-! ### A command of one pair of levels -/

/-- A command of the set-up bus with one pair of levels is one edge of the bus, settled. -/
theorem event_runBus_one {s w : State} {dt : Nat} {c d : Bool} (hw : w = (s.arrive dt).busEdge.setPins c d) (ha : w.answering = true) :
    event dt (fun s => s.runBus [(c, d)]) s = .next w.sampleBus.markSampled.settle := by
  have ht : (s.arrive dt).ticking = true := by
    have := State.answering_ticking ha
    rwa [hw, State.setPins_ticking, State.busEdge_ticking] at this
  rw [event_next, State.runBus_one _ c d ht, hw]

@[simp] theorem State.markSampled_port (s : State) : s.markSampled.port = s.port := rfl

/-! ### The end of a byte (R84, R87, R90) -/

/-- A falling edge of SCL after eight bits, in a transaction that the engine takes part in, ends the byte. -/
theorem State.sclFall_byteEnd (s : State) (hp : s.port.phase.takesPart = true) (hb : s.port.bits = 8) :
    s.sclFall = (s.onPort fun p => { p with atEnd := p.atEnd && p.bits == 0 }).byteEnd := by
  simp [State.sclFall, hp, hb]

/-- An acknowledged byte: SDA is pulled low from the next edge on; of the port nothing else changes but the stretch (R86, R100). -/
theorem State.acknowledge_eq (s : State) :
    ∃ k, s.acknowledge = s.onPort fun p => { p with ack := true, drive := some true, hold := k } := by
  unfold State.acknowledge State.stretch
  split
  · exact ⟨_, rfl⟩
  · exact ⟨s.port.hold, rfl⟩

/-- The pointer after a data byte of a write, whether it commits its slot or not (R90). -/
theorem State.writeByte_ptr (s : State) (b : Byte) : (s.writeByte b).port.ptr = pageNext s.port.ptr := by
  unfold State.writeByte
  dsimp only
  obtain ⟨k, e⟩ := State.acknowledge_eq (s.onPort fun p => { p with
    buf := some ((s.port.buf.getD ⟨slotOf s.port.ptr, 0, false, []⟩).feed (s.port.ptr.toNat % 8) b).1, ptr := pageNext p.ptr })
  rw [e]
  split
  · generalize slotWord _ = v
    obtain ⟨x, y, e'⟩ := State.commitSlot_port _ (slotOf s.port.ptr) v
    rw [e']; rfl
  · rfl

/-- R90 in bits: the low five increment modulo 32, the others stay. -/
theorem pageNext_extract (p : BitVec 16) :
    (pageNext p).extractLsb' 0 5 = p.extractLsb' 0 5 + 1 ∧ (pageNext p).extractLsb' 5 11 = p.extractLsb' 5 11 := by
  unfold pageNext
  constructor
  · exact BitVec.extractLsb'_append_eq_right
  · exact BitVec.extractLsb'_append_eq_left

/-- The falling edge that ends a byte in time: of the state on which the byte is met only the port has moved, and there neither the pointer,
nor the bits, nor the position. -/
theorem State.sampleBus_byteEnd (w : State) (ha : w.answering = true) (ht : inTime w w.sampleBit = true)
    (hf : sclFalls w w.sampleBit = true) (hp : w.sampleBit.port.phase.takesPart = true) (hb : w.sampleBit.port.bits = 8) :
    ∃ q, w.sampleBus = ({ w with port := q } : State).byteEnd ∧ q.ptr = w.port.ptr ∧ q.shift = w.sampleBit.port.shift ∧
      q.phase = w.sampleBit.port.phase ∧ q.ack = w.sampleBit.port.ack := by
  obtain ⟨p, e, -, hptr, -⟩ := w.sampleBit_byte (by omega)
  have hfall := (w.sampleBus_fall ha hf ht).trans (State.sclFall_byteEnd _ hp hb)
  rw [e] at hfall
  rw [e]
  exact ⟨_, hfall, hptr, rfl, rfl, rfl⟩

/-- The end of the high byte of the pointer: it waits for the low one (R87). -/
theorem State.byteEnd_ptrHigh (s : State) (h : s.port.phase = .ptrHigh) :
    ∃ k, s.byteEnd = s.onPort fun p => { p with phase := .ptrLow p.shift, ack := true, drive := some true, hold := k } := by
  simp only [State.byteEnd, h]
  exact State.acknowledge_eq _

/-- The end of the low byte of the pointer: the pointer is set (R87). -/
theorem State.byteEnd_ptrLow (s : State) {hi : Byte} (h : s.port.phase = .ptrLow hi) :
    ∃ k, s.byteEnd = s.onPort fun p =>
      { p with phase := .write, ptr := hi ++ p.shift, ack := true, drive := some true, hold := k } := by
  simp only [State.byteEnd, h]
  exact State.acknowledge_eq _

/-- The end of a data byte of a write (R90). -/
theorem State.byteEnd_write (s : State) (h : s.port.phase = .write) : s.byteEnd = s.writeByte s.port.shift := by
  simp only [State.byteEnd, h]

/-- The end of an address byte that names this engine (R84). -/
theorem State.byteEnd_match (s : State) (h : s.port.phase = .address) (hm : s.port.shift.extractLsb' 1 7 = s.pw.addr) :
    ∃ k, s.byteEnd = s.onPort fun p =>
      { p with phase := if p.shift.getLsbD 0 then .read else .ptrHigh, ack := true, drive := some true, hold := k } := by
  simp only [State.byteEnd, h, hm, if_true]
  exact State.acknowledge_eq _

/-- The end of an address byte that names another engine (R84). -/
theorem State.byteEnd_mismatch (s : State) (h : s.port.phase = .address) (hm : s.port.shift.extractLsb' 1 7 ≠ s.pw.addr) :
    s.byteEnd = s.onPort fun p => { p with phase := .away, drive := some false } := by
  simp only [State.byteEnd, h, hm, if_false]

/-- A recognised START or STOP leaves the pointer (R87). -/
theorem State.sampleBus_startOrStop_ptr (w : State) (ha : w.answering = true) (ht : inTime w w.sampleBit = true)
    (h : Safety.startSeen w w.sampleBit = true ∨ Safety.stopSeen w w.sampleBit = true) : w.sampleBus.port.ptr = w.port.ptr := by
  obtain ⟨b, e⟩ := w.sampleBit.startOrStop_port
  obtain ⟨hptr, -, -⟩ := w.sampleBit_keeps
  rw [← hptr]
  rcases h with h | h
  · rw [w.sampleBus_start ha h ht, State.onPort_port, e]
  · rw [w.sampleBus_stop ha h ht, State.onPort_port, State.stopSeen, State.onPort_port, e]

/-- Settles O12: the falling edge that ends a byte is `sampleBus_byteEnd`, and each position of the byte has its own equation. -/
theorem pointerBytes : Obligations.PointerBytes := by
  unfold Obligations.PointerBytes
  rintro s w _ dt c d hw ha rfl ht
  have hrun := event_runBus_one hw ha
  refine ⟨fun hf hb => ⟨fun hp => ?_, fun hi hp => ?_, fun hp => ?_⟩, fun h => ?_⟩
  · obtain ⟨q, e, hptr, hshift, hphase, -⟩ := w.sampleBus_byteEnd ha ht hf (by rw [hp]; rfl) hb
    obtain ⟨k, e'⟩ := State.byteEnd_ptrHigh { w with port := q } (hphase.trans hp)
    rw [e, e'] at hrun
    exact ⟨_, hrun, hptr, congrArg PortPhase.ptrLow hshift, rfl, rfl⟩
  · obtain ⟨q, e, -, hshift, hphase, -⟩ := w.sampleBus_byteEnd ha ht hf (by rw [hp]; rfl) hb
    obtain ⟨k, e'⟩ := State.byteEnd_ptrLow { w with port := q } (hphase.trans hp)
    rw [e, e'] at hrun
    refine ⟨_, hrun, ?_, rfl, rfl, rfl⟩
    show (hi ++ q.shift).toNat = _
    rw [hshift, BitVec.toNat_append, ← Nat.shiftLeft_add_eq_or_of_lt w.sampleBit.port.shift.isLt, Nat.shiftLeft_eq, Nat.mul_comm]
  · obtain ⟨q, e, hptr, -, hphase, -⟩ := w.sampleBus_byteEnd ha ht hf (by rw [hp]; rfl) hb
    have hnext : w.sampleBus.port.ptr = pageNext w.port.ptr := by
      rw [e, State.byteEnd_write { w with port := q } (hphase.trans hp), State.writeByte_ptr]
      exact congrArg pageNext hptr
    refine ⟨_, hrun, hrun, ?_⟩
    simp only [State.settle_port, State.markSampled_port, hnext]
    exact pageNext_extract w.port.ptr
  · exact ⟨_, hrun, hrun, by simpa using w.sampleBus_startOrStop_ptr ha ht h⟩

/-! ### The address byte (R84) -/

/-- A bit moves in at the low end of a byte. -/
theorem shiftIn_toNat (x : Byte) (b : Bool) : (x <<< 1 ||| (BitVec.ofBool b).setWidth 8).toNat = 2 * x.toNat % 256 + b.toNat := by
  have hx : 2 * x.toNat % 256 = (x.toNat % 128) <<< 1 := by rw [Nat.shiftLeft_eq]; omega
  have hb : b.toNat < 2 ^ 1 := b.toNat_lt
  rw [BitVec.toNat_or, BitVec.toNat_shiftLeft, BitVec.toNat_setWidth, BitVec.toNat_ofBool, hx, Nat.shiftLeft_add_eq_or_of_lt hb,
    ← hx, Nat.shiftLeft_eq, Nat.mul_comm, Nat.mod_eq_of_lt (by omega : b.toNat < 2 ^ 8)]

/-- A bit of a byte is taken (R98). -/
theorem State.takeBit_shift (s : State) (x : Bool) (hp : s.port.phase.takesPart = true) (hb : s.port.bits < 8) :
    (s.takeBit x).port.bits = s.port.bits + 1 ∧ (s.takeBit x).port.shift.toNat = 2 * s.port.shift.toNat % 256 + x.toNat := by
  obtain ⟨h, b, e⟩ := s.enterSlot_port
  rw [← shiftIn_toNat]
  simp only [State.takeBit, hp, hb, Bool.not_true, Bool.false_eq_true, if_false, if_true]
  split
  · rw [State.onPort_port, e]; exact ⟨rfl, rfl⟩
  · exact ⟨rfl, rfl⟩

/-- The byte after a START is the address byte, of which no bit has come (R84). -/
theorem State.sampleBus_start_port (w : State) (ha : w.answering = true) (ht : inTime w w.sampleBit = true)
    (hs : Safety.startSeen w w.sampleBit = true) :
    ∃ p, w.sampleBus.port = p ∧ p.phase = .address ∧ p.bits = 0 ∧ p.shift = 0 ∧ p.ack = false ∧ p.sdaLow = false ∧
      p.ptr = w.port.ptr ∧ p.buf = none ∧ p.cap = none ∧ p.broken = false := by
  obtain ⟨b, e⟩ := w.sampleBit.startOrStop_port
  obtain ⟨hptr, -, -⟩ := w.sampleBit_keeps
  rw [w.sampleBus_start ha hs ht, State.onPort_port, e]
  exact ⟨_, rfl, rfl, rfl, rfl, rfl, rfl, hptr, rfl, rfl, rfl⟩

/-- Outside a transaction of this engine no bit is taken. -/
theorem State.sampleBit_away (w : State) (hp : w.port.phase = .away) : w.sampleBit = w.sampleLines := by
  have hp' : w.sampleLines.port.phase = .away := hp
  unfold State.sampleBit State.takeBit
  simp [hp', PortPhase.takesPart]

/-- Where this engine takes no part, no edge is too soon for it. -/
theorem State.timed_away (s : State) (b : Bool) (hp : s.port.phase = .away) (hk : s.port.broken = false) : s.timed b = s :=
  s.timed_same b hk (by rw [hp]; rfl)

/-- A falling edge of SCL in the transaction of another engine. -/
theorem State.sclFall_away (s : State) (hp : s.port.phase = .away) : s.sclFall = s := by
  simp [State.sclFall, hp, PortPhase.takesPart]

/-- In the transaction of another engine an edge of SCL is noted with its time and does nothing else (R84). -/
theorem State.sampleBus_away (w : State) (ha : w.answering = true) (hp : w.port.phase = .away) (hk : w.port.broken = false)
    (hs : Safety.startSeen w w.sampleBit = false) (ho : Safety.stopSeen w w.sampleBit = false) :
    ∃ a f, w.sampleBus = w.sampleLines.onPort fun p => { p with rose := sclRises w w.sampleLines, sclAt := a, fallAt := f } := by
  rw [w.sampleBit_away hp] at hs ho
  have hp' : w.sampleLines.port.phase = .away := hp
  have hk' : w.sampleLines.port.broken = false := hk
  have hrose : w.sampleLines.port.rose = false := rfl
  have hbus : w.sampleBus = w.sampleLines.recognise w.port.scl.level w.port.sda2 := by
    simp [State.sampleBus, State.answering_ticking ha, ha, w.sampleBit_away hp]
  rw [hbus]
  simp only [Safety.startSeen, Safety.stopSeen] at hs ho
  unfold State.recognise sclRises
  simp only [State.timed_away _ _ hp' hk']
  generalize w.port.scl.level = c at *
  generalize w.port.sda2 = d at *
  cases hc : w.sampleLines.port.scl.level <;> cases c <;> simp only [hc] at hs ho ⊢
  · exact ⟨w.sampleLines.port.sclAt, w.sampleLines.port.fallAt, rfl⟩
  · exact ⟨_, _, State.sclFall_away _ hp'⟩
  · exact ⟨_, _, rfl⟩
  · refine ⟨w.sampleLines.port.sclAt, w.sampleLines.port.fallAt, ?_⟩
    simp only [Bool.true_and, Bool.and_self] at hs ho
    simp [hs, ho]
    rfl

/-- Settles O11: the START is `sampleBus_start_port`, the end of the address byte `sampleBus_byteEnd` with its two outcomes, the bits
`takeBit_shift`, the bus after a mismatch `sampleBus_away`. -/
theorem startByteIsAddress : Obligations.StartByteIsAddress := by
  unfold Obligations.StartByteIsAddress
  refine ⟨?_, fun w hp hr hb => ?_, fun w => w.sampleBus_away⟩
  · rintro s w _ dt c d hw ha rfl ht
    have hrun := event_runBus_one hw ha
    refine ⟨fun hs => ?_, fun hf hp hb => ?_⟩
    · obtain ⟨p, e, hport⟩ := w.sampleBus_start_port ha ht hs
      refine ⟨_, hrun, ?_⟩
      rw [State.settle_port, State.markSampled_port, e]
      exact hport
    · obtain ⟨q, e, hptr, hshift, hphase, hack⟩ := w.sampleBus_byteEnd ha ht hf (by rw [hp]; rfl) hb
      refine ⟨_, hrun, ?_⟩
      rw [State.settle_port, State.markSampled_port, e, ← hshift, ← hack]
      by_cases hm : q.shift.extractLsb' 1 7 = w.pw.addr
      · obtain ⟨k, e'⟩ := State.byteEnd_match { w with port := q } (hphase.trans hp) hm
        rw [e']
        exact ⟨hptr, fun _ => ⟨rfl, rfl, rfl⟩, fun h => absurd hm h⟩
      · rw [State.byteEnd_mismatch { w with port := q } (hphase.trans hp) hm]
        exact ⟨hptr, fun h => absurd h hm, fun _ => ⟨rfl, rfl, rfl⟩⟩
  · simp only [State.sampleBit, hr, if_true]
    exact w.sampleLines.takeBit_shift _ hp hb

end Sys2Proof.Machine

/-! SUPPORT. Away from the bus no command but a reset and clock loss touches the set-up port. The proof of O10 (R102). -/

namespace Sys2Proof.Machine

open Sys2Proof.Safety

/-! ### Commands away from the bus -/

/-- A command leaves the set-up port of every state whose bus rests. -/
def KeepsPort (f : State → Host.Outcome State Fault Refusal) : Prop :=
  ∀ s t : State, s.port.resting = true → f s = .next t → t.port = s.port

/-- A command whose body keeps the port of every state whose bus rests. -/
theorem keepsPort_event {dt : Nat} {body : State → State} (hb : ∀ x : State, x.port.resting = true → (body x).port = x.port) :
    KeepsPort (event dt body) := by
  intro s t hr h
  have ha : (s.arrive dt).port = s.port := s.arrive_port dt hr
  rw [next_of_event h, State.settle_port, hb _ (by rw [ha]; exact hr), ha]

/-- The same of a body that keeps all that the host makes. -/
theorem keepsPort_event_of_kept {dt : Nat} {body : State → State} (hb : ∀ x : State, x.port.resting = true → (body x).kept = x.kept) :
    KeepsPort (event dt body) :=
  keepsPort_event fun x hx => port_of_kept (hb x hx)

@[simp] theorem State.barGo_kept (s : State) : s.barGo.kept = s.kept := by
  unfold State.barGo
  split
  · simp only [State.kept, Vector.map_map]
    rfl
  · rfl

/-! #### Clocking, test access port -/

/-- Where HCK runs and nothing holds the core, its first clocking begins; the port of a resting bus does not see it. -/
theorem State.clockingBegins_port (s : State) (h : s.port.resting = true) : (if s.ticking then s.firstEdge else s).port = s.port := by
  split
  · exact port_of_kept (s.firstEdge_kept h)
  · rfl

theorem execPorRelease_keepsPort (dt : Nat) : KeepsPort (execPorRelease dt) := by
  unfold execPorRelease
  refine keepsPort_event fun x hx => ?_
  dsimp only
  split
  · exact State.clockingBegins_port _ hx
  · rfl

theorem execRstnRelease_keepsPort (dt : Nat) : KeepsPort (execRstnRelease dt) := by
  unfold execRstnRelease
  refine keepsPort_event fun x hx => ?_
  dsimp only
  split
  · rfl
  · exact State.clockingBegins_port _ hx

theorem execHckStart_keepsPort (dt : Nat) : KeepsPort (execHckStart dt) := by
  unfold execHckStart
  refine keepsPort_event fun x hx => ?_
  dsimp only
  split
  · rfl
  · exact State.clockingBegins_port _ hx

/-- An instruction without test mode resets nothing; at most the core starts (R371). -/
theorem State.loadIr_port (s : State) (c : TapCtl) {op : BitVec 4} (ho : testMode op = false) (h : s.port.resting = true) :
    (s.loadIr c op).port = s.port := by
  unfold State.loadIr
  dsimp only
  rw [ho]
  by_cases hpor : s.pw.por = true
  · rw [if_pos hpor]
  · rw [if_neg hpor, if_neg Bool.false_ne_true]
    by_cases hwas : testMode s.tap.ir = true
    · rw [if_pos hwas]
      exact State.clockingBegins_port _ h
    · rw [if_neg hwas]

theorem State.updateIr_port (s : State) (tms : List Bool) {op : BitVec 4} (ho : testMode op = false) (h : s.port.resting = true) :
    (s.updateIr tms op).port = s.port := by
  unfold State.updateIr
  split
  · exact s.loadIr_port _ ho h
  · rfl

@[simp] theorem State.onTap_port (s : State) (c : TapCtl) (tms : List Bool) (f : Tap → Tap) : (s.onTap c tms f).port = s.port := by
  unfold State.onTap
  split
  · rfl
  · split <;> rfl

/-- The opcodes of the test-mode instructions are listed (Table 18.1). -/
theorem testMode_bypass (op : BitVec 4) : testMode (if listedOpcode op then 0xF else op) = false := by
  revert op; decide

theorem execTestLogicReset_keepsPort (dt : Nat) : KeepsPort (execTestLogicReset dt) := by
  unfold execTestLogicReset
  exact keepsPort_event fun x hx => x.loadIr_port _ (by decide) hx

theorem execSamplePreload_keepsPort (tap : TapSpan) : KeepsPort (execSamplePreload tap) := by
  unfold execSamplePreload
  exact keepsPort_event fun x hx => x.updateIr_port _ (by decide) hx

theorem execIdcode_keepsPort (tap : TapSpan) : KeepsPort (execIdcode tap) := by
  unfold execIdcode
  exact keepsPort_event fun x hx => x.updateIr_port _ (by decide) hx

theorem execBypass_keepsPort (tap : TapSpan) (op : BitVec 4) : KeepsPort (execBypass tap op) := by
  unfold execBypass
  exact keepsPort_event fun x hx => x.updateIr_port _ (testMode_bypass op) hx

theorem execCaptureDr_keepsPort (tap : TapSpan) (pins : BitVec 44) (observe : Observation) :
    KeepsPort (execCaptureDr tap pins observe) := by
  unfold execCaptureDr
  refine keepsPort_event fun x _ => ?_
  simp [State.captureDr]

theorem execUpdateDr_keepsPort (tap : TapSpan) : KeepsPort (execUpdateDr tap) := by
  unfold execUpdateDr
  exact keepsPort_event fun x _ => x.onTap_port _ _ _

theorem execTapShift_keepsPort (tap : TapSpan) (ir tdi : Bool) : KeepsPort (execTapShift tap ir tdi) := by
  unfold execTapShift
  refine keepsPort_event fun x _ => ?_
  dsimp only
  generalize (if ir then TapCtl.shiftIr else TapCtl.shiftDr) = c
  split
  · unfold State.enterShift; split <;> rfl
  · exact x.onTap_port _ _ _

theorem execCaptureIr_keepsPort (tap : TapSpan) : KeepsPort (execCaptureIr tap) := by
  unfold execCaptureIr
  exact keepsPort_event fun x _ => x.onTap_port _ _ _

/-! #### Admission, intent -/

@[simp] theorem State.finishEntry_port (s : State) (n : RingNo) (i : BitVec 16) : (s.finishEntry n i).port = s.port :=
  port_of_kept (s.finishEntry_kept n i)
@[simp] theorem State.requestIntent_port (s : State) (n : RingNo) (i : BitVec 16) (u : Update) : (s.requestIntent n i u).port = s.port :=
  port_of_kept (s.requestIntent_kept n i u)
@[simp] theorem State.finishPark_port (s : State) (n : RingNo) (i : BitVec 16) : (s.finishPark n i).port = s.port :=
  port_of_kept (s.finishPark_kept n i)
@[simp] theorem State.takeEntry_port (s : State) (n : RingNo) : (s.takeEntry n).port = s.port := port_of_kept (s.takeEntry_kept n)

@[simp] theorem State.admitUpdate_port (s : State) (n : RingNo) (f : Fetched) : (s.admitUpdate n f).port = s.port := by
  unfold State.admitUpdate
  dsimp only
  split <;> rfl

@[simp] theorem State.admitCfg_port (s : State) (n : RingNo) (f : Fetched) : (s.admitCfg n f).port = s.port := by
  unfold State.admitCfg
  simp only [State.onRing_port, State.commit_port]
  rw [foldl_port _ fun s p => by split <;> simp]

/-- An admission row whose body keeps the port. -/
theorem keepsPort_admitRow {dt : Nat} {n : RingNo} {ok : Fetched → Bool} {body : Fetched → State → State}
    (hb : ∀ f x, (body f x).port = x.port) : KeepsPort (admitRow dt n ok body) := by
  unfold admitRow
  refine keepsPort_event fun x hx => ?_
  have hnext : (if x.edge.noAdmit.getLsbD n.val || x.edge.admitted then x.elapse 1 else x).port = x.port := by
    split <;> simp [hx]
  dsimp only
  split
  · rfl
  · generalize (if x.edge.noAdmit.getLsbD n.val || x.edge.admitted then x.elapse 1 else x) = y at hnext ⊢
    split
    · split
      · rw [hb, State.takeEntry_port]
        split <;> exact hnext
      · exact hnext
    · exact hnext

theorem execUpdate_keepsPort (dt : Nat) (ring : RingNo) : KeepsPort (execUpdate dt ring) := by
  unfold execUpdate
  exact keepsPort_admitRow fun f x => x.admitUpdate_port ring f

theorem execClear_keepsPort (dt : Nat) (ring : RingNo) : KeepsPort (execClear dt ring) := by
  unfold execClear
  exact keepsPort_admitRow fun f x => x.admitUpdate_port ring f

theorem execCfg_keepsPort (dt : Nat) (ring : RingNo) : KeepsPort (execCfg dt ring) := by
  unfold execCfg
  exact keepsPort_admitRow fun f x => x.admitCfg_port ring f

theorem execTemp_keepsPort (dt : Nat) (ring : RingNo) : KeepsPort (execTemp dt ring) := by
  unfold execTemp
  refine keepsPort_admitRow fun f x => ?_
  simp

theorem execSync_keepsPort (dt : Nat) (ring : RingNo) : KeepsPort (execSync dt ring) := by
  unfold execSync
  refine keepsPort_admitRow fun f x => ?_
  simp

theorem execPark_keepsPort (dt : Nat) (ring : RingNo) : KeepsPort (execPark dt ring) := by
  unfold execPark
  refine keepsPort_admitRow fun f x => ?_
  split
  · rfl
  · exact x.finishPark_port ring f.index

theorem execMark_keepsPort (dt : Nat) (ring : RingNo) : KeepsPort (execMark dt ring) := by
  unfold execMark
  refine keepsPort_admitRow fun f x => ?_
  simp

theorem execNop_keepsPort (dt : Nat) (ring : RingNo) : KeepsPort (execNop dt ring) := by
  unfold execNop
  refine keepsPort_admitRow fun f x => ?_
  dsimp only; split <;> simp

theorem execIntentWrite_keepsPort (dt : Nat) (ring : RingNo) : KeepsPort (execIntentWrite dt ring) := by
  unfold execIntentWrite
  refine keepsPort_event fun x _ => ?_
  repeat' split
  all_goals simp

/-! #### Memory port -/

@[simp] theorem State.completeUpdate_port (s : State) (n : RingNo) (i : BitVec 16) : (s.completeUpdate n i).port = s.port :=
  port_of_kept (s.completeUpdate_kept n i)
@[simp] theorem State.onUpdate_port (s : State) (n : RingNo) (f : Update → Update) : (s.onUpdate n f).port = s.port :=
  port_of_kept (s.onUpdate_kept n f)
@[simp] theorem State.onReplaySlot_port (s : State) (f : ReplaySlot → ReplaySlot) : (s.onReplaySlot f).port = s.port := rfl
@[simp] theorem State.tombstone_port (s : State) (q : Nat) : (s.tombstone q).port = s.port := port_of_kept (s.tombstone_kept q)
@[simp] theorem State.replayNext_port (s : State) (b : Bool) : (s.replayNext b).port = s.port := port_of_kept (s.replayNext_kept b)
@[simp] theorem State.log_port (s : State) (c d : Nat) (n : RingNo) (i : Nat) : (s.log_ c d n i).port = s.port :=
  port_of_kept (s.log_kept c d n i)
@[simp] theorem State.gotEntry_port (s : State) (n : RingNo) (e : Entry) (bs : List Byte) : (s.gotEntry n e bs).port = s.port :=
  port_of_kept (s.gotEntry_kept n e bs)
@[simp] theorem State.scanEnd_port (s : State) (c : Scan) : (s.scanEnd c).port = s.port := port_of_kept (s.scanEnd_kept c)
@[simp] theorem State.writeDone_port (s : State) (a : Access) : (s.writeDone a).port = s.port := port_of_kept (s.writeDone_kept a)
@[simp] theorem State.takeRequest_port (s : State) (a : Access) : (s.takeRequest a).port = s.port := port_of_kept (s.takeRequest_kept a)
@[simp] theorem State.memFailure_port (s : State) (c w d : Nat) (b : Bool) (a : Access) : (s.memFailure c w d b a).port = s.port :=
  port_of_kept (s.memFailure_kept c w d b a)
@[simp] theorem State.txnFails_port (s : State) (o : OpenAccess) (x : Txn) (c : Nat) : (s.txnFails o x c).port = s.port :=
  port_of_kept (s.txnFails_kept o x c)
@[simp] theorem State.beginTxn_port (s : State) (o : OpenAccess) (k : TxKind) (f : Nat) : (s.beginTxn o k f).port = s.port := rfl
@[simp] theorem State.beginPiece_port (s : State) (o : OpenAccess) : (s.beginPiece o).port = s.port := rfl
@[simp] theorem State.freePort_port (s : State) : s.freePort.port = s.port := rfl
@[simp] theorem State.riseNow_port (s : State) : s.riseNow.port = s.port := rfl

@[simp] theorem State.gotTail_port (s : State) (n : RingNo) (bs : List Byte) : (s.gotTail n bs).port = s.port := by
  unfold State.gotTail
  dsimp only
  split <;> rfl

@[simp] theorem State.gotProbe_port (s : State) (n : RingNo) (bs : List Byte) : (s.gotProbe n bs).port = s.port := by
  unfold State.gotProbe
  dsimp only
  split
  · split <;> rfl
  · rfl

@[simp] theorem State.readsDone_port (s : State) (n : RingNo) : (s.readsDone n).port = s.port := by
  unfold State.readsDone
  dsimp only
  repeat' split
  all_goals simp

@[simp] theorem State.gotUpdateRead_port (s : State) (n : RingNo) (f : Update → Update) : (s.gotUpdateRead n f).port = s.port := by
  unfold State.gotUpdateRead; simp

@[simp] theorem State.gotAhead_port (s : State) (n : RingNo) (i : BitVec 16) (f : Fetched → Fetched) (g : Update → Update) :
    (s.gotAhead n i f g).port = s.port := by
  unfold State.gotAhead
  dsimp only
  repeat' split
  all_goals simp

@[simp] theorem State.gotReplayRead_port (s : State) (f : ReplaySlot → ReplaySlot) : (s.gotReplayRead f).port = s.port := by
  unfold State.gotReplayRead
  dsimp only
  repeat' split
  all_goals simp

@[simp] theorem State.gotReplayIntent_port (s : State) (q : Nat) (bs : List Byte) : (s.gotReplayIntent q bs).port = s.port := by
  unfold State.gotReplayIntent
  dsimp only
  repeat' split
  all_goals simp

@[simp] theorem State.readDone_port (s : State) (o : OpenAccess) (bs : List Byte) : (s.readDone o bs).port = s.port := by
  unfold State.readDone
  dsimp only
  repeat' split
  all_goals simp

@[simp] theorem State.startAccess_port (s : State) (a : Access) : (s.startAccess a).port = s.port := by
  unfold State.startAccess
  dsimp only
  repeat' split
  all_goals simp

@[simp] theorem State.arbitrate_port (s : State) : s.arbitrate.port = s.port := by
  unfold State.arbitrate
  dsimp only
  repeat' split
  all_goals simp

@[simp] theorem State.pieceDone_port (s : State) (o : OpenAccess) (k : Nat) (bs : List Byte) : (s.pieceDone o k bs).port = s.port := by
  unfold State.pieceDone
  dsimp only
  repeat' split
  all_goals simp

@[simp] theorem State.txnEnd_port (s : State) (o : OpenAccess) (x : Txn) (bs : List Byte) : (s.txnEnd o x bs).port = s.port := by
  unfold State.txnEnd
  dsimp only
  repeat' split
  all_goals simp

theorem State.abortTxn_port (s : State) (o : OpenAccess) (x : Txn) (c : Nat) (h : s.port.resting = true) :
    (s.abortTxn o x c).port = s.port := by
  unfold State.abortTxn
  simp [h]

theorem State.atEdge_port (s : State) (e : Nat) (f : OpenAccess → State → State) (h : s.port.resting = true)
    (hf : ∀ o x, x.port.resting = true → (f o x).port = x.port) : (s.atEdge e f).port = s.port := by
  have hw : (s.waitUntil e).port = s.port := s.waitUntil_port e h
  unfold State.atEdge
  dsimp only
  split
  · split
    · rw [hf _ _ (by rw [hw]; exact h), hw]
    · exact hw
  · exact hw

theorem State.endTxn_port (s : State) (o : OpenAccess) (x : Txn) (w : Nat) (bs : List Byte) (h : s.port.resting = true) :
    (s.endTxn o x w bs).port = s.port := by
  have habort : ∀ (e : Nat) (x : Txn) (c : Nat), (s.atEdge e fun o s => s.abortTxn o x c).port = s.port :=
    fun e x c => s.atEdge_port e _ h fun o y hy => y.abortTxn_port o x c hy
  have hend : ∀ (e : Nat) (x : Txn), (s.atEdge e fun o s => s.txnEnd o x bs).port = s.port :=
    fun e x => s.atEdge_port e _ h fun o y _ => y.txnEnd_port o x bs
  unfold State.endTxn
  dsimp only
  repeat' split
  all_goals simp only [habort, hend]

theorem State.runMrdy_port (s : State) (l : List Bool) (h : s.port.resting = true) : (s.runMrdy l).port = s.port :=
  port_of_kept (State.runMrdy_kept l s h)

theorem execMemArbitrate_keepsPort (dt : Nat) : KeepsPort (execMemArbitrate dt) := by
  unfold execMemArbitrate
  refine keepsPort_event fun x hx => ?_
  have hedge : (if x.edge.arbitrated then x.elapse 1 else x).port = x.port := by
    split <;> simp [hx]
  have hnext : (if x.mayArbitrate then (if x.edge.arbitrated then x.elapse 1 else x).waitUntil x.mem.rise else x).port = x.port := by
    rw [apply_ite State.port, State.waitUntil_port _ _ (by rw [hedge]; exact hx), hedge, ite_self]
  dsimp only
  rw [apply_ite State.port, State.arbitrate_port, ite_self, hnext]

theorem execMemTransactionEnd_keepsPort (dt : Nat) (delay : BusDelay) (bytes : List Byte) :
    KeepsPort (execMemTransactionEnd dt delay bytes) := by
  unfold execMemTransactionEnd
  refine keepsPort_event fun x hx => ?_
  have hm := x.runMrdy_port delay.mrdy hx
  dsimp only
  split
  · rfl
  · split
    · rw [State.endTxn_port _ _ _ _ _ (by rw [hm]; exact hx), hm]
    · exact hm

theorem execMrdyStretchTimeout_keepsPort (at_ : StretchSpan) : KeepsPort (execMrdyStretchTimeout at_) := by
  unfold execMrdyStretchTimeout
  refine keepsPort_event fun x hx => ?_
  have hm := x.runMrdy_port (at_.mrdy ++ [false]) hx
  have hr : (x.runMrdy (at_.mrdy ++ [false])).port.resting = true := by rw [hm]; exact hx
  dsimp only
  split
  · rfl
  · split
    · split
      · rw [State.atEdge_port _ _ _ hr fun o y hy => y.abortTxn_port o _ 1 hy, hm]
      · exact hm
    · exact hm

theorem execMdqsTimeout_keepsPort (at_ : StretchSpan) : KeepsPort (execMdqsTimeout at_) := by
  unfold execMdqsTimeout
  refine keepsPort_event fun x hx => ?_
  have hm := x.runMrdy_port at_.mrdy hx
  dsimp only
  split
  · rfl
  · split
    · split
      · rw [State.endTxn_port _ _ _ _ _ (by rw [hm]; exact hx), hm]
      · exact hm
    · exact hm

/-! #### All commands -/

/-- Away from the bus only resets and clock loss reach the set-up port. The engine's own events leave alone all that the host makes; the
other commands have their lemmas above. -/
theorem exec_keepsPort (c : Instr) (hp : isPort c = false) (hc : resetsCore c = false) (hl : ∀ dt, c ≠ .clockLoss dt) :
    KeepsPort (exec c) := by
  intro s t hr h
  cases c
  case i2cStart | slotCommit | readCapture | sclStretchRelease | i2cStop | framingAbort | i2cDataByte => cases hp
  case powerOnReset | rstnAssert | extest | clamp | highz | segtest => cases hc
  case clockLoss dt => exact absurd rfl (hl dt)
  case porRelease => exact execPorRelease_keepsPort _ s t hr h
  case rstnRelease => exact execRstnRelease_keepsPort _ s t hr h
  case hckStart => exact execHckStart_keepsPort _ s t hr h
  case testLogicReset => exact execTestLogicReset_keepsPort _ s t hr h
  case samplePreload => exact execSamplePreload_keepsPort _ s t hr h
  case idcode => exact execIdcode_keepsPort _ s t hr h
  case bypass => exact execBypass_keepsPort _ _ s t hr h
  case captureDr => exact execCaptureDr_keepsPort _ _ _ s t hr h
  case updateDr => exact execUpdateDr_keepsPort _ s t hr h
  case tapShift => exact execTapShift_keepsPort _ _ _ s t hr h
  case captureIr => exact execCaptureIr_keepsPort _ s t hr h
  case update => exact execUpdate_keepsPort _ _ s t hr h
  case clear => exact execClear_keepsPort _ _ s t hr h
  case cfg => exact execCfg_keepsPort _ _ s t hr h
  case temp => exact execTemp_keepsPort _ _ s t hr h
  case sync => exact execSync_keepsPort _ _ s t hr h
  case park => exact execPark_keepsPort _ _ s t hr h
  case mark => exact execMark_keepsPort _ _ s t hr h
  case nop => exact execNop_keepsPort _ _ s t hr h
  case intentWrite => exact execIntentWrite_keepsPort _ _ s t hr h
  case memArbitrate => exact execMemArbitrate_keepsPort _ s t hr h
  case memTransactionEnd => exact execMemTransactionEnd_keepsPort _ _ _ s t hr h
  case mrdyStretchTimeout => exact execMrdyStretchTimeout_keepsPort _ s t hr h
  case mdqsTimeout => exact execMdqsTimeout_keepsPort _ s t hr h
  case outputLimited | outputLimitRelease | outputFault | pairContention | dwellEnd | frameEnd | updateStart | barrierStart |
      barNRecognised | barrierTimeout | driveGroupApply | supplyGroupApply | windowGroupApply | pollTimerExpiry |
      strapFirstSample | strapSecondSample | addressLatch | wakeQualifierEnd | shutdownTrip | shutdownRelease | shutdownExit |
      uvloAssert | uvloRelease | resetDrainEnd | resetBusyEnd | sequencingStart | rampStart | rampStep | setPointSlewStep |
      railsInRegulation | rampTimeout | dischargeVcomStep | dischargeEnd | parkingExit | armedTimeout | heldExit | energyWrap |
      conversionResult | replayEnd | statusPoll =>
    simp only [exec, execOutputLimited, execOutputLimitRelease, execOutputFault, execPairContention, execDwellEnd, execFrameEnd,
      execUpdateStart, execBarrierStart, execBarNRecognised, execBarrierTimeout, execDriveGroupApply, execSupplyGroupApply,
      execWindowGroupApply, execPollTimerExpiry, execStrapFirstSample, execStrapSecondSample, execAddressLatch,
      execWakeQualifierEnd, execShutdownTrip, execShutdownRelease, execShutdownExit, execUvloAssert, execUvloRelease,
      execResetDrainEnd, execResetBusyEnd, execSequencingStart, execRampStart, execRampStep, execSetPointSlewStep,
      execRailsInRegulation, execRampTimeout, execDischargeVcomStep, execDischargeEnd, execParkingExit, execArmedTimeout,
      execHeldExit, execEnergyWrap, execConversionResult, execReplayEnd, execStatusPoll] at h
    refine (keepsPort_event_of_kept fun x hx => ?_) s t hr h
    (repeat' split) <;> simp [hx]

/-! ### Commands without bus levels (R102) -/

/-- Clock loss lets the bus go and keeps the pointer and the registers of the port (R42, R89, Table 2.9). -/
theorem execClockLoss_registers {dt : Nat} {s t : State} (hr : s.port.resting = true) (h : execClockLoss dt s = .next t) :
    t.port.ptr = s.port.ptr ∧ t.port.setup = s.port.setup ∧ t.port.inForce = s.port.inForce ∧ t.port.setupst = s.port.setupst := by
  have ha : (s.arrive dt).port = s.port := s.arrive_port dt hr
  have hclose : (s.arrive dt).closeEdge.port = s.port :=
    ((congrArg State.port ((s.arrive dt).closeEdge_resting (by rw [ha]; exact hr)) :) : _ = (s.arrive dt).port).trans ha
  have hcut : ∀ (x : State) (c : Cut), (x.cutPower c).port = x.port := fun x c => port_of_kept (x.cutPower_kept c)
  have hstop : ∀ (x : State) (c : Cut), (x.interruptAll c).port = x.port := fun x c => port_of_kept (x.interruptAll_kept c)
  rw [next_of_event h, State.settle_port]
  dsimp only
  split
  · simp [ha]
  · split
    · simp [hclose]
    · split <;> split <;> simp [hcut, hstop, State.dropBus, hclose]

@[simp] theorem State.barSeen_port (s : State) (b : Bool) : (s.barSeen b).port = s.port := by
  unfold State.barSeen; split <;> rfl

@[simp] theorem State.barLow_port (s : State) : s.barLow.port = s.port := by
  unfold State.barLow; split <;> rfl

/-- A command of the bus that brings no levels leaves the port of a resting bus. -/
theorem exec_keepsPort_of_no_levels (c : Instr) (hp : isPort c = true) (hl : busLines c = []) : KeepsPort (exec c) := by
  intro s t hr h
  have hrun : ∀ dt l, l = [] → KeepsPort (event dt fun x => x.runBus l) := fun dt l e => keepsPort_event fun x _ => by rw [e]; rfl
  cases c
  case i2cStart | slotCommit | i2cStop | framingAbort | i2cDataByte => exact hrun _ _ hl s t hr h
  case readCapture bus barIn =>
    simp only [exec, execReadCapture] at h
    have hl : bus.lines = [] := hl
    refine (keepsPort_event fun x _ => ?_) s t hr h
    rw [hl, State.runBus]
    split <;> simp
  case sclStretchRelease bus =>
    simp only [exec, execSclStretchRelease] at h
    have hl : bus.lines = [] := hl
    refine (keepsPort_event fun x hx => ?_) s t hr h
    rw [hl, State.runBus]
    split
    · split
      · exact x.waitUntil_port _ hx
      · rfl
    · rfl
  all_goals cases hp

/-- The value of PWR_SETUP in force is left by every command without bus levels, resets apart, while the bus rests (R102). -/
theorem exec_inForce {c : Instr} {s t : State} (hl : busLines c = []) (hc : resetsCore c = false) (hr : s.port.resting = true)
    (h : exec c s = .next t) : t.port.inForce = s.port.inForce := by
  cases hp : isPort c with
  | true => rw [exec_keepsPort_of_no_levels c hp hl s t hr h]
  | false =>
    by_cases hcl : ∃ dt, c = .clockLoss dt
    · obtain ⟨dt, rfl⟩ := hcl
      obtain ⟨-, -, hforce, -⟩ := execClockLoss_registers hr h
      exact hforce
    · rw [exec_keepsPort c hp hc (fun dt e => hcl ⟨dt, e⟩) s t hr h]

/-- Settles O10: the edges of the bus are `State.sampleBus_inForce`, the commands without levels `exec_inForce`. -/
theorem setupInForceAtStop : Obligations.SetupInForceAtStop := by
  unfold Obligations.SetupInForceAtStop
  refine ⟨fun s w dt c d hw ha hs => ?_, fun _ _ => rfl, State.sampleBus_inForce, fun c s t => exec_inForce⟩
  refine ⟨_, event_runBus_one hw ha, ?_⟩
  rw [State.settle_port, State.markSampled_port]
  exact w.sampleBus_stop_port ha hs

end Sys2Proof.Machine

/-! SUPPORT. The lock bits and the tile identifier over register writes, edges and commands: a set lock bit stays set, a written identifier
stays what it is. The proof of O17 (R120, Table 4.2). -/

namespace Sys2Proof.Machine

open Sys2Proof.Safety

/-! ### The registers that are written once -/

/-- ID_LOCK, and ID_TILE_ID with the mark of its write. -/
def State.setOnce (s : State) : BitVec 5 × BitVec 16 × Bool := (s.lock, s.tile, s.tileWritten)

/-- From s to t no lock bit has been cleared and no identifier that was written has changed (R120, Table 4.2). -/
def LocksLast (s t : State) : Prop :=
  s.lock &&& t.lock = s.lock ∧ (s.tileWritten = true → t.tileWritten = true ∧ t.tile = s.tile)

theorem LocksLast.of_setOnce {s t : State} (h : t.setOnce = s.setOnce) : LocksLast s t := by
  obtain ⟨hlock, htile, hwritten⟩ : t.lock = s.lock ∧ t.tile = s.tile ∧ t.tileWritten = s.tileWritten := by
    simpa [State.setOnce] using h
  exact ⟨by rw [hlock, BitVec.and_self], fun hw => ⟨hwritten.trans hw, htile⟩⟩

@[simp] theorem LocksLast.refl (s : State) : LocksLast s s := .of_setOnce rfl

theorem LocksLast.trans {a b c : State} (hab : LocksLast a b) (hbc : LocksLast b c) : LocksLast a c := by
  obtain ⟨hl, ht⟩ := hab
  obtain ⟨hl', ht'⟩ := hbc
  refine ⟨?_, fun hw => ?_⟩
  · calc a.lock &&& c.lock = a.lock &&& (b.lock &&& c.lock) := by rw [← BitVec.and_assoc, hl]
      _ = a.lock := by rw [hl', hl]
  · obtain ⟨hw', htile⟩ := ht hw
    obtain ⟨hw'', htile'⟩ := ht' hw'
    exact ⟨hw'', htile'.trans htile⟩

/-- What the engine's own working leaves alone includes the registers that are written once. -/
theorem setOnce_of_kept {s t : State} (h : t.kept = s.kept) : t.setOnce = s.setOnce := (congrArg State.setOnce h :)

theorem setOnce_of_settings {s t : State} (h : t.settings = s.settings) : t.setOnce = s.setOnce := (congrArg State.setOnce h :)

/-- `LocksLast` speaks of fields that `kept` keeps, so a body may be reduced under `kept` by the lemmas of its operations. -/
theorem locksLast_kept (s t : State) : LocksLast s.kept t.kept ↔ LocksLast s t := Iff.rfl

theorem foldl_setOnce {α : Type} (f : State → α → State) (h : ∀ s a, (f s a).setOnce = s.setOnce) (l : List α) (s : State) :
    (l.foldl f s).setOnce = s.setOnce := by
  induction l generalizing s with
  | nil => rfl
  | cons a l ih => rw [List.foldl_cons, ih, h]

@[simp] theorem State.onRing_setOnce (s : State) (n : RingNo) (f : Ring → Ring) : (s.onRing n f).setOnce = s.setOnce := rfl
@[simp] theorem State.onEdge_setOnce (s : State) (f : EdgeRec → EdgeRec) : (s.onEdge f).setOnce = s.setOnce := rfl
@[simp] theorem State.onSup_setOnce (s : State) (f : Supply → Supply) : (s.onSup f).setOnce = s.setOnce := rfl
@[simp] theorem State.onPw_setOnce (s : State) (f : Power → Power) : (s.onPw f).setOnce = s.setOnce := rfl
@[simp] theorem State.onJnl_setOnce (s : State) (f : Journal → Journal) : (s.onJnl f).setOnce = s.setOnce := rfl
@[simp] theorem State.onCnv_setOnce (s : State) (f : Convoy → Convoy) : (s.onCnv f).setOnce = s.setOnce := rfl
@[simp] theorem State.onDrv_setOnce (s : State) (f : Drive → Drive) : (s.onDrv f).setOnce = s.setOnce := rfl
@[simp] theorem State.onPort_setOnce (s : State) (f : SetupPort → SetupPort) : (s.onPort f).setOnce = s.setOnce := rfl
@[simp] theorem State.defer_setOnce (s : State) (d : Deferred) : (s.defer d).setOnce = s.setOnce := rfl
@[simp] theorem State.err_setOnce (s : State) (e : HostError) : (s.err e).setOnce = s.setOnce := rfl
@[simp] theorem State.setCause_setOnce (s : State) (m : Word) : (s.setCause m).setOnce = s.setOnce := rfl
@[simp] theorem State.setSetupst_setOnce (s : State) (m : Word) : (s.setSetupst m).setOnce = s.setOnce := rfl
@[simp] theorem State.scReads_setOnce (s : State) (w : Word) : (s.scReads w).setOnce = s.setOnce := rfl
@[simp] theorem State.commit_setOnce (s : State) (g : BitVec 4) (x : Staged) : (s.commit g x).setOnce = s.setOnce := rfl
@[simp] theorem State.settle_setOnce (s : State) : s.settle.setOnce = s.setOnce := setOnce_of_kept s.settle_kept
@[simp] theorem State.count_setOnce (s : State) (c : Cnt) : (s.count c).setOnce = s.setOnce := setOnce_of_kept (s.count_kept c)
@[simp] theorem State.putCnt_setOnce (s : State) (c : Cnt) (v : Word) (e : Bool) : (s.putCnt c v e).setOnce = s.setOnce :=
  setOnce_of_kept (s.putCnt_kept c v e)
@[simp] theorem State.stopReplay_setOnce (s : State) : s.stopReplay.setOnce = s.setOnce := setOnce_of_kept s.stopReplay_kept
@[simp] theorem State.resetStop_setOnce (s : State) (n : RingNo) : (s.resetStop n).setOnce = s.setOnce := setOnce_of_kept (s.resetStop_kept n)
@[simp] theorem State.drainEnd_setOnce (s : State) : s.drainEnd.setOnce = s.setOnce := setOnce_of_kept s.drainEnd_kept
@[simp] theorem State.stopRing_setOnce (s : State) (n : RingNo) : (s.stopRing n).setOnce = s.setOnce := setOnce_of_kept (s.stopRing_kept n)
@[simp] theorem State.askScan_setOnce (s : State) : s.askScan.setOnce = s.setOnce := setOnce_of_kept s.askScan_kept
@[simp] theorem State.takeTargets_setOnce (s : State) : s.takeTargets.setOnce = s.setOnce := setOnce_of_kept s.takeTargets_kept

/-! ### Register writes -/

@[simp] theorem State.lockViolation_setOnce (s : State) : s.lockViolation.setOnce = s.setOnce := by
  unfold State.lockViolation; simp

@[simp] theorem State.writeShadow_setOnce (s : State) (r : StReg) (v : Word) : (s.writeShadow r v).setOnce = s.setOnce := by
  unfold State.writeShadow
  split
  · exact s.lockViolation_setOnce
  · dsimp only; split
    · split <;> rfl
    · rfl

@[simp] theorem State.hostShadow_setOnce (s : State) (r : StReg) (v : Word) : (s.hostShadow r v).setOnce = s.setOnce := by
  unfold State.hostShadow; simp

@[simp] theorem State.heal_setOnce (s : State) : s.heal.setOnce = s.setOnce := by
  unfold State.heal; split <;> rfl

/-- Table 4.2: a function-wide reset clears no lock and no identifier (R72). -/
@[simp] theorem State.functionReset_setOnce (s : State) : s.functionReset.setOnce = s.setOnce := by
  have hstopped : ((List.finRange 4).foldl State.resetStop ((if s.heal.jnl.replay.isSome then s.heal.stopReplay else s.heal).onPw
      fun p => { p with busy := true, drain := none, shut := decide (p.st = .shutdown) })).setOnce = s.setOnce := by
    rw [foldl_setOnce _ State.resetStop_setOnce, State.onPw_setOnce]
    split <;> simp
  unfold State.functionReset
  dsimp only
  generalize (List.finRange 4).foldl State.resetStop _ = t at hstopped ⊢
  rw [apply_ite State.setOnce, State.drainEnd_setOnce, ite_self]
  exact hstopped

@[simp] theorem State.writeRingCtl_setOnce (s : State) (n : RingNo) (v : Word) : (s.writeRingCtl n v).setOnce = s.setOnce := by
  unfold State.writeRingCtl
  simp [apply_ite State.setOnce]

@[simp] theorem State.journalCheck_setOnce (s : State) : s.journalCheck.setOnce = s.setOnce := by
  unfold State.journalCheck
  simp [apply_ite State.setOnce]

@[simp] theorem State.writeJnlCtl_setOnce (s : State) (v : Word) : (s.writeJnlCtl v).setOnce = s.setOnce := by
  unfold State.writeJnlCtl
  simp [apply_ite State.setOnce]

@[simp] theorem State.writeRegion_setOnce (s : State) (f : Journal → Journal) : (s.writeRegion f).setOnce = s.setOnce := by
  unfold State.writeRegion
  simp [apply_ite State.setOnce]

@[simp] theorem State.writeVlim_setOnce (s : State) (v : Word) : (s.writeVlim v).setOnce = s.setOnce := by
  unfold State.writeVlim
  split
  · exact s.lockViolation_setOnce
  · dsimp only; split <;> simp

@[simp] theorem State.writeCnt_setOnce (s : State) (c : Cnt) (v : Word) : (s.writeCnt c v).setOnce = s.setOnce := by
  unfold State.writeCnt
  rw [State.putCnt_setOnce]; rfl

@[simp] theorem State.writeEnergy_setOnce (s : State) (v : Word) : (s.writeEnergy v).setOnce = s.setOnce := by
  unfold State.writeEnergy
  dsimp only
  split <;> rfl

/-- No register but ID_LOCK and ID_TILE_ID reaches what is written once. -/
theorem State.writeReg_setOnce (s : State) {r : Reg} (hlock : r ≠ .lock) (htile : r ≠ .tileId) (v : Word) :
    (s.writeReg r v).setOnce = s.setOnce := by
  cases r
  case lock => exact absurd rfl hlock
  case tileId => exact absurd rfl htile
  case atnCause | atnEnable => rfl
  all_goals simp [State.writeReg, apply_ite State.setOnce]

/-- ID_LOCK is set-only: the bits written 1 join those that are set (R120). -/
theorem State.writeReg_lock (s : State) (v : Word) : s.writeReg .lock v = { s with lock := s.lock ||| v.extractLsb' 0 5 } := by
  have hbits : BitVec.ofNat 5 (fld v 0 5) = v.extractLsb' 0 5 := BitVec.eq_of_toNat_eq (by simp [fld])
  rw [State.writeReg, hbits]

/-- A register write clears no lock bit and rewrites no identifier. -/
theorem State.writeReg_locksLast (s : State) (r : Reg) (v : Word) : LocksLast s (s.writeReg r v) := by
  by_cases hlock : r = .lock
  · subst hlock
    refine ⟨?_, fun hw => ⟨hw, rfl⟩⟩
    rw [State.writeReg_lock]
    ext i hi
    simp +contextual
  · by_cases htile : r = .tileId
    · subst htile
      cases hw : s.tileWritten with
      | true => exact .of_setOnce (by simp [State.writeReg, hw])
      | false => exact ⟨by simp [State.writeReg, hw], fun h => by simp [hw] at h⟩
    · exact .of_setOnce (s.writeReg_setOnce hlock htile v)

/-! ### The set-up port -/

@[simp] theorem State.leaveSlot_setOnce (s : State) : s.leaveSlot.setOnce = s.setOnce := by
  unfold State.leaveSlot
  split
  · dsimp only; split <;> rfl
  · rfl

@[simp] theorem State.enterSlot_setOnce (s : State) : s.enterSlot.setOnce = s.setOnce := by
  unfold State.enterSlot
  split
  · split <;> simp
  · rfl

@[simp] theorem State.stretch_setOnce (s : State) : s.stretch.setOnce = s.setOnce := by
  unfold State.stretch; split <;> rfl

@[simp] theorem State.acknowledge_setOnce (s : State) : s.acknowledge.setOnce = s.setOnce := by
  unfold State.acknowledge; simp

@[simp] theorem State.capture_setOnce (s : State) : s.capture.setOnce = s.setOnce := by
  unfold State.capture
  dsimp only
  split
  · split <;> rfl
  · rfl

@[simp] theorem State.sendByte_setOnce (s : State) : s.sendByte.setOnce = s.setOnce := s.capture_setOnce

@[simp] theorem State.ackEnd_setOnce (s : State) : s.ackEnd.setOnce = s.setOnce := by
  unfold State.ackEnd
  dsimp only
  split
  · split <;> simp
  · rfl

@[simp] theorem State.sampleBit_setOnce (s : State) : s.sampleBit.setOnce = s.setOnce := by
  have htake : ∀ (x : State) (b : Bool), (x.takeBit b).setOnce = x.setOnce := fun x b => by
    unfold State.takeBit
    dsimp only
    repeat' split
    all_goals simp
  unfold State.sampleBit
  dsimp only
  split
  · exact htake _ _
  · rfl

@[simp] theorem State.startOrStop_setOnce (s : State) : s.startOrStop.setOnce = s.setOnce := by
  unfold State.startOrStop State.endTransaction
  dsimp only
  split <;> simp

/-- A breach of R99 makes the transaction unpredictable, not the locks. -/
@[simp] theorem State.timed_setOnce (s : State) (b : Bool) : (s.timed b).setOnce = s.setOnce := by
  unfold State.timed State.scramble
  dsimp only
  repeat' split
  all_goals rfl

/-- The commit of a slot is the one place where the port writes a register (R91). -/
theorem State.commitSlot_locksLast (s : State) (k : BitVec 13) (v : Word) : LocksLast s (s.commitSlot k v) := by
  have hwrite : LocksLast s (s.writeSlot k v) := by
    unfold State.writeSlot
    split
    · exact s.writeReg_locksLast _ v
    · exact .refl s
  refine hwrite.trans (.of_setOnce ?_)
  unfold State.commitSlot
  dsimp only
  split <;> simp

theorem State.writeByte_locksLast (s : State) (b : Byte) : LocksLast s (s.writeByte b) := by
  unfold State.writeByte
  dsimp only
  split
  · exact .trans (.of_setOnce (by simp)) (State.commitSlot_locksLast _ _ _)
  · exact .of_setOnce (by simp)

theorem State.byteEnd_locksLast (s : State) : LocksLast s s.byteEnd := by
  by_cases hw : s.port.phase = .write
  · rw [s.byteEnd_write hw]
    exact s.writeByte_locksLast _
  · refine .of_setOnce ?_
    unfold State.byteEnd
    dsimp only
    repeat' split
    all_goals simp_all

theorem State.sclFall_locksLast (s : State) : LocksLast s s.sclFall := by
  unfold State.sclFall
  dsimp only
  split
  · exact .refl s
  · split
    · exact .of_setOnce rfl
    · split
      · split <;> exact .of_setOnce rfl
      · split
        · exact .trans (b := s.onPort _) (.of_setOnce rfl) (State.byteEnd_locksLast _)
        · exact .of_setOnce (by simp)

theorem State.recognise_locksLast (s : State) (c d : Bool) : LocksLast s (s.recognise c d) := by
  unfold State.recognise
  dsimp only
  split
  · exact .trans (.of_setOnce (by simp)) (State.sclFall_locksLast _)
  · repeat' split
    all_goals exact .of_setOnce (by simp [State.startMet, State.stopMet, State.stopSeen])

theorem State.closeEdge_locksLast (s : State) : LocksLast s s.closeEdge := by
  have hsample : LocksLast s s.sampleBus := by
    unfold State.sampleBus
    split
    · exact .refl s
    · split
      · exact .trans (.of_setOnce s.sampleBit_setOnce) (State.recognise_locksLast _ _ _)
      · exact .of_setOnce rfl
  unfold State.closeEdge
  split
  · exact .refl s
  · exact hsample.trans (.of_setOnce rfl)

/-! ### Edges and the bus -/

/-- One HCK edge, whatever the set-up bus brings on it. -/
theorem State.tick_locksLast (s : State) : LocksLast s s.tick := by
  have hadvance : s.closeEdge.advance.setOnce = s.closeEdge.setOnce := (congrArg State.setOnce s.closeEdge.advance_fixed :)
  unfold State.tick
  exact s.closeEdge_locksLast.trans (.of_setOnce hadvance)

theorem State.elapse_locksLast (s : State) (n : Nat) : LocksLast s (s.elapse n) :=
  State.elapse_induct (P := LocksLast s) (fun t h => h.trans t.tick_locksLast)
    (fun t k h => h.trans (.of_setOnce (congrArg State.setOnce (((t.coast k).holdArm_fixed).trans (t.coast_fixed k)) :))) s n (.refl s)

theorem State.waitUntil_locksLast (s : State) (n : Nat) : LocksLast s (s.waitUntil n) := s.elapse_locksLast _

/-- Neither edges nor a host error clear a lock (R7, R120). -/
theorem State.arrive_locksLast (s : State) (dt : Nat) : LocksLast s (s.arrive dt) := by
  unfold State.arrive
  exact .trans (s.elapse_locksLast _) (.of_setOnce (setOnce_of_kept ((State.disturb_kept _).trans (State.holdArm_kept _))))

theorem State.runBus_locksLast (l : BusLevels) (s : State) : LocksLast s (s.runBus l) := by
  induction l generalizing s with
  | nil => exact .refl s
  | cons p l ih =>
    obtain ⟨c, d⟩ := p
    have hedge : LocksLast s s.busEdge := by
      unfold State.busEdge
      split
      · exact s.elapse_locksLast 1
      · exact .refl s
    have hpins : LocksLast s (s.busEdge.setPins c d) := hedge.trans (.of_setOnce (State.onPort_setOnce _ _))
    have hpair : LocksLast s (s.busPair c d) := hpins.trans (State.closeEdge_locksLast _)
    rw [State.runBus]
    exact hpair.trans (ih _)

end Sys2Proof.Machine

/-! SUPPORT. Every command but power-on reset keeps the locks and the tile identifier. The proof of O17 (R120, Table 4.2). -/

namespace Sys2Proof.Machine

open Sys2Proof.Safety

/-- A command clears no lock bit and changes no identifier that was written. -/
def KeepsLocks (f : State → Host.Outcome State Fault Refusal) : Prop := ∀ s t : State, f s = .next t → LocksLast s t

theorem keepsLocks_event {dt : Nat} {body : State → State} (hb : ∀ x : State, LocksLast x (body x)) : KeepsLocks (event dt body) := by
  intro s t h
  rw [next_of_event h]
  exact ((s.arrive_locksLast dt).trans (hb _)).trans (.of_setOnce (State.settle_setOnce _))

/-! #### Bodies of kept operations, among which edges pass -/

@[simp] theorem State.elapse_locksLast_kept (s : State) (n : Nat) : LocksLast s.kept (s.elapse n).kept := s.elapse_locksLast n

@[simp] theorem State.waitUntil_locksLast_kept (s : State) (n : Nat) : LocksLast s.kept (s.waitUntil n).kept := s.waitUntil_locksLast n

/-- A body made of operations that keep what the host has made, and of edges that pass between them: `simp` reduces it under `kept` to the
edges (`State.waitUntil_locksLast_kept`). -/
theorem keepsLocks_event_of_kept {dt : Nat} {body : State → State} (hb : ∀ x : State, LocksLast x.kept (body x).kept) :
    KeepsLocks (event dt body) :=
  keepsLocks_event fun x => (locksLast_kept x _).1 (hb x)

/-! #### Resets, clocking, test access port -/

/-- RSTN, and a test-mode instruction as RSTN does, leaves the locks and the identifier (Table 4.2, R371). -/
@[simp] theorem State.rstnState_setOnce (s : State) : s.rstnState.setOnce = s.setOnce := by
  have hkept : s.rstnState.setOnce = s.fastDischarge.setOnce := rfl
  rw [hkept, setOnce_of_kept s.fastDischarge_kept]

theorem State.firstEdge_locksLast (s : State) : LocksLast s s.firstEdge :=
  .trans (b := (s.onPw _).onEdge _) (.of_setOnce rfl) (State.elapse_locksLast _ 1)

/-- Where HCK runs and nothing holds the core, its first clocking begins. -/
theorem State.clockingBegins_locksLast {s t : State} (h : t.setOnce = s.setOnce) : LocksLast s (if t.ticking then t.firstEdge else t) := by
  split
  · exact .trans (.of_setOnce h) t.firstEdge_locksLast
  · exact .of_setOnce h

theorem execPorRelease_keepsLocks (dt : Nat) : KeepsLocks (execPorRelease dt) := by
  unfold execPorRelease
  refine keepsLocks_event fun x => ?_
  dsimp only
  split
  · exact State.clockingBegins_locksLast (State.onPw_setOnce _ _)
  · exact .refl x

theorem execRstnAssert_keepsLocks (dt : Nat) : KeepsLocks (execRstnAssert dt) := by
  unfold execRstnAssert
  refine keepsLocks_event fun x => .of_setOnce ?_
  dsimp only
  split <;> simp

theorem execRstnRelease_keepsLocks (dt : Nat) : KeepsLocks (execRstnRelease dt) := by
  unfold execRstnRelease
  refine keepsLocks_event fun x => ?_
  dsimp only
  split
  · exact .refl x
  · exact State.clockingBegins_locksLast (State.onPw_setOnce _ _)

theorem execHckStart_keepsLocks (dt : Nat) : KeepsLocks (execHckStart dt) := by
  unfold execHckStart
  refine keepsLocks_event fun x => ?_
  dsimp only
  split
  · exact .refl x
  · exact State.clockingBegins_locksLast (State.onPw_setOnce _ _)

theorem State.loadIr_locksLast (s : State) (c : TapCtl) (op : BitVec 4) : LocksLast s (s.loadIr c op) := by
  unfold State.loadIr
  dsimp only
  split
  · exact .refl s
  · split
    · split
      · exact .of_setOnce rfl
      · exact .of_setOnce (State.rstnState_setOnce _)
    · split
      · exact State.clockingBegins_locksLast rfl
      · exact .of_setOnce rfl

theorem event_updateIr_keepsLocks (dt : Nat) (tms : List Bool) (op : BitVec 4) : KeepsLocks (event dt fun s => s.updateIr tms op) := by
  refine keepsLocks_event fun x => ?_
  unfold State.updateIr
  split
  · exact x.loadIr_locksLast _ _
  · exact .refl x

@[simp] theorem State.onTap_setOnce (s : State) (c : TapCtl) (tms : List Bool) (f : Tap → Tap) : (s.onTap c tms f).setOnce = s.setOnce := by
  unfold State.onTap
  split
  · rfl
  · split <;> rfl

theorem execCaptureDr_keepsLocks (tap : TapSpan) (pins : BitVec 44) (observe : Observation) :
    KeepsLocks (execCaptureDr tap pins observe) := by
  unfold execCaptureDr State.captureDr
  exact keepsLocks_event fun x => .of_setOnce ((State.onTap_setOnce _ _ _ _).trans (x.onSup_setOnce _))

theorem execTapShift_keepsLocks (tap : TapSpan) (ir tdi : Bool) : KeepsLocks (execTapShift tap ir tdi) := by
  unfold execTapShift
  refine keepsLocks_event fun x => .of_setOnce ?_
  dsimp only
  generalize (if ir then TapCtl.shiftIr else TapCtl.shiftDr) = c
  split
  · unfold State.enterShift; split <;> rfl
  · exact x.onTap_setOnce _ _ _

/-- Clock loss lets the bus go after the port's part of its last edge (Table 2.9). -/
theorem execClockLoss_keepsLocks (dt : Nat) : KeepsLocks (execClockLoss dt) := by
  unfold execClockLoss
  refine keepsLocks_event fun x => ?_
  have hclose : LocksLast x (x.closeEdge.onPw fun p => { p with hck := false }) := x.closeEdge_locksLast.trans (.of_setOnce rfl)
  have hdrop : ∀ y : State, y.dropBus.setOnce = y.setOnce := fun _ => rfl
  have hcut : ∀ (y : State) (c : Cut), (y.cutPower c).setOnce = y.setOnce := fun y c => setOnce_of_kept (y.cutPower_kept c)
  have hstop : ∀ (y : State) (c : Cut), (y.interruptAll c).setOnce = y.setOnce := fun y c => setOnce_of_kept (y.interruptAll_kept c)
  have hstatus : ∀ (y : State) (m : Word), (y.setStatus m).setOnce = y.setOnce := fun _ _ => rfl
  have hgo : ∀ (y : State) (st : EngState), (y.goTo st).setOnce = y.setOnce := fun _ _ => rfl
  dsimp only
  split
  · exact .refl x
  · split
    · exact hclose
    · refine hclose.trans (.of_setOnce ?_)
      split <;> split <;> simp [hdrop, hcut, hstop, hstatus, hgo]

/-! #### The set-up bus -/

theorem event_runBus_keepsLocks (dt : Nat) (l : BusLevels) : KeepsLocks (event dt fun s => s.runBus l) :=
  keepsLocks_event fun x => x.runBus_locksLast l

theorem execReadCapture_keepsLocks (bus : BusSpan) (barIn : Bool) : KeepsLocks (execReadCapture bus barIn) := by
  have hseen : ∀ x : State, (x.barSeen barIn).setOnce = x.setOnce := fun x => by unfold State.barSeen; split <;> rfl
  have hlow : ∀ x : State, x.barLow.setOnce = x.setOnce := fun x => by unfold State.barLow; split <;> rfl
  unfold execReadCapture
  refine keepsLocks_event fun x => ?_
  have hrun : LocksLast x ((x.barSeen barIn).runBus bus.lines) := .trans (.of_setOnce (hseen x)) (State.runBus_locksLast _ _)
  dsimp only
  split
  · exact hrun
  · exact hrun.trans (.of_setOnce (hlow _))

theorem execSclStretchRelease_keepsLocks (bus : BusSpan) : KeepsLocks (execSclStretchRelease bus) := by
  unfold execSclStretchRelease
  refine keepsLocks_event fun x => ?_
  have hrun := x.runBus_locksLast bus.lines
  dsimp only
  split
  · split
    · exact hrun.trans (State.waitUntil_locksLast _ _)
    · exact hrun
  · exact hrun

/-! #### Admission, intent -/

theorem keepsLocks_admitRow {dt : Nat} {n : RingNo} {ok : Fetched → Bool} {body : Fetched → State → State}
    (hb : ∀ f x, (body f x).setOnce = x.setOnce) : KeepsLocks (admitRow dt n ok body) := by
  unfold admitRow
  refine keepsLocks_event fun x => ?_
  have hnext : LocksLast x (if x.edge.noAdmit.getLsbD n.val || x.edge.admitted then x.elapse 1 else x) := by
    split
    · exact x.elapse_locksLast 1
    · exact .refl x
  dsimp only
  split
  · exact .refl x
  · generalize (if x.edge.noAdmit.getLsbD n.val || x.edge.admitted then x.elapse 1 else x) = y at hnext ⊢
    split
    · split
      · refine hnext.trans (.of_setOnce ?_)
        rw [hb, setOnce_of_kept (State.takeEntry_kept _ n)]
        split <;> rfl
      · exact hnext
    · exact hnext

@[simp] theorem State.finishEntry_setOnce (s : State) (n : RingNo) (i : BitVec 16) : (s.finishEntry n i).setOnce = s.setOnce :=
  setOnce_of_kept (s.finishEntry_kept n i)

theorem State.admitUpdate_setOnce (s : State) (n : RingNo) (f : Fetched) : (s.admitUpdate n f).setOnce = s.setOnce :=
  setOnce_of_settings (s.admitUpdate_settings n f)

theorem State.withShadow_setOnce (s : State) (g : Staged) : ({ s with shadow := g } : State).setOnce = s.setOnce := rfl

/-- The records of a CFG are staged registers: none is ID_LOCK or ID_TILE_ID. -/
theorem State.admitCfg_setOnce (s : State) (n : RingNo) (f : Fetched) : (s.admitCfg n f).setOnce = s.setOnce := by
  simp only [State.admitCfg, State.onRing_setOnce, State.withShadow_setOnce, State.commit_setOnce]
  rw [foldl_setOnce]
  · rfl
  · intro x p
    split <;> simp

theorem execTemp_keepsLocks (dt : Nat) (ring : RingNo) : KeepsLocks (execTemp dt ring) := by
  unfold execTemp
  refine keepsLocks_admitRow fun f x => ?_
  rw [State.finishEntry_setOnce]; rfl

theorem execSync_keepsLocks (dt : Nat) (ring : RingNo) : KeepsLocks (execSync dt ring) := by
  unfold execSync
  refine keepsLocks_admitRow fun f x => ?_
  rw [State.finishEntry_setOnce]; rfl

theorem execMark_keepsLocks (dt : Nat) (ring : RingNo) : KeepsLocks (execMark dt ring) := by
  unfold execMark
  refine keepsLocks_admitRow fun f x => ?_
  rw [State.finishEntry_setOnce]; rfl

theorem execPark_keepsLocks (dt : Nat) (ring : RingNo) : KeepsLocks (execPark dt ring) := by
  unfold execPark
  refine keepsLocks_admitRow fun f x => ?_
  split
  · rfl
  · exact setOnce_of_kept (x.finishPark_kept ring f.index)

theorem execNop_keepsLocks (dt : Nat) (ring : RingNo) : KeepsLocks (execNop dt ring) := by
  unfold execNop
  refine keepsLocks_admitRow fun f x => ?_
  dsimp only
  split <;> simp

theorem execIntentWrite_keepsLocks (dt : Nat) (ring : RingNo) : KeepsLocks (execIntentWrite dt ring) := by
  unfold execIntentWrite
  refine keepsLocks_event fun x => .of_setOnce (setOnce_of_settings ?_)
  repeat' split
  all_goals simp

/-! #### Memory port -/

theorem State.abortTxn_locksLast (s : State) (o : OpenAccess) (x : Txn) (c : Nat) : LocksLast s (s.abortTxn o x c) := by
  have hfails : LocksLast s (s.txnFails o x c) := .of_setOnce (setOnce_of_kept (s.txnFails_kept o x c))
  unfold State.abortTxn
  exact (hfails.trans (State.elapse_locksLast _ _)).trans (.of_setOnce rfl)

theorem State.atEdge_locksLast (s : State) (e : Nat) (f : OpenAccess → State → State) (hf : ∀ o x, LocksLast x (f o x)) :
    LocksLast s (s.atEdge e f) := by
  have hwait := s.waitUntil_locksLast e
  unfold State.atEdge
  dsimp only
  split
  · split
    · exact hwait.trans (hf _ _)
    · exact hwait
  · exact hwait

theorem State.endTxn_locksLast (s : State) (o : OpenAccess) (x : Txn) (w : Nat) (bs : List Byte) : LocksLast s (s.endTxn o x w bs) := by
  have habort : ∀ (e : Nat) (x : Txn) (c : Nat), LocksLast s (s.atEdge e fun o s => s.abortTxn o x c) :=
    fun e x c => s.atEdge_locksLast e _ fun o y => y.abortTxn_locksLast o x c
  have hend : ∀ (e : Nat) (x : Txn), LocksLast s (s.atEdge e fun o s => s.txnEnd o x bs) :=
    fun e x => s.atEdge_locksLast e _ fun o y => .of_setOnce (setOnce_of_settings (y.txnEnd_settings o x bs))
  unfold State.endTxn
  dsimp only
  repeat' split
  all_goals simp only [habort, hend]

theorem State.runMrdy_locksLast (l : List Bool) (s : State) : LocksLast s (s.runMrdy l) := by
  induction l generalizing s with
  | nil => exact .refl s
  | cons b l ih => exact .trans (.trans (b := s.onMem _) (.of_setOnce rfl) (State.elapse_locksLast _ 1)) (ih _)

theorem execMemArbitrate_keepsLocks (dt : Nat) : KeepsLocks (execMemArbitrate dt) := by
  unfold execMemArbitrate
  refine keepsLocks_event fun x => ?_
  have hnext : LocksLast x (if x.mayArbitrate then (if x.edge.arbitrated then x.elapse 1 else x).waitUntil x.mem.rise else x) := by
    split
    · refine .trans ?_ (State.waitUntil_locksLast _ _)
      split
      · exact x.elapse_locksLast 1
      · exact .refl x
    · exact .refl x
  dsimp only
  generalize (if x.mayArbitrate then (if x.edge.arbitrated then x.elapse 1 else x).waitUntil x.mem.rise else x) = y at hnext ⊢
  split
  · exact hnext.trans (.of_setOnce (setOnce_of_settings (State.arbitrate_settings _)))
  · exact hnext

theorem execMemTransactionEnd_keepsLocks (dt : Nat) (delay : BusDelay) (bytes : List Byte) :
    KeepsLocks (execMemTransactionEnd dt delay bytes) := by
  unfold execMemTransactionEnd
  refine keepsLocks_event fun x => ?_
  have hmrdy := x.runMrdy_locksLast delay.mrdy
  dsimp only
  split
  · exact .refl x
  · split
    · exact hmrdy.trans (State.endTxn_locksLast _ _ _ _ _)
    · exact hmrdy

theorem execMrdyStretchTimeout_keepsLocks (at_ : StretchSpan) : KeepsLocks (execMrdyStretchTimeout at_) := by
  unfold execMrdyStretchTimeout
  refine keepsLocks_event fun x => ?_
  have hmrdy := x.runMrdy_locksLast (at_.mrdy ++ [false])
  dsimp only
  split
  · exact .refl x
  · split
    · split
      · exact hmrdy.trans (State.atEdge_locksLast _ _ _ fun o y => y.abortTxn_locksLast o _ 1)
      · exact hmrdy
    · exact hmrdy

theorem execMdqsTimeout_keepsLocks (at_ : StretchSpan) : KeepsLocks (execMdqsTimeout at_) := by
  unfold execMdqsTimeout
  refine keepsLocks_event fun x => ?_
  have hmrdy := x.runMrdy_locksLast at_.mrdy
  dsimp only
  split
  · exact .refl x
  · split
    · split
      · exact hmrdy.trans (State.endTxn_locksLast _ _ _ _ _)
      · exact hmrdy
    · exact hmrdy

/-! #### All commands -/

/-- Only power-on reset clears a lock bit or an identifier (R120, Table 4.2). The engine's own events leave alone all that the host makes, but
for the edges that pass within them; the other commands have their lemmas above. -/
theorem exec_keepsLocks (c : Instr) (hpor : ∀ dt, c ≠ .powerOnReset dt) : KeepsLocks (exec c) := by
  intro s t h
  cases c
  case powerOnReset dt => exact absurd rfl (hpor dt)
  case porRelease => exact execPorRelease_keepsLocks _ s t h
  case rstnAssert => exact execRstnAssert_keepsLocks _ s t h
  case rstnRelease => exact execRstnRelease_keepsLocks _ s t h
  case hckStart => exact execHckStart_keepsLocks _ s t h
  case clockLoss => exact execClockLoss_keepsLocks _ s t h
  case i2cStart | slotCommit | i2cStop | framingAbort | i2cDataByte => exact event_runBus_keepsLocks _ _ s t h
  case readCapture => exact execReadCapture_keepsLocks _ _ s t h
  case sclStretchRelease => exact execSclStretchRelease_keepsLocks _ s t h
  case testLogicReset => exact keepsLocks_event (fun x => x.loadIr_locksLast _ _) s t h
  case extest | samplePreload | idcode | clamp | highz | segtest | bypass => exact event_updateIr_keepsLocks _ _ _ s t h
  case captureDr => exact execCaptureDr_keepsLocks _ _ _ s t h
  case updateDr | captureIr => exact keepsLocks_event (fun x => .of_setOnce (x.onTap_setOnce _ _ _)) s t h
  case tapShift => exact execTapShift_keepsLocks _ _ _ s t h
  case update | clear => exact keepsLocks_admitRow (fun f x => x.admitUpdate_setOnce _ f) s t h
  case cfg => exact keepsLocks_admitRow (fun f x => x.admitCfg_setOnce _ f) s t h
  case temp => exact execTemp_keepsLocks _ _ s t h
  case sync => exact execSync_keepsLocks _ _ s t h
  case park => exact execPark_keepsLocks _ _ s t h
  case mark => exact execMark_keepsLocks _ _ s t h
  case nop => exact execNop_keepsLocks _ _ s t h
  case intentWrite => exact execIntentWrite_keepsLocks _ _ s t h
  case memArbitrate => exact execMemArbitrate_keepsLocks _ s t h
  case memTransactionEnd => exact execMemTransactionEnd_keepsLocks _ _ _ s t h
  case mrdyStretchTimeout => exact execMrdyStretchTimeout_keepsLocks _ s t h
  case mdqsTimeout => exact execMdqsTimeout_keepsLocks _ s t h
  case outputLimited | outputLimitRelease | outputFault | pairContention | dwellEnd | frameEnd | updateStart | barrierStart |
      barNRecognised | barrierTimeout | driveGroupApply | supplyGroupApply | windowGroupApply | pollTimerExpiry |
      strapFirstSample | strapSecondSample | addressLatch | wakeQualifierEnd | shutdownTrip | shutdownRelease | shutdownExit |
      uvloAssert | uvloRelease | resetDrainEnd | resetBusyEnd | sequencingStart | rampStart | rampStep | setPointSlewStep |
      railsInRegulation | rampTimeout | dischargeVcomStep | dischargeEnd | parkingExit | armedTimeout | heldExit | energyWrap |
      conversionResult | replayEnd | statusPoll =>
    simp only [exec, execOutputLimited, execOutputLimitRelease, execOutputFault, execPairContention, execDwellEnd, execFrameEnd,
      execUpdateStart, execBarrierStart, execBarNRecognised, execBarrierTimeout, execDriveGroupApply, execSupplyGroupApply,
      execWindowGroupApply, execPollTimerExpiry, execStrapFirstSample, execStrapSecondSample, execAddressLatch,
      execWakeQualifierEnd, execShutdownTrip, execShutdownRelease, execShutdownExit, execUvloAssert, execUvloRelease,
      execResetDrainEnd, execResetBusyEnd, execSequencingStart, execRampStart, execRampStep, execSetPointSlewStep,
      execRailsInRegulation, execRampTimeout, execDischargeVcomStep, execDischargeEnd, execParkingExit, execArmedTimeout,
      execHeldExit, execEnergyWrap, execConversionResult, execReplayEnd, execStatusPoll] at h
    refine (keepsLocks_event_of_kept fun x => ?_) s t h
    (repeat' split) <;> simp

/-! ### The lock bits and what they lock -/

@[simp] theorem State.lockViolation_sup (s : State) : s.lockViolation.sup = s.sup := by
  simp [State.lockViolation, State.count, State.putCnt, apply_ite State.sup]

@[simp] theorem State.lockViolation_jnl (s : State) : s.lockViolation.jnl = s.jnl := by
  simp [State.lockViolation, State.count, State.putCnt, apply_ite State.jnl]

/-- With lock bit 2 set a write of SUP_VLIM reaches no field of the supply (R121, R139). -/
theorem State.writeVlim_locked (s : State) (v : Word) (h : s.lock.getLsbD 2 = true) : (s.writeVlim v).sup = s.sup := by
  unfold State.writeVlim
  rw [if_pos h, State.lockViolation_sup]

/-- With lock bit 4 set a write of JNL_BASE or JNL_SIZE reaches no field of the journal (R121, R144). -/
theorem State.writeRegion_locked (s : State) (f : Journal → Journal) (h : s.lock.getLsbD 4 = true) : (s.writeRegion f).jnl = s.jnl := by
  unfold State.writeRegion
  rw [if_pos h, State.lockViolation_jnl]

/-- Settles O17: what a write of ID_LOCK does is `State.writeReg_lock`, that no other command clears a bit `exec_keepsLocks`. -/
theorem lockBitsSetOnly : Obligations.LockBitsSetOnly := by
  unfold Obligations.LockBitsSetOnly
  refine ⟨State.writeReg_lock, fun c s t hpor h => exec_keepsLocks c hpor s t h, fun s dt => ⟨_, rfl, ?_⟩,
    fun n => ⟨rfl, rfl, rfl, rfl⟩, rfl, rfl, rfl, fun s v hvlim => ?_, fun s v hjnl => ?_⟩
  · exact State.settle_lock _
  · exact Bool.eq_false_iff.2 fun hlock => hvlim (congrArg Supply.vlim (s.writeVlim_locked v hlock))
  · refine Bool.eq_false_iff.2 fun hlock => ?_
    rcases hjnl with hbase | hsize
    · exact hbase (s.writeRegion_locked _ hlock)
    · exact hsize (s.writeRegion_locked _ hlock)

end Sys2Proof.Machine

/-! SUPPORT. What a register write does by the register's access class: an ignored write of a locked register, a staged register, a
counter, the energy accumulator, a register whose write does nothing. The proof of O16 (R110, R112, R124, Table 6.1). -/

namespace Sys2Proof.Machine

open Sys2Proof.Safety

/-! ### Counters and the ignored write (R121, R146) -/

/-- A count within the maximum to which nothing is added. -/
theorem satAdd_zero {max v : Word} (h : v.toNat ≤ max.toNat) : satAdd max v 0 = v := by
  unfold satAdd
  split
  · exact BitVec.eq_of_toNat_eq (by omega)
  · simp

theorem Counters.get_put (c : Counters) (k : Cnt) (v : Word) : (c.put k v).get k = v := by
  cases k <;> rfl

@[simp] theorem State.putCnt_cnt (s : State) (c : Cnt) (v : Word) (event : Bool) : (s.putCnt c v event).cnt = s.cnt.put c v := by
  unfold State.putCnt
  simp [apply_ite State.cnt]

@[simp] theorem State.count_cnt (s : State) (c : Cnt) : (s.count c).cnt = s.cnt.put c (satAdd c.max (s.cnt.get c) 1) := by
  simp [State.count]

/-- An ignored write counts one violation, of no other counter. -/
@[simp] theorem State.lockViolation_cnt (s : State) :
    s.lockViolation.cnt = { s.cnt with lockViol := satAdd 0xFFFF s.cnt.lockViol 1 } := by
  rw [State.lockViolation, State.setCause_cnt, State.count_cnt]
  rfl

@[simp] theorem State.lockViolation_cause (s : State) : bitOf s.lockViolation.cause 3 = true := by
  rw [State.lockViolation, State.setCause_cause, bitOf, BitVec.getLsbD_or]
  exact Bool.or_eq_true_iff.2 (.inr (by decide))

@[simp] theorem State.lockViolation_shadow (s : State) : s.lockViolation.shadow = s.shadow := by
  simp [State.lockViolation, State.count, State.putCnt, apply_ite State.shadow]

@[simp] theorem State.lockViolation_applied (s : State) : s.lockViolation.applied = s.applied := by
  simp [State.lockViolation, State.count, State.putCnt, apply_ite State.applied]

/-! ### Registers and slots without a write (R124, Table 6.1) -/

/-- R124, both halves. -/
theorem State.slot_unimplemented (s : State) {slot : BitVec 13} (h : regOfSlot slot = none) (v : Word) :
    s.readSlot slot = 0 ∧ s.writeSlot slot v = s := by
  simp [State.readSlot, State.writeSlot, h]

/-- Table 6.1, class RO. -/
theorem State.writeReg_readOnly (s : State) {r : Reg} (h : readOnly r = true) (v : Word) : s.writeReg r v = s := by
  cases r <;> cases h <;> rfl

/-! ### Staged registers (R110, R112) -/

/-- With its lock set the write of a staged register is ignored (R112, R121). -/
theorem State.writeShadow_locked (s : State) {r : StReg} (h : s.locked r = true) (v : Word) :
    s.writeShadow r v = s.lockViolation := if_pos h

/-- Without its lock a staged register takes the word into its shadow copy; beyond that the write can but be a host error (R125). -/
theorem State.writeShadow_unlocked (s : State) {r : StReg} (h : s.locked r = false) (v : Word) :
    ∃ w, s.writeShadow r v = { s with shadow := s.shadow.put r v, wild := w } := by
  unfold State.writeShadow
  rw [h, if_neg Bool.false_ne_true]
  dsimp only
  split
  · split
    · exact ⟨_, rfl⟩
    · exact ⟨s.wild, rfl⟩
  · exact ⟨s.wild, rfl⟩

/-- The edge's record aside, a host's write of a staged register is the write of its shadow copy. -/
theorem State.writeReg_staged (s : State) (r : StReg) (v : Word) : ∃ f, s.writeReg (.st r) v = (s.writeShadow r v).onEdge f := by
  rw [State.writeReg, State.hostShadow]
  exact ⟨_, rfl⟩

theorem State.writeReg_staged_unlocked (s : State) {r : StReg} (h : s.locked r = false) (v : Word) :
    (s.writeReg (.st r) v).shadow = s.shadow.put r v ∧ (s.writeReg (.st r) v).cnt = s.cnt ∧ (s.writeReg (.st r) v).cause = s.cause := by
  obtain ⟨f, hwrite⟩ := s.writeReg_staged r v
  obtain ⟨w, hshadow⟩ := s.writeShadow_unlocked h v
  rw [hwrite, hshadow]
  exact ⟨rfl, rfl, rfl⟩

theorem State.writeReg_staged_locked (s : State) {r : StReg} (h : s.locked r = true) (v : Word) :
    (s.writeReg (.st r) v).shadow = s.shadow ∧ (s.writeReg (.st r) v).cnt.lockViol = satAdd 0xFFFF s.cnt.lockViol 1 ∧
      bitOf (s.writeReg (.st r) v).cause 3 = true := by
  obtain ⟨f, hwrite⟩ := s.writeReg_staged r v
  rw [hwrite, s.writeShadow_locked h]
  simp

/-- Only a safe point moves an applied value, never a write (R110). -/
theorem State.writeReg_staged_applied (s : State) (r : StReg) (v : Word) : (s.writeReg (.st r) v).applied = s.applied := by
  obtain ⟨f, hwrite⟩ := s.writeReg_staged r v
  rw [hwrite, State.onEdge_applied]
  cases h : s.locked r with
  | true => rw [s.writeShadow_locked h, State.lockViolation_applied]
  | false =>
    obtain ⟨w, hshadow⟩ := s.writeShadow_unlocked h v
    rw [hshadow]

/-! ### Registers that keep what is written -/

theorem State.read_write_ringPoll (s : State) (n : RingNo) (v : Word) :
    (s.writeReg (.ringPoll n) v).readReg (.ringPoll n) = v &&& 0xFFFFFF := by
  simp [State.writeReg, State.readReg]

theorem State.read_write_vlim (s : State) (v : Word) (h : s.lock.getLsbD 2 = false) :
    (s.writeReg .vlim v).readReg .vlim = v &&& 0x7FFFFFF := by
  rw [State.writeReg, State.readReg, State.writeVlim, h, if_neg Bool.false_ne_true]
  dsimp only
  split <;> rfl

/-- The accumulator takes the word written with the edge's increment (R119, R141). -/
theorem State.writeEnergy_energy (s : State) (v : Word) : (s.writeEnergy v).sup.energy = BitVec.ofNat 36 (v.toNat + s.edge.energy) := by
  unfold State.writeEnergy
  dsimp only
  split <;> rfl

/-- On an edge that draws no energy of its own the word reads back as it is. -/
theorem State.read_write_energy (s : State) (v : Word) (h : s.edge.energy = 0) : (s.writeReg .energy v).readReg .energy = v := by
  rw [State.writeReg, State.readReg, s.writeEnergy_energy, h, Nat.add_zero, BitVec.ofNat_toNat, BitVec.setWidth_eq]

/-- On an edge without events a counter takes the implemented bits of the word (R146). -/
theorem State.read_write_cnt (s : State) (c : Cnt) (v : Word) (h : s.edge.cnts = []) :
    (s.writeReg (.cnt c) v).readReg (.cnt c) = v &&& c.max := by
  have hmax : (v &&& c.max).toNat ≤ c.max.toNat := by
    rw [BitVec.toNat_and]
    exact Nat.and_le_right
  have hcnt : (s.writeReg (.cnt c) v).cnt = s.cnt.put c (satAdd c.max (v &&& c.max) 0) := by
    simp only [State.writeReg, State.writeCnt, State.putCnt_cnt, h, List.count_nil]
  rw [State.readReg, hcnt, Counters.get_put, satAdd_zero hmax]

/-- Settles O16: `State.slot_unimplemented` and `State.writeReg_readOnly` for what a write leaves alone, `State.writeReg_staged_unlocked` and
`State.writeReg_staged_locked` for the shadow copies, the `State.read_write_` lemmas for what reads back. -/
theorem registerClasses : Obligations.RegisterClasses := by
  unfold Obligations.RegisterClasses
  refine ⟨⟨fun s _ v h => s.slot_unimplemented h v, fun s _ v h => s.writeReg_readOnly h v⟩, fun s r v => ?_, fun s v => ?_⟩
  · exact ⟨s.writeReg_staged_applied r v, fun h => s.writeReg_staged_unlocked h v, fun h => s.writeReg_staged_locked h v⟩
  · exact ⟨rfl, rfl, rfl, rfl, rfl, rfl, fun n => s.read_write_ringPoll n v, s.read_write_vlim v, s.read_write_energy v,
      fun c => s.read_write_cnt c v⟩

end Sys2Proof.Machine

/-! SUPPORT. The rings under register writes: what the stop of a ring does to the rings and leaves of the other units, the ring registers
while a ring is enabled, the function-wide reset of the rings. The proof of O22 (R133, R134, R72). -/

namespace Sys2Proof.Machine

/-! ### Outside the rings, the memory port and the journal -/

/-- The state without the units that the stop of a ring reaches (R225): the rings, the memory port, the journal. -/
def State.apart (s : State) : State := { s with rings := State.reset.rings, mem := MemPort.reset, jnl := Journal.reset }

theorem pw_of_apart {s t : State} (h : t.apart = s.apart) : t.pw = s.pw := (congrArg State.pw h :)
theorem applied_of_apart {s t : State} (h : t.apart = s.apart) : t.applied = s.applied := (congrArg State.applied h :)
theorem cause_of_apart {s t : State} (h : t.apart = s.apart) : t.cause = s.cause := (congrArg State.cause h :)
theorem cnt_of_apart {s t : State} (h : t.apart = s.apart) : t.cnt = s.cnt := (congrArg State.cnt h :)

@[simp] theorem State.onRing_apart (s : State) (n : RingNo) (f : Ring → Ring) : (s.onRing n f).apart = s.apart := rfl
@[simp] theorem State.onUpdate_apart (s : State) (n : RingNo) (f : Update → Update) : (s.onUpdate n f).apart = s.apart := rfl
@[simp] theorem State.dropReads_apart (s : State) (n : RingNo) (p : Asker → Bool) : (s.dropReads n p).apart = s.apart := rfl
@[simp] theorem State.onSlot_apart (s : State) (q : Nat) (f : OpenSlot → OpenSlot) : (s.onSlot q f).apart = s.apart := rfl
@[simp] theorem State.enqueue_apart (s : State) (a : Access) : (s.enqueue a).apart = s.apart := rfl
@[simp] theorem State.stopReplay_apart (s : State) : s.stopReplay.apart = s.apart := rfl

@[simp] theorem State.requestMark_apart (s : State) (q : Nat) (kind : Asker) : (s.requestMark q kind).apart = s.apart := by
  unfold State.requestMark
  split
  · rfl
  · split
    · split <;> simp
    · simp

@[simp] theorem State.tombstone_apart (s : State) (q : Nat) : (s.tombstone q).apart = s.apart := by
  unfold State.tombstone
  dsimp only
  split <;> simp

@[simp] theorem State.discardUpdate_apart (s : State) (n : RingNo) : (s.discardUpdate n).apart = s.apart := by
  unfold State.discardUpdate
  split
  · dsimp only
    split <;> simp
  · rfl

@[simp] theorem State.stopRing_apart (s : State) (n : RingNo) : (s.stopRing n).apart = s.apart := by
  unfold State.stopRing
  dsimp only
  split
  · split <;> simp
  · simp

@[simp] theorem State.resetStop_apart (s : State) (n : RingNo) : (s.resetStop n).apart = s.apart := s.stopRing_apart n

/-! ### The stop of a ring (R225, R246) -/

@[simp] theorem State.requestMark_rings (s : State) (q : Nat) (kind : Asker) : (s.requestMark q kind).rings = s.rings := by
  unfold State.requestMark
  split
  · rfl
  · split
    · split <;> rfl
    · rfl

/-- A tombstone is the journal's work alone. -/
@[simp] theorem State.tombstone_rings (s : State) (q : Nat) : (s.tombstone q).rings = s.rings := by
  unfold State.tombstone
  dsimp only
  split
  · rfl
  · exact State.requestMark_rings _ _ _

/-- A discarded update leaves its ring, and a hole behind it. -/
theorem State.discardUpdate_rings (s : State) (n : RingNo) :
    ∃ w b, (s.discardUpdate n).rings = s.rings.set n { s.rings[n] with work := w, hole := b } := by
  unfold State.discardUpdate
  split
  · refine ⟨none, true, ?_⟩
    dsimp only
    split
    · exact State.tombstone_rings _ _
    · rfl
  · exact ⟨s.rings[n].work, s.rings[n].hole, (Vector.set_getElem_self _).symm⟩

/-- A change of a ring's update reaches nothing of the ring but its work. -/
theorem State.onUpdate_rings (s : State) (n : RingNo) (f : Update → Update) :
    ∃ w, (s.onUpdate n f).rings = s.rings.set n { s.rings[n] with work := w } := by
  unfold State.onUpdate
  rw [State.onRing_rings]
  split
  · exact ⟨_, rfl⟩
  · exact ⟨s.rings[n].work, rfl⟩

/-- The stop of ring n clears its fetching, may end its work, and changes no other ring. -/
theorem State.stopRing_rings (s : State) (n : RingNo) :
    ∃ w b, (s.stopRing n).rings = s.rings.set n
      { s.rings[n] with
        bell := false, fetching := .none, fetched := [], probe := false, timer := none, barrier := none, syncNext := false
        work := w, hole := b } := by
  unfold State.stopRing
  dsimp only
  generalize ht : State.dropReads _ n Asker.isFetch = t
  have hrings : t.rings = s.rings.set n { s.rings[n] with
      bell := false, fetching := .none, fetched := [], probe := false, timer := none, barrier := none, syncNext := false } := by
    rw [← ht]
    rfl
  split
  · split
    · obtain ⟨w, b, hdiscard⟩ := t.discardUpdate_rings n
      exact ⟨w, b, by rw [hdiscard, hrings]; simp⟩
    · obtain ⟨w, hupdate⟩ := t.onUpdate_rings n fun u => { u with gated := false }
      exact ⟨w, s.rings[n].hole, by rw [hupdate, hrings]; simp⟩
  · exact ⟨s.rings[n].work, s.rings[n].hole, hrings⟩

/-- The stop of a ring writes no bit of RINGn_CTL. -/
theorem State.stopRing_ctl (s : State) (n : RingNo) : (s.stopRing n).rings[n].ctl = s.rings[n].ctl := by
  obtain ⟨w, b, h⟩ := s.stopRing_rings n
  simp [h]

/-! ### Registers of an enabled ring (R133) -/

/-- While a ring is enabled a write of RINGn_CTL leaves it, or disables it. -/
theorem State.writeRingCtl_enabled (s : State) {n : RingNo} (h : s.rings[n].enabled = true) (v : Word) :
    s.writeRingCtl n v =
      if bitOf v 0 || s.rings[n].hard || s.edge.enableCleared.getLsbD n.val then s
      else (s.onRing n fun r => { r with ctl := r.ctl &&& ~~~(1#36) }).stopRing n := by
  unfold State.writeRingCtl
  dsimp only
  rw [h]
  cases s.edge.enableCleared.getLsbD n.val <;> simp

/-- The disable keeps every bit of RINGn_CTL but enable. -/
theorem State.writeRingCtl_enabled_fields (s : State) {n : RingNo} (h : s.rings[n].enabled = true) (v : Word) :
    ((s.writeRingCtl n v).rings[n].ctl &&& ~~~(1#36)) = s.rings[n].ctl &&& ~~~(1#36) ∧
      (s.writeRingCtl n v).rings[n].enabled = (bitOf v 0 || s.rings[n].hard || s.edge.enableCleared.getLsbD n.val) ∧
      (s.writeRingCtl n v).cnt = s.cnt ∧ (s.writeRingCtl n v).cause = s.cause := by
  rw [s.writeRingCtl_enabled h]
  split
  · next hkeep => exact ⟨rfl, h.trans hkeep.symm, rfl, rfl⟩
  · next hstop =>
    have hctl := State.stopRing_ctl (s.onRing n fun r => { r with ctl := r.ctl &&& ~~~(1#36) }) n
    have hrest := State.stopRing_apart (s.onRing n fun r => { r with ctl := r.ctl &&& ~~~(1#36) }) n
    refine ⟨?_, ?_, cnt_of_apart hrest, cause_of_apart hrest⟩
    · rw [hctl]
      simp [BitVec.and_assoc]
    · rw [Ring.enabled, hctl, Bool.eq_false_iff.2 hstop]
      simp [bitOf]

/-- The registers of a ring that its enable protects: the write does nothing and counts nothing. -/
theorem State.writeReg_enabled_ring (s : State) {n : RingNo} (h : s.rings[n].enabled = true) (v : Word) :
    s.writeReg (.ringBase n) v = s ∧ s.writeReg (.ringTail n) v = s ∧ s.writeReg (.ringHeadAddr n) v = s ∧
      s.writeReg (.ringHead n) v = s :=
  ⟨if_pos h, if_pos h, if_pos h, if_pos (by rw [h, Bool.true_or, Bool.true_or])⟩

theorem State.writeReg_ringHead_working (s : State) {n : RingNo} (h : s.rings[n].work.isSome = true) (v : Word) :
    s.writeReg (.ringHead n) v = s :=
  if_pos (by rw [h, Bool.or_true, Bool.true_or])

/-! ### Enabling a ring (R134, R203, R209) -/

/-- The write that enables a ring starts it; a reserved size_exp is a host error besides (R125). -/
theorem State.writeRingCtl_enables (s : State) {n : RingNo} {v : Word} (hoff : s.rings[n].enabled = false)
    (hidle : s.rings[n].work = none) (hv : bitOf v 0 = true) (hedge : s.edge.enableCleared.getLsbD n.val = false) :
    ∃ t : State, t.rings = s.rings ∧
      s.writeRingCtl n v = t.onRing n fun r => { r with ctl := v &&& 0xF7 }.start (t.headOpen n) := by
  refine ⟨if ringExp v < 2 ∨ 12 < ringExp v then s.err .ringSize else s, by split <;> rfl, ?_⟩
  unfold State.writeRingCtl
  simp only [hedge, hoff, hidle, hv, Option.isSome_none, Bool.and_false, Bool.false_eq_true, if_false, if_true]

/-- The ring starts from its head: by its bell, or in phase mode by a probe. -/
theorem State.writeRingCtl_starts (s : State) {n : RingNo} {v : Word} (hoff : s.rings[n].enabled = false)
    (hidle : s.rings[n].work = none) (hv : bitOf v 0 = true) (hedge : s.edge.enableCleared.getLsbD n.val = false) :
    (s.writeRingCtl n v).rings[n].enabled = true ∧ (s.writeRingCtl n v).rings[n].fetch = s.rings[n].head ∧
      (s.writeRingCtl n v).rings[n].head = s.rings[n].head ∧ (s.writeRingCtl n v).rings[n].bell = !bitOf v 1 ∧
      (s.writeRingCtl n v).rings[n].probe = bitOf v 1 := by
  obtain ⟨t, hrings, hwrite⟩ := s.writeRingCtl_enables hoff hidle hv hedge
  have henable : bitOf (v &&& 0xF7) 0 = true := by rw [← hv]; simp [bitOf]
  have hphase : bitOf (v &&& 0xF7) 1 = bitOf v 1 := by simp [bitOf]
  rw [hwrite]
  simp only [State.onRing_rings, hrings, Fin.getElem_fin, Vector.getElem_set_self]
  exact ⟨henable, rfl, rfl, congrArg (!·) hphase, hphase⟩

/-! ### The rings of a function-wide reset (R72, R134) -/

/-- The ring is disabled, has fetched nothing, and fetches again from the head, which stands at h. -/
def Ring.RestsAt (r : Ring) (h : BitVec 16) : Prop := r.enabled = false ∧ r.fetch = h ∧ r.head = h ∧ r.fetched = []

theorem State.resetStop_rests (s : State) (n : RingNo) : (s.resetStop n).rings[n].RestsAt s.rings[n].head := by
  obtain ⟨w, b, h⟩ := s.stopRing_rings n
  simp [State.resetStop, h, Ring.RestsAt, Ring.enabled, bitOf]

theorem State.resetStop_other (s : State) {n m : RingNo} (hne : n ≠ m) : (s.resetStop n).rings[m] = s.rings[m] := by
  obtain ⟨w, b, h⟩ := s.stopRing_rings n
  simp [State.resetStop, h, Fin.val_ne_of_ne hne]

theorem State.resetStop_head (s : State) (n m : RingNo) : (s.resetStop n).rings[m].head = s.rings[m].head := by
  by_cases hne : n = m
  · subst hne
    obtain ⟨-, -, hhead, -⟩ := s.resetStop_rests n
    exact hhead
  · rw [s.resetStop_other hne]

theorem State.resetStop_restsAt (s : State) (n : RingNo) {m : RingNo} {h : BitVec 16} (hm : s.rings[m].RestsAt h) :
    (s.resetStop n).rings[m].RestsAt h := by
  by_cases hne : n = m
  · subst hne
    obtain ⟨-, -, hhead, -⟩ := hm
    exact hhead ▸ s.resetStop_rests n
  · rwa [s.resetStop_other hne]

/-- Stopping a list of rings keeps a ring at rest. -/
theorem foldl_resetStop_restsAt (l : List RingNo) (s : State) {m : RingNo} {h : BitVec 16} (hm : s.rings[m].RestsAt h) :
    (l.foldl State.resetStop s).rings[m].RestsAt h :=
  List.foldlRecOn (motive := fun t : State => t.rings[m].RestsAt h) l _ hm fun t ht n _ => t.resetStop_restsAt n ht

/-- Stopping a list of rings brings each of them to rest at its head. -/
theorem foldl_resetStop_rests (l : List RingNo) (s : State) {m : RingNo} (hm : m ∈ l) :
    (l.foldl State.resetStop s).rings[m].RestsAt s.rings[m].head := by
  induction l generalizing s with
  | nil => cases hm
  | cons n l ih =>
    rcases List.mem_cons.1 hm with rfl | hl
    · exact foldl_resetStop_restsAt l _ (s.resetStop_rests m)
    · exact s.resetStop_head n m ▸ ih (s.resetStop n) hl

/-! ### The function-wide reset (R72) -/

/-- A recovery leaves every head where its register shows it (R7). -/
theorem State.heal_head (s : State) (n : RingNo) : s.heal.rings[n].head = s.rings[n].head := by
  unfold State.heal
  split
  · simp [State.recover, Ring.recover]
  · rfl

theorem State.heal_applied (s : State) : s.heal.applied = s.applied := by
  unfold State.heal
  split <;> rfl

/-- A function-wide reset has begun: it is busy, and no replay goes on. -/
def State.resetBegun (s : State) : State :=
  (if s.heal.jnl.replay.isSome then s.heal.stopReplay else s.heal).onPw
    fun p => { p with busy := true, drain := none, shut := decide (p.st = .shutdown) }

theorem State.resetBegun_head (s : State) (n : RingNo) : s.resetBegun.rings[n].head = s.rings[n].head := by
  rw [← s.heal_head n, State.resetBegun, State.onPw_rings]
  split <;> rfl

theorem State.resetBegun_applied (s : State) : s.resetBegun.applied = s.applied := by
  rw [← s.heal_applied, State.resetBegun, State.onPw_applied]
  split <;> rfl

/-- Step 1 of R72: every ring is stopped. -/
def State.halted (s : State) : State := (List.finRange 4).foldl State.resetStop s.resetBegun

theorem State.halted_rests (s : State) (n : RingNo) : s.halted.rings[n].RestsAt s.rings[n].head :=
  s.resetBegun_head n ▸ foldl_resetStop_rests (List.finRange 4) s.resetBegun (List.mem_finRange n)

theorem State.halted_apart (s : State) : s.halted.apart = s.resetBegun.apart :=
  List.foldlRecOn (motive := fun t : State => t.apart = s.resetBegun.apart) _ _ rfl fun t ht n _ => (t.resetStop_apart n).trans ht

theorem State.halted_busy (s : State) : s.halted.pw.busy = true := by
  rw [pw_of_apart s.halted_apart]
  rfl

theorem State.halted_applied (s : State) : s.halted.applied = s.applied :=
  (applied_of_apart s.halted_apart).trans s.resetBegun_applied

/-- The end of step 2 reaches nothing that the rings' stop and the discard of the staged copies have set. -/
@[simp] theorem State.drainEnd_leaves (s : State) :
    s.drainEnd.rings = s.rings ∧ s.drainEnd.pw.busy = s.pw.busy ∧ s.drainEnd.shadow = s.shadow ∧ s.drainEnd.pend = s.pend := by
  unfold State.drainEnd State.resetPark
  split <;> exact ⟨rfl, rfl, rfl, rfl⟩

/-- After step 1 a function-wide reset leaves the rings alone; it discards what is staged (R72, R110). -/
theorem State.functionReset_halted (s : State) :
    s.functionReset.rings = s.halted.rings ∧ s.functionReset.pw.busy = s.halted.pw.busy ∧
      s.functionReset.shadow = s.halted.applied ∧ s.functionReset.pend = ⟨none, none, none, none⟩ := by
  unfold State.functionReset State.halted State.resetBegun
  dsimp only
  generalize (List.finRange 4).foldl State.resetStop _ = t
  simp [apply_ite State.rings, apply_ite State.pw, apply_ite Power.busy, apply_ite State.shadow, apply_ite State.pend]

/-- The key 0xC3 begins a function-wide reset unless one is busy (R72). -/
theorem State.writeReg_pwrReset (s : State) (h : s.pw.busy = false) : s.writeReg .pwrReset 0xC3 = s.functionReset :=
  if_pos ⟨by decide, .inl h⟩

/-- Settles O22: `State.writeReg_enabled_ring` and `State.writeRingCtl_enabled_fields` for an enabled ring, `State.writeRingCtl_starts`
for the enable, `State.halted_rests` for the reset. -/
theorem ringWrites : Obligations.RingWrites := by
  unfold Obligations.RingWrites
  refine ⟨fun s n v => ⟨fun h => ?_, fun h => s.writeReg_ringHead_working h v⟩, fun s n v hoff hidle hv hedge => ?_, fun s n h => ?_⟩
  · obtain ⟨hbase, htail, hheadAddr, hhead⟩ := s.writeReg_enabled_ring h v
    exact ⟨hbase, htail, hheadAddr, hhead, s.writeRingCtl_enabled_fields h v⟩
  · exact s.writeRingCtl_starts hoff hidle hv hedge
  · obtain ⟨hrings, hbusy, hshadow, hpend⟩ := s.functionReset_halted
    obtain ⟨henabled, hfetch, hhead, hfetched⟩ := s.halted_rests n
    rw [s.writeReg_pwrReset h, hrings, hbusy, hshadow, hpend]
    exact ⟨s.halted_busy, henabled, hfetch, hhead, hfetched, s.halted_applied, rfl⟩

end Sys2Proof.Machine

/-! SUPPORT. Sequence numbers of the journal and the slots of its region. The proof of O44 (R329). -/

namespace Sys2Proof.Machine

/-! ### The order of sequence numbers (R329) -/

/-- How far a lies ahead of b, modulo 2^24, decides the order. -/
theorem newer_iff (a b : BitVec 24) : newer a b = true ↔ 1 ≤ (a - b).toNat ∧ (a - b).toNat ≤ 2 ^ 23 - 1 := by
  simp only [newer, Bool.and_eq_true, decide_eq_true_eq]

theorem toNat_seq_sub (a b : BitVec 24) : (a - b).toNat = (a.toNat + 2 ^ 24 - b.toNat) % 2 ^ 24 := by
  have hb : b.toNat < 2 ^ 24 := b.isLt
  rw [BitVec.toNat_sub, Nat.add_comm, Nat.add_sub_assoc hb.le]

theorem newer_irrefl (a : BitVec 24) : newer a a = false := by
  rw [← Bool.not_eq_true, newer_iff, BitVec.sub_self]
  decide

/-- The two distances sum to 2^24, so at most one of them lies below 2^23. -/
theorem newer_asymm {a b : BitVec 24} (h : newer a b = true) : newer b a = false := by
  rw [← Bool.not_eq_true, newer_iff, toNat_seq_sub]
  rw [newer_iff, toNat_seq_sub] at h
  omega

/-- Of two numbers of a run shorter than 2^23 the later is the newer, across the wrap too. -/
theorem newer_add_ofNat (a : BitVec 24) {k : Nat} (hpos : 1 ≤ k) (hlt : k < 2 ^ 23) : newer (a + BitVec.ofNat 24 k) a = true := by
  have hdist : (a + BitVec.ofNat 24 k - a).toNat = k := by
    rw [BitVec.add_comm, BitVec.add_sub_cancel, BitVec.toNat_ofNat, Nat.mod_eq_of_lt (by omega)]
  rw [newer_iff, hdist]
  omega

/-! ### The slots of a region -/

/-- Whole slots in whole sectors are no more than the slots of 576 bytes that would fit without the sectors' borders. -/
theorem slotsInRegion_le (s z : Nat) : slotsInRegion s z ≤ z / 576 := by
  rw [Nat.le_div_iff_mul_le (by decide)]
  calc z / s * (s / 576) * 576
      = z / s * (s / 576 * 576) := Nat.mul_assoc ..
    _ ≤ z / s * s := Nat.mul_le_mul_left _ (Nat.div_mul_le_self s 576)
    _ ≤ z := Nat.div_mul_le_self z s

/-- A region has at most 64 units of 4 KB, whatever JNL_SIZE holds. -/
theorem regionBytes_le (size : Word) : regionBytes size ≤ 4096 * 64 :=
  Nat.mul_le_mul_left _ (max_le (by decide) (min_le_left ..))

/-- Settles O44: the order is `newer_iff` with `newer_irrefl` and `newer_asymm`, a run of consecutive numbers `newer_add_ofNat`, the
bound on the slots `slotsInRegion_le` over the largest region. -/
theorem newerSequence : Obligations.NewerSequence := by
  unfold Obligations.NewerSequence
  refine ⟨fun a b => ⟨?_, newer_irrefl a, ?_⟩, fun ctl size => ?_, fun a k hpos hk => ?_, by decide⟩
  · rw [newer_iff, toNat_seq_sub]
  · rintro ⟨hab, hba⟩
    exact Bool.false_ne_true ((newer_asymm hab).symm.trans hba)
  · exact (slotsInRegion_le _ _).trans (Nat.div_le_div_right (regionBytes_le size))
  · have hnewer := newer_add_ofNat a hpos (by omega)
    exact ⟨hnewer, newer_asymm hnewer⟩

end Sys2Proof.Machine

/-! SUPPORT. The engine's own events: each is a chain of operations that keep the host's settings and of passing edges. What such a chain keeps:
the queue and the test access port always, the settings while the set-up bus rests. The proofs of O6 and O7 (R109, R110, R368, R369). -/

namespace Sys2Proof.Machine

open Sys2Proof.Safety

/-! ### The engine's own events -/

/-- The commands that report an event of the engine's own working. -/
def ownEvent : Instr → Bool
  | .outputLimited .. | .outputLimitRelease .. | .outputFault .. | .pairContention .. | .dwellEnd .. | .frameEnd .. | .updateStart ..
  | .barrierStart .. | .barNRecognised .. | .barrierTimeout .. | .driveGroupApply .. | .supplyGroupApply .. | .windowGroupApply ..
  | .pollTimerExpiry .. | .strapFirstSample .. | .strapSecondSample .. | .addressLatch .. | .wakeQualifierEnd .. | .shutdownTrip ..
  | .shutdownRelease .. | .shutdownExit .. | .uvloAssert .. | .uvloRelease .. | .resetDrainEnd .. | .resetBusyEnd .. | .sequencingStart ..
  | .rampStart .. | .rampStep .. | .setPointSlewStep .. | .railsInRegulation .. | .rampTimeout .. | .dischargeVcomStep ..
  | .dischargeEnd .. | .parkingExit .. | .armedTimeout .. | .heldExit .. | .energyWrap .. | .conversionResult .. | .replayEnd ..
  | .statusPoll .. => true
  | _ => false

/-- What is kept at the end of a chain of kept operations and passing edges that starts where k is kept. -/
inductive Works (k : State) : State → Prop
  | refl : Works k k
  | elapse (s : State) (n : Nat) : Works k s.kept → Works k (s.elapse n).kept

@[simp] theorem works_self (k : State) : Works k k := .refl
@[simp] theorem Works.elapse_kept {k s : State} {n : Nat} (h : Works k s.kept) : Works k (s.elapse n).kept := .elapse s n h
@[simp] theorem Works.waitUntil {k s : State} {n : Nat} (h : Works k s.kept) : Works k (s.waitUntil n).kept := .elapse s _ h

theorem Works.pending {s t : State} (h : Works s.kept t.kept) : t.pending = s.pending := by
  have hall : ∀ {k : State}, Works s.kept k → k.pending = s.pending := by
    intro k hk
    induction hk with
    | refl => rfl
    | elapse x n _ ih => exact (x.elapse_pending n).trans ih
  exact (hall h :)

theorem Works.tap {s t : State} (h : Works s.kept t.kept) : t.tap = s.tap := by
  have hall : ∀ {k : State}, Works s.kept k → k.tap = s.tap := by
    intro k hk
    induction hk with
    | refl => rfl
    | elapse x n _ ih => exact (x.elapse_tap n).trans ih
  exact (hall h :)

/-- While the bus rests no edge changes a setting either. -/
theorem Works.kept {s t : State} (h : Works s.kept t.kept) (hr : s.port.resting = true) : t.kept = s.kept := by
  have hall : ∀ {k : State}, Works s.kept k → k = s.kept := by
    intro k hk
    induction hk with
    | refl => rfl
    | elapse x n _ ih => exact (x.elapse_kept n (by rw [port_of_kept ih]; exact hr)).trans ih
  exact (hall h :)

theorem works_event {dt : Nat} {body : State → State} (hb : ∀ x : State, Works x.kept (body x).kept) {s t : State}
    (h : event dt body s = .next t) : Works s.kept t.kept := by
  have harrive : Works s.kept (s.arrive dt).kept := by simp [State.arrive]
  have htrans : ∀ {a b c : State}, Works a b → Works b c → Works a c := by
    intro a b c hab hbc
    induction hbc with
    | refl => exact hab
    | elapse x n _ ih => exact .elapse x n ih
  rw [next_of_event h, State.settle_kept]
  exact htrans harrive (hb _)

/-- The engine's own events are chains of kept operations and passing edges. -/
theorem exec_ownEvent {c : Instr} (hc : ownEvent c = true) {s t : State} (h : exec c s = .next t) : Works s.kept t.kept := by
  cases c
  case outputLimited | outputLimitRelease | outputFault | pairContention | dwellEnd | frameEnd | updateStart | barrierStart |
      barNRecognised | barrierTimeout | driveGroupApply | supplyGroupApply | windowGroupApply | pollTimerExpiry |
      strapFirstSample | strapSecondSample | addressLatch | wakeQualifierEnd | shutdownTrip | shutdownRelease | shutdownExit |
      uvloAssert | uvloRelease | resetDrainEnd | resetBusyEnd | sequencingStart | rampStart | rampStep | setPointSlewStep |
      railsInRegulation | rampTimeout | dischargeVcomStep | dischargeEnd | parkingExit | armedTimeout | heldExit | energyWrap |
      conversionResult | replayEnd | statusPoll =>
    simp only [exec, execOutputLimited, execOutputLimitRelease, execOutputFault, execPairContention, execDwellEnd, execFrameEnd,
      execUpdateStart, execBarrierStart, execBarNRecognised, execBarrierTimeout, execDriveGroupApply, execSupplyGroupApply,
      execWindowGroupApply, execPollTimerExpiry, execStrapFirstSample, execStrapSecondSample, execAddressLatch,
      execWakeQualifierEnd, execShutdownTrip, execShutdownRelease, execShutdownExit, execUvloAssert, execUvloRelease,
      execResetDrainEnd, execResetBusyEnd, execSequencingStart, execRampStart, execRampStep, execSetPointSlewStep,
      execRailsInRegulation, execRampTimeout, execDischargeVcomStep, execDischargeEnd, execParkingExit, execArmedTimeout,
      execHeldExit, execEnergyWrap, execConversionResult, execReplayEnd, execStatusPoll] at h
    refine works_event (fun x => ?_) h
    (repeat' split) <;> simp
  all_goals cases hc

end Sys2Proof.Machine

/-! SUPPORT. Relations between states that passing edges and settling keep, and the forms of command that add little to them: a chain of edges
and steps, an admission, the end or failure of a transaction. -/

namespace Sys2Proof.Machine

open Sys2Proof.Safety

/-- A relation that goes on through passing edges, the free states behind a host error and settling. -/
structure EdgeRel (R : State → State → Prop) : Prop where
  refl : ∀ s, R s s
  trans : ∀ {a b c}, R a b → R b c → R a c
  elapse : ∀ s n, R s (s.elapse n)
  holdArm : ∀ s, R s s.holdArm
  disturb : ∀ s, R s s.disturb
  settle : ∀ s, R s s.settle

/-- What a command does to any state that it meets, it does within the relation. -/
def Within (R : State → State → Prop) (f : State → Host.Outcome State Fault Refusal) : Prop := ∀ s t : State, f s = .next t → R s t

section
variable {R : State → State → Prop} (hR : EdgeRel R)
include hR

theorem EdgeRel.waitUntil (s : State) (n : Nat) : R s (s.waitUntil n) := hR.elapse s _

theorem EdgeRel.arrive (s : State) (dt : Nat) : R s (s.arrive dt) :=
  hR.trans (hR.elapse s _) (hR.trans (hR.holdArm _) (hR.disturb _))

theorem EdgeRel.event {dt : Nat} {body : State → State} (hb : ∀ x, R x (body x)) : Within R (event dt body) := by
  intro s t h
  rw [next_of_event h]
  exact hR.trans (hR.arrive s dt) (hR.trans (hb _) (hR.settle _))

/-- The first edge of a clocking, where its beginning stays within the relation. -/
theorem EdgeRel.firstEdge (hbegin : ∀ (s : State) (f : Power → Power) (g : EdgeRec → EdgeRec),
      (f s.pw).por = s.pw.por → (f s.pw).rstn = s.pw.rstn → (f s.pw).hck = s.pw.hck → (f s.pw).ctl = s.pw.ctl →
      (g s.edge).shadow0 = s.edge.shadow0 → R s ((s.onPw f).onEdge g)) (s : State) :
    R s s.firstEdge :=
  hR.trans (hbegin s _ _ rfl rfl rfl rfl rfl) (hR.elapse _ 1)

/-- An admission: the entry is taken, a host error perhaps noted, and the row's own effect follows. -/
theorem EdgeRel.admitRow {dt : Nat} {n : RingNo} {ok : Fetched → Bool} {body : Fetched → State → State}
    (htake : ∀ s, R s (s.takeEntry n)) (herr : ∀ (s : State) e, R s (s.err e)) (hb : ∀ f x, R x (body f x)) :
    Within R (admitRow dt n ok body) := by
  unfold Machine.admitRow
  refine hR.event fun x => ?_
  have hnext : R x (if x.edge.noAdmit.getLsbD n.val || x.edge.admitted then x.elapse 1 else x) := by
    split
    · exact hR.elapse x 1
    · exact hR.refl x
  dsimp only
  split
  · exact hR.refl x
  · generalize (if x.edge.noAdmit.getLsbD n.val || x.edge.admitted then x.elapse 1 else x) = y at hnext ⊢
    split
    · split
      · refine hR.trans hnext (hR.trans ?_ (hR.trans (htake _) (hb _ _)))
        split
        · exact herr _ _
        · exact hR.refl y
      · exact hnext
    · exact hnext

theorem EdgeRel.atEdge {f : OpenAccess → State → State} (hf : ∀ o x, R x (f o x)) (s : State) (e : Nat) : R s (s.atEdge e f) := by
  have hwait := hR.waitUntil s e
  unfold State.atEdge
  dsimp only
  split
  · split
    · exact hR.trans hwait (hf _ _)
    · exact hwait
  · exact hwait

theorem EdgeRel.abortTxn (hfails : ∀ (s : State) o t c, R s (s.txnFails o t c)) (hrise : ∀ s : State, R s s.riseNow)
    (s : State) (o : OpenAccess) (t : Txn) (c : Nat) : R s (s.abortTxn o t c) :=
  hR.trans (hfails s o t c) (hR.trans (hR.elapse _ _) (hrise _))

theorem EdgeRel.endTxn (hcut : ∀ (s : State) o t c, R s (s.abortTxn o t c))
    (hend : ∀ (s : State) o t bs, R s (s.txnEnd o t bs)) (s : State) (o : OpenAccess) (t : Txn) (w : Nat) (bs : List Byte) :
    R s (s.endTxn o t w bs) := by
  have habort : ∀ (e : Nat) (x : Txn) (c : Nat), R s (s.atEdge e fun o s => s.abortTxn o x c) :=
    fun e x c => hR.atEdge (fun o y => hcut y o x c) s e
  have hends : ∀ (e : Nat) (x : Txn), R s (s.atEdge e fun o s => s.txnEnd o x bs) :=
    fun e x => hR.atEdge (fun o y => hend y o x bs) s e
  have hite : ∀ {p : Prop} [Decidable p] {a b : State}, R s a → R s b → R s (if p then a else b) := by
    intro p _ a b ha hb
    split
    · exact ha
    · exact hb
  unfold State.endTxn
  dsimp only
  cases Txn.mrdyFails _ _ _ with
  | some e => exact hite (habort _ _ _) (habort _ _ _)
  | none => exact hite (habort _ _ _) (hite (habort _ _ _) (hite (habort _ _ _) (hends _ _)))

theorem EdgeRel.runMrdy (hmrdy : ∀ (s : State) b, R s (s.onMem fun m => { m with mrdy := b })) (l : List Bool) (s : State) :
    R s (s.runMrdy l) := by
  induction l generalizing s with
  | nil => exact hR.refl s
  | cons b l ih => exact hR.trans (hmrdy s b) (hR.trans (hR.elapse _ 1) (ih _))

theorem EdgeRel.memArbitrate (harb : ∀ s : State, R s s.arbitrate) (dt : Nat) : Within R (execMemArbitrate dt) := by
  unfold execMemArbitrate
  refine hR.event fun x => ?_
  have hfirst : R x (if x.mayArbitrate then (if x.edge.arbitrated then x.elapse 1 else x).waitUntil x.mem.rise else x) := by
    split
    · refine hR.trans ?_ (hR.waitUntil _ _)
      split
      · exact hR.elapse x 1
      · exact hR.refl x
    · exact hR.refl x
  dsimp only
  generalize (if x.mayArbitrate then (if x.edge.arbitrated then x.elapse 1 else x).waitUntil x.mem.rise else x) = y at hfirst ⊢
  split
  · exact hR.trans hfirst (harb _)
  · exact hfirst

theorem EdgeRel.memTransactionEnd (hmrdy : ∀ (s : State) b, R s (s.onMem fun m => { m with mrdy := b }))
    (hend : ∀ (s : State) o t w bs, R s (s.endTxn o t w bs)) (dt : Nat) (delay : BusDelay) (bytes : List Byte) :
    Within R (execMemTransactionEnd dt delay bytes) := by
  unfold execMemTransactionEnd
  refine hR.event fun x => ?_
  have hm := hR.runMrdy hmrdy delay.mrdy x
  dsimp only
  split
  · exact hR.refl x
  · split
    · exact hR.trans hm (hend _ _ _ _ _)
    · exact hm

theorem EdgeRel.mrdyStretchTimeout (hmrdy : ∀ (s : State) b, R s (s.onMem fun m => { m with mrdy := b }))
    (habort : ∀ (s : State) o t c, R s (s.abortTxn o t c)) (at_ : StretchSpan) : Within R (execMrdyStretchTimeout at_) := by
  unfold execMrdyStretchTimeout
  refine hR.event fun x => ?_
  have hm := hR.runMrdy hmrdy (at_.mrdy ++ [false]) x
  dsimp only
  split
  · exact hR.refl x
  · split
    · split
      · exact hR.trans hm (hR.atEdge (fun o y => habort y o _ 1) _ _)
      · exact hm
    · exact hm

theorem EdgeRel.mdqsTimeout (hmrdy : ∀ (s : State) b, R s (s.onMem fun m => { m with mrdy := b }))
    (hend : ∀ (s : State) o t w bs, R s (s.endTxn o t w bs)) (at_ : StretchSpan) : Within R (execMdqsTimeout at_) := by
  unfold execMdqsTimeout
  refine hR.event fun x => ?_
  have hm := hR.runMrdy hmrdy at_.mrdy x
  dsimp only
  split
  · exact hR.refl x
  · split
    · split
      · exact hR.trans hm (hend _ _ _ _ _)
      · exact hm
    · exact hm

end

end Sys2Proof.Machine

/-! SUPPORT. What commands keep while the set-up bus rests: the port and the host's registers, and where no host error can come the wildness
too; and what every command keeps of the queue and the test access port. The proofs of O6 and O7. -/

namespace Sys2Proof.Machine

open Sys2Proof.Safety

/-! ### While the bus rests -/

/-- While the bus rests the port stays as it is and so does what v shows. -/
def RestKeeps {α : Type} (v : State → α) (s t : State) : Prop := s.port.resting = true → t.port = s.port ∧ v t = v s

theorem restKeeps_trans {α : Type} {v : State → α} {a b c : State} (hab : RestKeeps v a b) (hbc : RestKeeps v b c) : RestKeeps v a c := by
  intro hr
  obtain ⟨hp, hva⟩ := hab hr
  obtain ⟨hq, hvb⟩ := hbc (by rw [hp]; exact hr)
  exact ⟨hq.trans hp, hvb.trans hva⟩

section
variable {α : Type} {v : State → α} (hv : ∀ {s t : State}, t.kept = s.kept → v t = v s)
include hv

theorem restKeeps_of_kept {s t : State} (h : t.kept = s.kept) : RestKeeps v s t := fun _ => ⟨port_of_kept h, hv h⟩

theorem restKeeps_of_works {s t : State} (h : Works s.kept t.kept) : RestKeeps v s t :=
  fun hr => ⟨port_of_kept (h.kept hr), hv (h.kept hr)⟩

theorem restKeeps_edgeRel : EdgeRel (RestKeeps v) where
  refl _ := fun _ => ⟨rfl, rfl⟩
  trans := restKeeps_trans
  elapse s n := restKeeps_of_works hv (.elapse s n .refl)
  holdArm s := restKeeps_of_kept hv s.holdArm_kept
  disturb s := restKeeps_of_kept hv s.disturb_kept
  settle s := restKeeps_of_kept hv s.settle_kept

end

theorem hostSet_of_settings {s t : State} (h : t.settings = s.settings) (hp : t.port = s.port) : hostSet t = hostSet s := by
  have hctl : t.pw.ctl = s.pw.ctl := (congrArg (fun x : State => x.pw.ctl) h :)
  unfold hostSet
  rw [h, hp, hctl]

theorem hostSet_of_kept {s t : State} (h : t.kept = s.kept) : hostSet t = hostSet s :=
  hostSet_of_settings (settings_of_kept h) (port_of_kept h)

/-- The host's registers with the host error in force. -/
def hostWild (s : State) : State × Option HostError := (hostSet s, s.wild)

theorem hostWild_of_kept {s t : State} (h : t.kept = s.kept) : hostWild t = hostWild s :=
  Prod.ext (hostSet_of_kept h) (congrArg State.wild h :)

theorem restKeeps_of_settings {s t : State} (h : t.settings = s.settings) (hp : t.port = s.port) : RestKeeps hostSet s t :=
  fun _ => ⟨hp, hostSet_of_settings h hp⟩

/-- Where HCK runs and nothing holds the core, its first clocking begins; nothing of the host's changes by it. -/
theorem clockingBegins_restKeeps (s : State) : RestKeeps hostWild s (if s.ticking then s.firstEdge else s) := by
  intro hr
  split
  · exact ⟨port_of_kept (s.firstEdge_kept hr), hostWild_of_kept (s.firstEdge_kept hr)⟩
  · exact ⟨rfl, rfl⟩

theorem clockingBegins_restKeeps' {s t : State} (h : RestKeeps hostWild s t) :
    RestKeeps hostWild s (if t.ticking then t.firstEdge else t) :=
  restKeeps_trans h (clockingBegins_restKeeps t)

theorem loadIr_restKeeps (s : State) (c : TapCtl) {op : BitVec 4} (ho : testMode op = false) : RestKeeps hostWild s (s.loadIr c op) := by
  unfold State.loadIr
  dsimp only
  rw [ho, if_neg Bool.false_ne_true]
  split
  · exact fun _ => ⟨rfl, rfl⟩
  · split
    · exact clockingBegins_restKeeps' (fun _ => ⟨rfl, rfl⟩)
    · exact fun _ => ⟨rfl, rfl⟩

theorem updateIr_restKeeps (s : State) (tms : List Bool) {op : BitVec 4} (ho : testMode op = false) :
    RestKeeps hostWild s (s.updateIr tms op) := by
  unfold State.updateIr
  split
  · exact loadIr_restKeeps s _ ho
  · exact fun _ => ⟨rfl, rfl⟩

theorem onTap_restKeeps (s : State) (c : TapCtl) (tms : List Bool) (f : Tap → Tap) : RestKeeps hostWild s (s.onTap c tms f) := by
  unfold State.onTap
  split
  · exact fun _ => ⟨rfl, rfl⟩
  · split <;> exact fun _ => ⟨rfl, rfl⟩

theorem captureDr_keeps (s : State) (tms : List Bool) (pins : BitVec 44) (o : Observation) :
    RestKeeps hostWild s (s.captureDr tms pins o) := by
  have hnear : ∀ f : Supply → Supply, (f s.sup).vlim = s.sup.vlim → RestKeeps hostWild s (s.onSup f) :=
    fun f h => restKeeps_of_kept hostWild_of_kept (s.onSup_kept f h)
  have hE := restKeeps_edgeRel hostWild_of_kept
  unfold State.captureDr
  exact hE.trans (hnear _ rfl) (hE.trans (onTap_restKeeps _ _ _ _) fun _ => ⟨rfl, rfl⟩)

theorem tapShift_restKeeps (tap : TapSpan) (ir tdi : Bool) : Within (RestKeeps hostWild) (execTapShift tap ir tdi) := by
  unfold execTapShift
  refine (restKeeps_edgeRel hostWild_of_kept).event fun x => ?_
  dsimp only
  generalize (if ir then TapCtl.shiftIr else TapCtl.shiftDr) = c
  split
  · unfold State.enterShift
    split <;> exact fun _ => ⟨rfl, rfl⟩
  · exact onTap_restKeeps _ _ _ _

theorem restKeeps_event {dt : Nat} {body : State → State} (hb : ∀ x, RestKeeps hostWild x (body x)) :
    Within (RestKeeps hostWild) (event dt body) :=
  (restKeeps_edgeRel hostWild_of_kept).event hb

theorem porRelease_restKeeps (dt : Nat) : Within (RestKeeps hostWild) (execPorRelease dt) := by
  unfold execPorRelease
  refine restKeeps_event fun x => ?_
  split
  · exact clockingBegins_restKeeps' (fun _ => ⟨rfl, rfl⟩)
  · exact fun _ => ⟨rfl, rfl⟩

theorem rstnRelease_restKeeps (dt : Nat) : Within (RestKeeps hostWild) (execRstnRelease dt) := by
  unfold execRstnRelease
  refine restKeeps_event fun x => ?_
  split
  · exact fun _ => ⟨rfl, rfl⟩
  · exact clockingBegins_restKeeps' (fun _ => ⟨rfl, rfl⟩)

theorem hckStart_restKeeps (dt : Nat) : Within (RestKeeps hostWild) (execHckStart dt) := by
  unfold execHckStart
  refine restKeeps_event fun x => ?_
  split
  · exact fun _ => ⟨rfl, rfl⟩
  · exact clockingBegins_restKeeps' (fun _ => ⟨rfl, rfl⟩)

theorem mrdyStretchTimeout_restKeeps (at_ : StretchSpan) : Within (RestKeeps hostWild) (execMrdyStretchTimeout at_) := by
  have hE := restKeeps_edgeRel hostWild_of_kept
  have hkept : ∀ {a b : State}, b.kept = a.kept → RestKeeps hostWild a b := restKeeps_of_kept hostWild_of_kept
  exact hE.mrdyStretchTimeout (fun x b => hkept (x.onMem_kept _))
    (hE.abortTxn (fun x o t c => hkept (x.txnFails_kept o t c)) fun x => hkept x.riseNow_kept) at_

theorem testLogicReset_restKeeps (dt : Nat) : Within (RestKeeps hostWild) (execTestLogicReset dt) := by
  unfold execTestLogicReset
  exact restKeeps_event fun x => loadIr_restKeeps x _ (by decide)

theorem samplePreload_restKeeps (tap : TapSpan) : Within (RestKeeps hostWild) (execSamplePreload tap) := by
  unfold execSamplePreload
  exact restKeeps_event fun x => updateIr_restKeeps x _ (by decide)

theorem idcode_restKeeps (tap : TapSpan) : Within (RestKeeps hostWild) (execIdcode tap) := by
  unfold execIdcode
  exact restKeeps_event fun x => updateIr_restKeeps x _ (by decide)

theorem bypass_restKeeps (tap : TapSpan) (op : BitVec 4) : Within (RestKeeps hostWild) (execBypass tap op) := by
  unfold execBypass
  exact restKeeps_event fun x => updateIr_restKeeps x _ (testMode_bypass op)

theorem captureDr_restKeeps (tap : TapSpan) (pins : BitVec 44) (o : Observation) : Within (RestKeeps hostWild) (execCaptureDr tap pins o) := by
  unfold execCaptureDr
  exact restKeeps_event fun x => captureDr_keeps x _ _ _

theorem updateDr_restKeeps (tap : TapSpan) : Within (RestKeeps hostWild) (execUpdateDr tap) := by
  unfold execUpdateDr
  exact restKeeps_event fun x => onTap_restKeeps x _ _ _

theorem captureIr_restKeeps (tap : TapSpan) : Within (RestKeeps hostWild) (execCaptureIr tap) := by
  unfold execCaptureIr
  exact restKeeps_event fun x => onTap_restKeeps x _ _ _

/-- The commands that the registers of the host and the host error outlast: no register write, ring entry, memory-port result or reset. -/
def mildEvent (c : Instr) : Bool := !mayChangeSettings c && !mayErr c && !c matches .clockLoss _

theorem exec_mild {c : Instr} (hc : mildEvent c = true) : Within (RestKeeps hostWild) (exec c) := by
  by_cases ho : ownEvent c = true
  · exact fun s t h => restKeeps_of_works hostWild_of_kept (exec_ownEvent ho h)
  cases c
  case porRelease dt => exact porRelease_restKeeps dt
  case rstnRelease dt => exact rstnRelease_restKeeps dt
  case hckStart dt => exact hckStart_restKeeps dt
  case testLogicReset dt => exact testLogicReset_restKeeps dt
  case samplePreload tap => exact samplePreload_restKeeps tap
  case idcode tap => exact idcode_restKeeps tap
  case bypass tap op => exact bypass_restKeeps tap op
  case captureDr tap pins o => exact captureDr_restKeeps tap pins o
  case updateDr tap => exact updateDr_restKeeps tap
  case captureIr tap => exact captureIr_restKeeps tap
  case tapShift tap ir tdi => exact tapShift_restKeeps tap ir tdi
  case mrdyStretchTimeout at_ => exact mrdyStretchTimeout_restKeeps at_
  all_goals simp [mildEvent, ownEvent, mayChangeSettings, mayErr] at hc ho

end Sys2Proof.Machine

/-! SUPPORT. What remains of the commands that change no setting: ring entries, the intent write, the memory port and clock loss; and the test
access port, which no command but its own and power-on reset reaches. The proofs of O6 and O7. -/

namespace Sys2Proof.Machine

open Sys2Proof.Safety

/-! ### Commands that may meet a host error -/

theorem hostSet_edgeRel : EdgeRel (RestKeeps hostSet) := restKeeps_edgeRel hostSet_of_kept

theorem hostSet_admitRow {dt : Nat} {n : RingNo} {ok : Fetched → Bool} {body : Fetched → State → State}
    (hb : ∀ f x, (body f x).settings = x.settings ∧ (body f x).port = x.port) : Within (RestKeeps hostSet) (admitRow dt n ok body) :=
  hostSet_edgeRel.admitRow (fun s => restKeeps_of_settings (s.takeEntry_settings n) (s.takeEntry_port n))
    (fun s e => restKeeps_of_settings (s.err_settings e) rfl) fun f x => restKeeps_of_settings (hb f x).1 (hb f x).2

theorem execUpdate_hostSet (dt : Nat) (ring : RingNo) : Within (RestKeeps hostSet) (execUpdate dt ring) := by
  unfold execUpdate
  exact hostSet_admitRow fun f x => by simp

theorem execClear_hostSet (dt : Nat) (ring : RingNo) : Within (RestKeeps hostSet) (execClear dt ring) := by
  unfold execClear
  exact hostSet_admitRow fun f x => by simp

theorem execTemp_hostSet (dt : Nat) (ring : RingNo) : Within (RestKeeps hostSet) (execTemp dt ring) := by
  unfold execTemp
  exact hostSet_admitRow fun f x => by simp

theorem execSync_hostSet (dt : Nat) (ring : RingNo) : Within (RestKeeps hostSet) (execSync dt ring) := by
  unfold execSync
  exact hostSet_admitRow fun f x => ⟨by rw [State.finishEntry_settings, State.onRing_settings _ _ _ ⟨rfl, rfl, rfl, rfl, rfl⟩], by simp⟩

theorem execPark_hostSet (dt : Nat) (ring : RingNo) : Within (RestKeeps hostSet) (execPark dt ring) := by
  unfold execPark
  refine hostSet_admitRow fun f x => ?_
  split
  · exact ⟨by rw [State.defer_settings, State.onRing_settings _ _ _ ⟨rfl, rfl, rfl, rfl, rfl⟩], rfl⟩
  · exact ⟨settings_of_kept (x.finishPark_kept ring f.index), by simp⟩

theorem execMark_hostSet (dt : Nat) (ring : RingNo) : Within (RestKeeps hostSet) (execMark dt ring) := by
  unfold execMark
  exact hostSet_admitRow fun f x => ⟨by rw [State.finishEntry_settings, State.onRing_settings _ _ _ ⟨rfl, rfl, rfl, rfl, rfl⟩], by simp⟩

theorem execNop_hostSet (dt : Nat) (ring : RingNo) : Within (RestKeeps hostSet) (execNop dt ring) := by
  unfold execNop
  refine hostSet_admitRow fun f x => ?_
  dsimp only
  split <;> simp

theorem execIntentWrite_hostSet (dt : Nat) (ring : RingNo) : Within (RestKeeps hostSet) (execIntentWrite dt ring) := by
  unfold execIntentWrite
  refine hostSet_edgeRel.event fun x => ?_
  (repeat' split) <;> exact restKeeps_of_settings (by simp) (by simp)

/-! ### The memory port -/

theorem mrdy_hostSet (s : State) (b : Bool) : RestKeeps hostSet s (s.onMem fun m => { m with mrdy := b }) :=
  restKeeps_of_settings (s.onMem_settings _) rfl

theorem endTxn_hostSet (s : State) (o : OpenAccess) (x : Txn) (w : Nat) (bs : List Byte) : RestKeeps hostSet s (s.endTxn o x w bs) :=
  hostSet_edgeRel.endTxn (hostSet_edgeRel.abortTxn (fun s o x c => restKeeps_of_settings (s.txnFails_settings o x c) (s.txnFails_port o x c))
      fun s => restKeeps_of_settings s.riseNow_settings s.riseNow_port)
    (fun s o x bs => restKeeps_of_settings (s.txnEnd_settings o x bs) (s.txnEnd_port o x bs)) s o x w bs

theorem execMemArbitrate_hostSet (dt : Nat) : Within (RestKeeps hostSet) (execMemArbitrate dt) :=
  hostSet_edgeRel.memArbitrate (fun s => restKeeps_of_settings s.arbitrate_settings s.arbitrate_port) dt

/-! ### Clock loss -/

theorem clockLoss_hostSet {dt : Nat} {s t : State} (hr : s.port.resting = true) (h : execClockLoss dt s = .next t) :
    hostSet t = hostSet s := by
  have ha : (s.arrive dt).port = s.port := s.arrive_port dt hr
  have hclose : hostSet (s.arrive dt).closeEdge = hostSet s :=
    hostSet_of_kept ((kept_of_fixed ((s.arrive dt).closeEdge_resting (by rw [ha]; exact hr))).trans (s.arrive_kept dt hr))
  have hstop : ∀ x : State, hostSet x.stopReplay = hostSet x := fun x => hostSet_of_kept x.stopReplay_kept
  have hdrop : ∀ x : State, hostSet ((x.dropBus.goTo .dormant).onPw fun p => { p with qual := false }) = hostSet x := fun _ => rfl
  have hcut : ∀ (x : State) (c : Cut), hostSet ((x.cutPower c).setStatus (bitMask 0)) = hostSet x :=
    fun x c => hostSet_of_kept (by rw [State.setStatus_kept, State.cutPower_kept])
  have hall : ∀ (x : State) (c : Cut), hostSet (x.interruptAll c) = hostSet x := fun x c => hostSet_of_kept (x.interruptAll_kept c)
  have hoff : ∀ x : State, hostSet (x.onPw fun p => { p with hck := false }) = hostSet x := fun _ => rfl
  rw [next_of_event h, hostSet_of_kept (State.settle_kept _)]
  dsimp only
  split
  · exact hostSet_of_kept (s.arrive_kept dt hr)
  · split
    · exact (hoff _).trans hclose
    · split <;> simp only [hcut, hall, hdrop] <;> split <;> simp only [hstop, hoff, hclose]

theorem exec_hostSet {c : Instr} (hc : mayChangeSettings c = false) {s t : State} (hr : s.port.resting = true)
    (h : exec c s = .next t) : hostSet t = hostSet s := by
  by_cases hm : mildEvent c = true
  · exact congrArg Prod.fst (exec_mild hm s t h hr).2
  cases c
  case clockLoss dt => exact clockLoss_hostSet hr h
  case update dt n => exact (execUpdate_hostSet dt n s t h hr).2
  case clear dt n => exact (execClear_hostSet dt n s t h hr).2
  case temp dt n => exact (execTemp_hostSet dt n s t h hr).2
  case sync dt n => exact (execSync_hostSet dt n s t h hr).2
  case park dt n => exact (execPark_hostSet dt n s t h hr).2
  case mark dt n => exact (execMark_hostSet dt n s t h hr).2
  case nop dt n => exact (execNop_hostSet dt n s t h hr).2
  case intentWrite dt n => exact (execIntentWrite_hostSet dt n s t h hr).2
  case memArbitrate dt => exact (execMemArbitrate_hostSet dt s t h hr).2
  case memTransactionEnd dt d bs => exact (hostSet_edgeRel.memTransactionEnd mrdy_hostSet endTxn_hostSet dt d bs s t h hr).2
  case mdqsTimeout a => exact (hostSet_edgeRel.mdqsTimeout mrdy_hostSet endTxn_hostSet a s t h hr).2
  all_goals simp [mildEvent, mayChangeSettings, mayErr] at hc hm

/-- Settles O6: a chain of the engine's own events keeps its settings while the bus rests (`exec_mild`), and so does each of the others. -/
theorem hostRegistersKept : Obligations.HostRegistersKept := by
  unfold Obligations.HostRegistersKept
  exact fun c s t hc hr h => exec_hostSet hc hr h

end Sys2Proof.Machine

/-! SUPPORT. The queue and the test access port: no command but the port's own and power-on reset reaches the port, and none reaches the
queue. The proofs of O7 (R368, R369) and O1, and a part of O3's. -/

namespace Sys2Proof.Machine

open Sys2Proof.Safety

/-! ### Beside the engine -/

/-- The test access port and the queue. -/
def aside (s : State) : Tap × List Instr := (s.tap, s.pending)

/-- The test access port and the queue stay. -/
def Aside (s t : State) : Prop := aside t = aside s

theorem aside_of_settings {s t : State} (h : t.settings = s.settings) : Aside s t := (congrArg aside h :)
theorem aside_of_kept {s t : State} (h : t.kept = s.kept) : Aside s t := (congrArg aside h :)
theorem aside_of_rooted {s t : State} (h : t.rooted = s.rooted) : Aside s t := (congrArg aside h :)

theorem Aside.trans {a b c : State} (hab : Aside a b) (hbc : Aside b c) : Aside a c := Eq.trans hbc hab

theorem aside_ite {p : Prop} [Decidable p] {s a b : State} (ha : Aside s a) (hb : Aside s b) : Aside s (if p then a else b) := by
  split
  · exact ha
  · exact hb

theorem State.elapse_aside (s : State) (n : Nat) : Aside s (s.elapse n) := Prod.ext (s.elapse_tap n) (s.elapse_pending n)

theorem aside_edgeRel : EdgeRel Aside where
  refl _ := rfl
  trans := Aside.trans
  elapse := State.elapse_aside
  holdArm s := aside_of_kept s.holdArm_kept
  disturb s := aside_of_kept s.disturb_kept
  settle s := aside_of_kept s.settle_kept

theorem State.firstEdge_aside (s : State) : Aside s s.firstEdge :=
  aside_edgeRel.firstEdge (fun _ _ _ _ _ _ _ _ => rfl) s

theorem clockingBegins_aside {s t : State} (h : Aside s t) : Aside s (if t.ticking then t.firstEdge else t) :=
  h.trans (aside_ite t.firstEdge_aside rfl)

/-! ### Power and reset -/

theorem State.rstnState_aside (s : State) : Aside s s.rstnState := (congrArg aside s.fastDischarge_kept :)

theorem execPorRelease_aside (dt : Nat) : Within Aside (execPorRelease dt) := by
  unfold execPorRelease
  exact aside_edgeRel.event fun x => aside_ite (clockingBegins_aside rfl) rfl

theorem execRstnAssert_aside (dt : Nat) : Within Aside (execRstnAssert dt) := by
  unfold execRstnAssert
  exact aside_edgeRel.event fun x => aside_ite rfl (State.rstnState_aside _)

theorem execRstnRelease_aside (dt : Nat) : Within Aside (execRstnRelease dt) := by
  unfold execRstnRelease
  exact aside_edgeRel.event fun x => aside_ite rfl (clockingBegins_aside rfl)

theorem execHckStart_aside (dt : Nat) : Within Aside (execHckStart dt) := by
  unfold execHckStart
  exact aside_edgeRel.event fun x => aside_ite rfl (clockingBegins_aside rfl)

theorem execClockLoss_aside (dt : Nat) : Within Aside (execClockLoss dt) := by
  unfold execClockLoss
  refine aside_edgeRel.event fun x => aside_ite rfl ?_
  have hclose : Aside x x.closeEdge := aside_of_rooted x.closeEdge_rooted
  have hoff : ∀ y : State, Aside y (y.onPw fun p => { p with hck := false }) := fun _ => rfl
  have hdrop : ∀ y : State, Aside y ((y.dropBus.goTo .dormant).onPw fun p => { p with qual := false }) := fun _ => rfl
  have hreplay : ∀ y : State, Aside y (if y.jnl.replay.isSome then y.stopReplay else y) :=
    fun y => aside_ite (aside_of_kept y.stopReplay_kept) rfl
  have hcut : ∀ y : State, Aside y ((y.cutPower .clockLoss).setStatus (bitMask 0)) := fun y => aside_of_kept (by simp)
  have hall : ∀ y : State, Aside y (y.interruptAll .clockLoss) := fun y => aside_of_kept (by simp)
  have hopen := hclose.trans (hoff _)
  exact aside_ite hopen (aside_ite (((hopen.trans (hreplay _)).trans (hdrop _)).trans (hcut _))
    (((hopen.trans (hreplay _)).trans (hdrop _)).trans (hall _)))

/-! ### The set-up bus -/

theorem State.runBus_aside (l : BusLevels) (s : State) : Aside s (s.runBus l) := by
  induction l generalizing s with
  | nil => rfl
  | cons x l ih =>
    have hedge : Aside s s.busEdge := aside_ite (s.elapse_aside 1) rfl
    have hpins : ∀ (y : State) (c d : Bool), Aside y (y.setPins c d) := fun _ _ _ => rfl
    have hclose : ∀ y : State, Aside y y.closeEdge := fun y => aside_of_rooted y.closeEdge_rooted
    exact ((hedge.trans (hpins _ _ _)).trans (hclose _)).trans (ih _)

theorem aside_bus {dt : Nat} {l : BusLevels} : Within Aside (event dt fun s => s.runBus l) :=
  aside_edgeRel.event fun x => x.runBus_aside l

theorem execReadCapture_aside (bus : BusSpan) (b : Bool) : Within Aside (execReadCapture bus b) := by
  unfold execReadCapture
  have hseen : ∀ y : State, Aside y (y.barSeen b) := fun _ => aside_ite rfl rfl
  have hlow : ∀ y : State, Aside y y.barLow := fun _ => aside_ite rfl rfl
  refine aside_edgeRel.event fun x => ?_
  have hrun : Aside x ((x.barSeen b).runBus bus.lines) := (hseen x).trans (State.runBus_aside _ _)
  exact aside_ite hrun (hrun.trans (hlow _))

theorem execSclStretchRelease_aside (bus : BusSpan) : Within Aside (execSclStretchRelease bus) := by
  unfold execSclStretchRelease
  refine aside_edgeRel.event fun x => ?_
  have hrun : Aside x (x.runBus bus.lines) := State.runBus_aside _ _
  dsimp only
  split
  · exact hrun.trans (aside_ite (aside_edgeRel.waitUntil _ _) rfl)
  · exact hrun

/-! ### Ring entries and the memory port -/

theorem State.admitCfg_aside (s : State) (n : RingNo) (f : Fetched) : Aside s (s.admitCfg n f) := by
  have hrecords : ∀ (l : List (Nat × Word)) (x : State), Aside x (l.foldl (fun (s : State) (p : Nat × Word) => match recordReg p.1 with
      | some r => s.writeShadow r p.2
      | none => s.err .cfgTarget) x) := by
    refine fun l x => aside_of_rooted (foldl_rooted _ (fun y p => ?_) l x)
    split <;> simp
  have hsnap : ∀ (y : State) (g : Staged), Aside y { y with shadow := g } := fun _ _ => rfl
  have hcommit : ∀ (y : State) (g : BitVec 4) (x : Staged), Aside y (y.commit g x) := fun _ _ _ => rfl
  have hring : ∀ (y : State) (g : Ring → Ring), Aside y (y.onRing n g) := fun _ _ => rfl
  exact ((((hsnap s _).trans (hrecords _ _)).trans (hcommit _ _ _)).trans (hsnap _ _)).trans (hring _ _)

theorem aside_admitRow {dt : Nat} {n : RingNo} {ok : Fetched → Bool} {body : Fetched → State → State}
    (hb : ∀ f x, Aside x (body f x)) : Within Aside (admitRow dt n ok body) :=
  aside_edgeRel.admitRow (fun s => aside_of_kept (s.takeEntry_kept n)) (fun _ _ => rfl) hb

theorem execCfg_aside (dt : Nat) (ring : RingNo) : Within Aside (execCfg dt ring) := by
  unfold execCfg
  exact aside_admitRow fun f x => x.admitCfg_aside ring f

theorem execUpdate_aside (dt : Nat) (ring : RingNo) : Within Aside (execUpdate dt ring) := by
  unfold execUpdate
  exact aside_admitRow fun f x => aside_of_settings (by simp)

theorem execClear_aside (dt : Nat) (ring : RingNo) : Within Aside (execClear dt ring) := by
  unfold execClear
  exact aside_admitRow fun f x => aside_of_settings (by simp)

theorem execTemp_aside (dt : Nat) (ring : RingNo) : Within Aside (execTemp dt ring) := by
  unfold execTemp
  exact aside_admitRow fun f x => aside_of_settings (by simp)

theorem State.finishEntry_onRing_aside (s : State) (n : RingNo) (g : Ring → Ring) (i : BitVec 16) :
    Aside s ((s.onRing n g).finishEntry n i) :=
  Aside.trans (b := s.onRing n g) rfl (aside_of_kept (State.finishEntry_kept _ _ _))

theorem execSync_aside (dt : Nat) (ring : RingNo) : Within Aside (execSync dt ring) := by
  unfold execSync
  exact aside_admitRow fun f x => x.finishEntry_onRing_aside _ _ _

theorem execPark_aside (dt : Nat) (ring : RingNo) : Within Aside (execPark dt ring) := by
  unfold execPark
  exact aside_admitRow fun f x => aside_ite rfl (aside_of_kept (State.finishPark_kept _ _ _))

theorem execMark_aside (dt : Nat) (ring : RingNo) : Within Aside (execMark dt ring) := by
  unfold execMark
  exact aside_admitRow fun f x => x.finishEntry_onRing_aside _ _ _

theorem execNop_aside (dt : Nat) (ring : RingNo) : Within Aside (execNop dt ring) := by
  unfold execNop
  refine aside_admitRow fun f x => ?_
  dsimp only
  split <;> exact aside_of_settings (by simp)

theorem execIntentWrite_aside (dt : Nat) (ring : RingNo) : Within Aside (execIntentWrite dt ring) := by
  unfold execIntentWrite
  refine aside_edgeRel.event fun x => ?_
  (repeat' split) <;> exact aside_of_settings (by simp)

theorem State.abortTxn_aside (s : State) (o : OpenAccess) (x : Txn) (c : Nat) : Aside s (s.abortTxn o x c) :=
  aside_edgeRel.abortTxn (fun s o x c => aside_of_settings (s.txnFails_settings o x c)) (fun _ => rfl) s o x c

theorem State.endTxn_aside (s : State) (o : OpenAccess) (x : Txn) (w : Nat) (bs : List Byte) : Aside s (s.endTxn o x w bs) :=
  aside_edgeRel.endTxn State.abortTxn_aside (fun s o x bs => aside_of_settings (s.txnEnd_settings o x bs)) s o x w bs

/-! ### Every command -/

theorem exec_aside {c : Instr} (hc : isTap c = false) (hp : ∀ dt, c ≠ .powerOnReset dt) : Within Aside (exec c) := by
  by_cases ho : ownEvent c = true
  · exact fun s t h => Prod.ext (exec_ownEvent ho h).tap (exec_ownEvent ho h).pending
  cases c
  case powerOnReset dt => exact absurd rfl (hp dt)
  case porRelease dt => exact execPorRelease_aside dt
  case rstnAssert dt => exact execRstnAssert_aside dt
  case rstnRelease dt => exact execRstnRelease_aside dt
  case hckStart dt => exact execHckStart_aside dt
  case clockLoss dt => exact execClockLoss_aside dt
  case i2cStart | slotCommit | i2cStop | framingAbort | i2cDataByte => exact aside_bus
  case readCapture bus b => exact execReadCapture_aside bus b
  case sclStretchRelease bus => exact execSclStretchRelease_aside bus
  case update dt n => exact execUpdate_aside dt n
  case clear dt n => exact execClear_aside dt n
  case cfg dt n => exact execCfg_aside dt n
  case temp dt n => exact execTemp_aside dt n
  case sync dt n => exact execSync_aside dt n
  case park dt n => exact execPark_aside dt n
  case mark dt n => exact execMark_aside dt n
  case nop dt n => exact execNop_aside dt n
  case intentWrite dt n => exact execIntentWrite_aside dt n
  case memArbitrate dt => exact aside_edgeRel.memArbitrate (fun s => aside_of_settings s.arbitrate_settings) dt
  case memTransactionEnd dt d bs => exact aside_edgeRel.memTransactionEnd (fun _ _ => rfl) State.endTxn_aside dt d bs
  case mrdyStretchTimeout a => exact aside_edgeRel.mrdyStretchTimeout (fun _ _ => rfl) State.abortTxn_aside a
  case mdqsTimeout a => exact aside_edgeRel.mdqsTimeout (fun _ _ => rfl) State.endTxn_aside a
  all_goals simp [isTap, ownEvent] at hc ho

/-- Settles O7: every command but those named keeps what is aside (`exec_aside`), and while the bus rests its port (`exec_keepsPort`). -/
theorem portsIsolated : Obligations.PortsIsolated := by
  unfold Obligations.PortsIsolated
  refine ⟨fun c s t hc hp h => congrArg Prod.fst (exec_aside hc hp s t h), fun c s t hp hc hl hr h => exec_keepsPort c hp hc hl s t hr h,
    fun dt s t hr h => execClockLoss_registers hr h⟩

/-! ### The queue -/

/-- The queue stays. -/
def QueueKept (s t : State) : Prop := t.pending = s.pending

theorem Aside.queueKept {s t : State} (h : Aside s t) : QueueKept s t := congrArg Prod.snd h

theorem QueueKept.trans {a b c : State} (hab : QueueKept a b) (hbc : QueueKept b c) : QueueKept a c := Eq.trans hbc hab

theorem queueKept_event {dt : Nat} {body : State → State} (hb : ∀ x, QueueKept x (body x)) : Within QueueKept (event dt body) :=
  EdgeRel.event (R := QueueKept) {
    refl := fun _ => rfl
    trans := QueueKept.trans
    elapse := fun s n => (s.elapse_aside n).queueKept
    holdArm := fun s => (aside_edgeRel.holdArm s).queueKept
    disturb := fun s => (aside_edgeRel.disturb s).queueKept
    settle := fun s => (aside_edgeRel.settle s).queueKept } hb

@[simp] theorem State.loadIr_queueKept (s : State) (c : TapCtl) (op : BitVec 4) : QueueKept s (s.loadIr c op) := by
  unfold State.loadIr
  dsimp only
  split
  · rfl
  · split
    · split
      · rfl
      · exact QueueKept.trans rfl (State.rstnState_aside _).queueKept
    · split
      · exact QueueKept.trans rfl (clockingBegins_aside rfl).queueKept
      · rfl

@[simp] theorem State.updateIr_queueKept (s : State) (tms : List Bool) (op : BitVec 4) : QueueKept s (s.updateIr tms op) := by
  unfold State.updateIr
  split
  · exact s.loadIr_queueKept _ op
  · rfl

@[simp] theorem State.onTap_queueKept (s : State) (c : TapCtl) (tms : List Bool) (f : Tap → Tap) : QueueKept s (s.onTap c tms f) := by
  unfold State.onTap
  split
  · rfl
  · split <;> rfl

theorem State.enterShift_queueKept (s : State) (c : TapCtl) : QueueKept s (s.enterShift c) := by
  unfold State.enterShift
  split <;> rfl

@[simp] theorem State.captureDr_queueKept (s : State) (tms : List Bool) (pins : BitVec 44) (o : Observation) :
    QueueKept s (s.captureDr tms pins o) := by
  unfold State.captureDr
  exact State.onTap_queueKept (s.onSup _) _ _ _

theorem execTapShift_queueKept (tap : TapSpan) (ir tdi : Bool) : Within QueueKept (execTapShift tap ir tdi) := by
  unfold execTapShift
  refine queueKept_event fun x => ?_
  dsimp only
  generalize (if ir then TapCtl.shiftIr else TapCtl.shiftDr) = c
  split
  · exact x.enterShift_queueKept _
  · exact x.onTap_queueKept _ _ _

theorem exec_queueKept (c : Instr) : Within QueueKept (exec c) := by
  by_cases hc : isTap c = true ∨ ∃ dt, c = .powerOnReset dt
  · cases c
    case powerOnReset dt => exact queueKept_event fun x => (aside_of_kept x.fastDischarge_kept).queueKept
    case tapShift tap ir tdi => exact execTapShift_queueKept tap ir tdi
    case testLogicReset | extest | samplePreload | idcode | clamp | highz | segtest | bypass | captureDr | updateDr | captureIr =>
      intro s t h
      simp only [exec, execTestLogicReset, execExtest, execSamplePreload, execIdcode, execClamp, execHighz, execSegtest, execBypass,
        execCaptureDr, execUpdateDr, execCaptureIr] at h
      refine queueKept_event (fun x => ?_) s t h
      simp
    all_goals simp [isTap] at hc
  · rw [not_or] at hc
    obtain ⟨htap, hpor⟩ := hc
    exact fun s t h => (exec_aside (Bool.not_eq_true _ ▸ htap) (fun dt e => hpor ⟨dt, e⟩) s t h).queueKept

end Sys2Proof.Machine

/-! SUPPORT. The reset values, and the step's queue. The proofs of O1 and O4. -/

namespace Sys2Proof.Machine

open Sys2Proof.Safety

/-- Settles O1. -/
theorem stepRunsFrontCommand : Obligations.StepRunsFrontCommand := by
  unfold Obligations.StepRunsFrontCommand
  intro s c rest h
  rw [step, h]

/-! ### Reset values (Tables 7.3 to 7.24) -/

theorem reset_readReg (r : Reg) : State.reset.readReg r = resetValue r := by
  cases r
  case st r =>
    cases r
    case winBase n | winSize n | winTgt n | winCfg n | gang n => revert n; decide
    all_goals rfl
  case ringCtl n | ringBase n | ringTail n | ringHeadAddr n | ringPoll n | ringDoor n | ringHead n | ringStatus n => revert n; decide
  case fault j =>
    have hnone : State.reset.sup.fault = 0#292 := rfl
    rw [State.readReg, hnone, BitVec.toNat_zero, Nat.zero_shiftRight]
    rfl
  case cnt c => cases c <;> rfl
  all_goals rfl

/-- The reset value of a register that the host writes has its reserved bits 0. -/
theorem resetValue_within {r : Reg} {m : Word} (h : hostMask r = some m) : within (resetValue r) m := by
  cases r
  case st r =>
    obtain rfl := Option.some.inj h
    cases r
    case winBase | winSize | winTgt | winCfg | gang | atlas | tp | vcom | thmCtl => exact BitVec.zero_and
    all_goals decide
  case lock | pwrCtl | pwrSetup | atnEnable | ringCtl | ringBase | ringTail | ringHeadAddr | ringPoll | dcbSel | vlim | jnlBase |
      jnlSize | cnvCtl | barto =>
    obtain rfl := Option.some.inj h
    simp [within, resetValue]
  all_goals cases h

theorem reset_stagedWithin : stagedWithin State.reset.shadow := fun r => by
  have h : State.reset.shadow.get r = resetValue (.st r) := reset_readReg (.st r)
  rw [h]
  exact resetValue_within rfl

theorem reset_reserved : Reserved State.reset := by
  refine ⟨fun r m h => ?_, by decide, by decide, reset_stagedWithin, fun g h => ?_, fun p h => ?_, fun p h => ?_, fun p h => ?_, fun p h => ?_⟩
  · rw [reset_readReg]
    exact resetValue_within h
  all_goals cases h

/-- Settles O4: register by register (`reset_readReg`). -/
theorem resetState : Obligations.ResetState := by
  unfold Obligations.ResetState
  exact ⟨reset_readReg, rfl, rfl, rfl, rfl, reset_reserved, fun c => by cases c <;> decide, by decide, by decide⟩

end Sys2Proof.Machine

/-! SUPPORT. Host errors: which commands can meet one, what the free states behind one keep to, and how a function-wide reset recovers from
it. The proof of O3 (R7, R8, R365). -/

namespace Sys2Proof.Machine

open Sys2Proof.Safety

/-! ### Commands that meet no host error -/

/-- Where no host error is in force and the bus rests, none is in force afterwards. -/
def StaysSound (s t : State) : Prop := s.port.resting = true → s.wild = none → t.wild = none

theorem staysSound_event {dt : Nat} {body : State → State} (hb : ∀ x, StaysSound x (body x)) : Within StaysSound (event dt body) := by
  intro s t h hr hw
  have ha : (s.arrive dt).port = s.port := s.arrive_port dt hr
  have hk : (s.arrive dt).wild = s.wild := (congrArg State.wild (s.arrive_kept dt hr) :)
  rw [next_of_event h, State.settle_wild]
  exact hb _ (by rw [ha]; exact hr) (hk.trans hw)

/-- A reset brings the engine out of every host error that no register holds, and into none. -/
theorem State.rstnState_staysSound (s : State) : StaysSound s s.rstnState := by
  intro _ hw
  show (if s.rstnClear.errorHeld then s.wild else none) = none
  rw [hw, ite_self]

theorem clockingBegins_staysSound {s t : State} (hp : t.port = s.port) (hw : t.wild = s.wild) :
    StaysSound s (if t.ticking then t.firstEdge else t) := by
  intro hr hn
  split
  · have hk : t.firstEdge.wild = t.wild := (congrArg State.wild (t.firstEdge_kept (by rw [hp]; exact hr)) :)
    rw [hk, hw, hn]
  · rw [hw, hn]

theorem State.loadIr_staysSound (s : State) (c : TapCtl) (op : BitVec 4) : StaysSound s (s.loadIr c op) := by
  unfold State.loadIr
  dsimp only
  split
  · exact fun _ h => h
  · split
    · split
      · exact fun _ h => h
      · exact fun hr hw => State.rstnState_staysSound _ hr hw
    · split
      · exact clockingBegins_staysSound rfl rfl
      · exact fun _ h => h

theorem State.updateIr_staysSound (s : State) (tms : List Bool) (op : BitVec 4) : StaysSound s (s.updateIr tms op) := by
  unfold State.updateIr
  split
  · exact s.loadIr_staysSound _ op
  · exact fun _ h => h

theorem execClockLoss_staysSound (dt : Nat) : Within StaysSound (execClockLoss dt) := by
  unfold execClockLoss
  refine staysSound_event fun x hr hw => ?_
  have hclose : x.closeEdge.wild = none := ((congrArg State.wild (kept_of_fixed (x.closeEdge_resting hr)) :) : _ = x.wild).trans hw
  have hcut : ∀ (y : State) (c : Cut), (y.cutPower c).wild = y.wild := fun y c => (congrArg State.wild (y.cutPower_kept c) :)
  have hall : ∀ (y : State) (c : Cut), (y.interruptAll c).wild = y.wild := fun y c => (congrArg State.wild (y.interruptAll_kept c) :)
  dsimp only
  split
  · exact hw
  · split
    · exact hclose
    · split <;> split <;> simp [hcut, hall, hclose, State.dropBus, State.stopReplay]

theorem execRstnAssert_staysSound (dt : Nat) : Within StaysSound (execRstnAssert dt) := by
  unfold execRstnAssert
  refine staysSound_event fun x hr hw => ?_
  dsimp only
  split
  · exact hw
  · exact State.rstnState_staysSound _ hr hw

theorem exec_staysSound {c : Instr} (hc : mayErr c = false) : Within StaysSound (exec c) := by
  intro s t h
  by_cases hm : mildEvent c = true
  · exact fun hr hw => (congrArg Prod.snd (exec_mild hm s t h hr).2 :).trans hw
  cases c
  case clockLoss dt => exact execClockLoss_staysSound dt s t h
  case powerOnReset dt => exact staysSound_event (fun _ _ _ => rfl) s t h
  case rstnAssert dt => exact execRstnAssert_staysSound dt s t h
  case extest | clamp | highz | segtest =>
    simp only [exec, execExtest, execClamp, execHighz, execSegtest] at h
    exact staysSound_event (fun x => x.updateIr_staysSound _ _) s t h
  all_goals simp [mildEvent, mayChangeSettings, mayErr] at hc hm

/-! ### Every command answers -/

theorem exec_answers (c : Instr) (s : State) : ∃ t, exec c s = .next t := by
  cases c <;> exact ⟨_, rfl⟩

end Sys2Proof.Machine

/-! SUPPORT. The bounds of the free states behind a host error, and the recovery from it. The proof of O3. -/

namespace Sys2Proof.Machine

open Sys2Proof.Safety

/-! ### What the free states keep to (R7) -/

theorem clampZ_natAbs_le (c : Nat) (v : Int) : (clampZ (-c) c v).natAbs ≤ c := by
  unfold clampZ; omega

/-- The rails of a free state, by the bounds of R7. -/
theorem boundSupply_limits (s x : State) :
    (s.boundSupply x).vpos ≤ min 160 (fld s.sup.vlim 0 9) ∧ (s.boundSupply x).vneg ≤ min 160 (fld s.sup.vlim 9 9) ∧
      (s.boundSupply x).vcom.natAbs ≤ min 500 (fld s.sup.vlim 18 9) ∧
      ((s.boundSupply x).railsUp = true ↔ (s.boundSupply x).phase ≠ .off) := by
  refine ⟨Nat.min_le_left _ _, Nat.min_le_left _ _, ?_, decide_eq_true_iff⟩
  have h := clampZ_natAbs_le (min 500 (vcomMax s.sup.vlim)) x.sup.vcom
  rw [Nat.cast_min] at h
  exact h

/-- An access that a free state has open lies in its window, and a write in a writable one. -/
theorem boundAccess_write {s : State} {o o' : OpenAccess} (h : s.boundAccess o = some o') (hw : o'.acc.write = true) :
    ∃ w ∈ s.applied.window.win.toList, o'.win = w ∧ w.writable = true ∧ w.hits o'.acc.addr = true ∧ o'.acc.addr + o'.acc.len - 1 ≤ w.last := by
  unfold State.boundAccess at h
  dsimp only at h
  split at h
  · cases h
  next hno =>
    cases h
    have hix : Fin.ofNat 8 (o.wix % 8) = Fin.ofNat 8 o.wix := Fin.ext (Nat.mod_mod o.wix 8)
    have hwin : o.acc.write = true := hw
    simp only [hwin, Bool.true_and, Bool.not_eq_true, Bool.not_eq_false', State.mayWrite, hix, Bool.and_eq_true, decide_eq_true_eq] at hno
    obtain ⟨⟨⟨⟨hwritable, hhits⟩, -⟩, hlast⟩, -⟩ := hno
    exact ⟨_, by simp [Vector.mem_toList_iff], rfl, hwritable, hhits, hlast⟩

theorem OpenAccess.txn_kind (o : OpenAccess) (k : TxKind) (f : Nat) : (o.txn k f).kind = k ∧ (o.txn k f).sel = o.win.selCode := by
  unfold OpenAccess.txn
  dsimp only
  cases k <;> dsimp only <;> (repeat' split) <;> exact ⟨rfl, rfl⟩

/-- A transaction of a kind that stores is run for a write only. -/
theorem OpenAccess.write_of_stores {o : OpenAccess} {k : TxKind} (h : stores (o.fitKind k) = true) : o.acc.write = true := by
  unfold OpenAccess.fitKind at h
  cases hw : o.acc.write with
  | true => rfl
  | false => simp [hw, stores] at h

theorem boundMem_txn {s x : State} {t : Txn} (h : (s.boundMem x).txn = some t) (hs : stores t.kind = true) :
    ∃ o f, (s.boundMem x).cur = some o ∧ o.acc.write = true ∧ t.sel = o.win.selCode ∧ t.sent = (o.txn t.kind f).sent := by
  obtain ⟨o, hcur, hmap⟩ := Option.bind_eq_some_iff.1 h
  obtain ⟨t0, -, rfl⟩ := Option.map_eq_some_iff.1 hmap
  obtain ⟨hkind, hsel⟩ := o.txn_kind (o.fitKind t0.kind) t0.fall
  have hk : ({ o.txn (o.fitKind t0.kind) t0.fall with stretch := t0.stretch } : Txn).kind = o.fitKind t0.kind := hkind
  rw [hk] at hs
  exact ⟨o, t0.fall, hcur, OpenAccess.write_of_stores hs, hsel, by rw [hk]⟩

theorem boundMem_cur {s x : State} {o : OpenAccess} (h : (s.boundMem x).cur = some o) (hw : o.acc.write = true) :
    ∃ w ∈ s.applied.window.win.toList, o.win = w ∧ w.writable = true ∧ w.hits o.acc.addr = true ∧ o.acc.addr + o.acc.len - 1 ≤ w.last := by
  obtain ⟨o0, -, h0⟩ := Option.bind_eq_some_iff.1 h
  exact boundAccess_write h0 hw

/-- A free state has the supply and the memory port of some state, bounded. -/
theorem State.disturb_of_wild {s : State} {e : HostError} (h : s.wild = some e) :
    ∃ x : State, s.disturb.sup = s.boundSupply x ∧ s.disturb.mem = s.boundMem x :=
  ⟨Config.anyState s.free, by simp [State.disturb, h], by simp [State.disturb, h]⟩

/-! ### The recovery -/

/-- Nothing is open at the memory port, and no ring and no replay works. -/
def Unoccupied (s : State) : Prop :=
  (s.mem.cur = none ∧ s.mem.txn = none ∧ s.mem.parked = []) ∧ s.jnl.replay = none ∧ ∀ n : RingNo, s.rings[n].work = none

theorem update?_none {r : Ring} (h : r.work = none) : r.update? = none := by
  unfold Ring.update?; rw [h]

theorem State.onRing_work_none {s : State} {f : Ring → Ring} {n m : RingNo} (h : s.rings[m].work = none)
    (hf : (f s.rings[n]).work = s.rings[n].work) : (s.onRing n f).rings[m].work = none := by
  simp only [State.onRing_rings, Fin.getElem_fin, Vector.getElem_set]
  split
  next e =>
    obtain rfl : n = m := Fin.ext e
    exact hf.trans h
  · exact h

theorem Unoccupied.onRing {s : State} (h : Unoccupied s) (n : RingNo) {f : Ring → Ring} (hf : (f s.rings[n]).work = s.rings[n].work) :
    Unoccupied (s.onRing n f) := by
  obtain ⟨hmem, hreplay, hwork⟩ := h
  exact ⟨hmem, hreplay, fun m => State.onRing_work_none (hwork m) hf⟩

theorem Unoccupied.dropReads {s : State} (h : Unoccupied s) (n : RingNo) (p : Asker → Bool) : Unoccupied (s.dropReads n p) := by
  obtain ⟨⟨hcur, htxn, hparked⟩, hreplay, hwork⟩ := h
  refine ⟨⟨?_, htxn, ?_⟩, hreplay, hwork⟩
  · simp [State.dropReads, State.onMem, hcur]
  · simp [State.dropReads, State.onMem, hparked]

theorem Unoccupied.resetStop {s : State} (h : Unoccupied s) (n : RingNo) : Unoccupied (s.resetStop n) := by
  refine Unoccupied.onRing ?_ n rfl
  unfold State.stopRing
  dsimp only
  have hstop := (h.onRing n (f := fun r => { r with
    bell := false, fetching := .none, fetched := [], probe := false, timer := none, barrier := none, syncNext := false }) rfl).dropReads
      n Asker.isFetch
  have hnone := hstop
  obtain ⟨-, -, hwork⟩ := hnone
  rw [update?_none (hwork n)]
  exact hstop

theorem State.recover_unoccupied (s : State) : Unoccupied s.recover :=
  ⟨⟨rfl, rfl, rfl⟩, rfl, fun n => by simp [State.recover, Ring.recover, Ring.reset]⟩

theorem State.heal_of_healable {s : State} (h : s.healable = true) : s.heal = s.recover := if_pos h

/-- A function-wide reset that recovers the engine stops every ring with nothing open. -/
theorem State.halted_of_healable {s : State} (h : s.healable = true) :
    Unoccupied s.halted ∧ s.halted.wild = none ∧ s.halted.now = s.now := by
  have hbegun : Unoccupied s.resetBegun ∧ s.resetBegun.wild = none ∧ s.resetBegun.now = s.now := by
    have hbegun : s.resetBegun = s.recover.onPw fun p => { p with busy := true, drain := none, shut := decide (p.st = .shutdown) } := by
      unfold State.resetBegun
      rw [State.heal_of_healable h]
      rfl
    rw [hbegun]
    exact ⟨s.recover_unoccupied, rfl, rfl⟩
  refine List.foldlRecOn (motive := fun t : State => Unoccupied t ∧ t.wild = none ∧ t.now = s.now) _ _ hbegun fun t ht n _ => ?_
  obtain ⟨hfree, hwild, hnow⟩ := ht
  exact ⟨hfree.resetStop n, (congrArg State.wild (t.resetStop_kept n) :).trans hwild, (t.resetStop_now n).trans hnow⟩

/-- What is staged is discarded, and no engine votes or holds BAR_N (R72). -/
def State.unstaged (s : State) : State :=
  { s with
    pend := ⟨none, none, none, none⟩
    shadow := s.applied
    cnv := { s.cnv with voted := false, wake := false, drv := false, rel := if s.cnv.drv then s.now else s.cnv.rel } }

theorem State.functionReset_eq (s : State) :
    s.functionReset = if s.halted.mem.cur.isNone && s.halted.mem.txn.isNone then s.halted.unstaged.drainEnd else s.halted.unstaged := by
  unfold State.functionReset State.halted State.resetBegun State.unstaged
  dsimp only

theorem Unoccupied.drainEnd {s : State} (h : Unoccupied s) : Unoccupied s.drainEnd := by
  obtain ⟨⟨hcur, htxn, hparked⟩, hreplay, hwork⟩ := h
  have hpark : List.filter (fun o : OpenAccess => decide (o.acc.prio < 3)) s.mem.parked = [] := by rw [hparked]; rfl
  unfold State.drainEnd State.resetPark
  split <;> exact ⟨⟨hcur, htxn, hpark⟩, hreplay, hwork⟩

theorem State.drainEnd_drain (s : State) : s.drainEnd.wild = s.wild ∧ s.drainEnd.pw.drain = some s.now := by
  unfold State.drainEnd State.resetPark
  split <;> exact ⟨rfl, rfl⟩

theorem Unoccupied.unstaged {s : State} (h : Unoccupied s) : Unoccupied s.unstaged := h

theorem State.functionReset_of_healable {s : State} (h : s.healable = true) :
    Unoccupied s.functionReset ∧ s.functionReset.wild = none ∧ s.functionReset.pw.drain = some s.now := by
  obtain ⟨hfree, hwild, hnow⟩ := State.halted_of_healable h
  rw [State.functionReset_eq]
  generalize s.halted = x at hfree hwild hnow
  obtain ⟨⟨hcur, htxn, -⟩, -, -⟩ := id hfree
  obtain ⟨hdrainWild, hdrain⟩ := x.unstaged.drainEnd_drain
  rw [hcur, htxn]
  exact ⟨hfree.unstaged.drainEnd, hdrainWild.trans hwild, hdrain.trans (congrArg some hnow)⟩

theorem State.writeReg_pwrReset_of_healable {s : State} (h : s.healable = true) : s.writeReg .pwrReset 0xC3 = s.functionReset :=
  if_pos ⟨by decide, .inr h⟩

/-- Settles O3: `exec_answers` and `exec_queueKept`, `exec_staysSound`, the bounds of R7 one by one, `State.functionReset_of_healable`. -/
theorem commandsAnswer : Obligations.CommandsAnswer := by
  unfold Obligations.CommandsAnswer
  refine ⟨fun c s => ?_, fun c s t hc hr h hw => exec_staysSound hc s t h hr hw, fun s e he => ?_, fun s t hw he ht => ?_⟩
  · obtain ⟨t, h⟩ := exec_answers c s
    exact ⟨t, h, exec_queueKept c s t h⟩
  · obtain ⟨x, hsup, hmem⟩ := State.disturb_of_wild he
    rw [hsup, hmem]
    obtain ⟨hpos, hneg, hcom, hup⟩ := boundSupply_limits s x
    exact ⟨rfl, hpos, hneg, hcom, hup, fun o ho hw => boundMem_cur ho hw, fun y hy hs => boundMem_txn hy hs⟩
  · have hh : s.healable = true := by simp [State.healable, hw, he]
    obtain ⟨⟨⟨hcur, htxn, hparked⟩, hreplay, hwork⟩, hwild, hdrain⟩ := State.functionReset_of_healable hh
    obtain ⟨hrings, hbusy, -, -⟩ := s.functionReset_halted
    subst ht
    rw [State.writeReg_pwrReset_of_healable hh]
    refine ⟨hwild, hbusy.trans s.halted_busy, hdrain, hcur, htxn, hparked, hreplay, fun n => ⟨hwork n, ?_⟩⟩
    obtain ⟨hoff, -⟩ := s.halted_rests n
    rw [hrings]
    exact hoff

end Sys2Proof.Machine

/-! SUPPORT. Predicates on the state that the engine's own operations keep: those that see only the host's registers, the staged groups, the
counters, the log, the energy wraps, PWR_HCCNT, the edge count, ATTN_N, the trims and what the memory port has open, and that the few operations on these keep. One lemma for
each operation, for every such predicate. -/

namespace Sys2Proof.Machine

open Sys2Proof.Safety

-- One after the other: a side condition that a tactic fills in waits for all earlier proofs, and would hold a thread while it does.
set_option Elab.async false

/-! ### What such a predicate sees -/

/-- The fields that such a predicate sees, every other erased. -/
def State.seen (s : State) : State :=
  { State.reset with
    now := s.now
    attn := s.attn
    pw := { Power.reset with ctl := s.pw.ctl, hccnt := s.pw.hccnt, trim := s.pw.trim }
    port := { SetupPort.reset with setup := s.port.setup, inForce := s.port.inForce }
    edge := { EdgeRec.none with shadow0 := s.edge.shadow0 }
    applied := s.applied
    shadow := s.shadow
    pend := s.pend
    enable := s.enable
    mem := { MemPort.reset with cur := s.mem.cur.map fun _ => default, txn := s.mem.txn.map fun _ => default }
    rings := s.rings.map Ring.kept
    drv := { Drive.reset with dcbSel := s.drv.dcbSel }
    sup := { Supply.reset with vlim := s.sup.vlim, wraps := s.sup.wraps }
    jnl := { Journal.reset with ctl := s.jnl.ctl, base := s.jnl.base, size := s.jnl.size }
    cnv := { Convoy.reset with ctl := s.cnv.ctl, barto := s.cnv.barto }
    cnt := s.cnt
    log := s.log }

/-- The predicate holds of the state. -/
def Holds (P : State → Prop) (s : State) : Prop := P s

/-- A predicate that the engine's own working keeps. -/
structure Stable (P : State → Prop) : Prop where
  frame : ∀ {s t : State}, Holds P s → t.seen = s.seen → Holds P t
  count : ∀ {s : State} (c : Cnt), Holds P s → Holds P { s with cnt := s.cnt.put c (satAdd c.max (s.cnt.get c) 1) }
  log : ∀ {s : State} (e : LogEntry), s.log.length < 16 → Holds P s → Holds P { s with log := s.log ++ [e] }
  modifyLog : ∀ {s : State} (i : Nat) (f : LogEntry → LogEntry), Holds P s → Holds P { s with log := s.log.modify i f }
  clearLog : ∀ {s : State}, Holds P s → Holds P { s with log := [] }
  wraps : ∀ {s : State} (k : Nat), Holds P s → Holds P (s.onSup fun u => { u with wraps := satAdd 0xFF s.sup.wraps k })
  drive : ∀ {s : State} {p : Pending DriveGroup}, s.pend.drive = some p → Holds P s →
    Holds P { s with applied := { s.applied with drive := p.val }, pend := { s.pend with drive := none } }
  supply : ∀ {s : State} {p : Pending SupplyGroup}, s.pend.supply = some p → Holds P s →
    Holds P { s with applied := { s.applied with supply := p.val } }
  dropSupply : ∀ {s : State}, Holds P s → Holds P { s with pend := { s.pend with supply := none } }
  window : ∀ {s : State} {p : Pending WindowGroup}, s.pend.window = some p → Holds P s →
    Holds P { s with applied := { s.applied with window := p.val }, pend := { s.pend with window := none } }
  thermal : ∀ {s : State} {p : Pending ThermalGroup}, s.pend.thermal = some p → Holds P s →
    Holds P { s with applied := { s.applied with thermal := p.val }, pend := { s.pend with thermal := none } }

theorem holds_ite {P : State → Prop} {c : Prop} [Decidable c] {a b : State} (ha : Holds P a) (hb : Holds P b) :
    Holds P (if c then a else b) := by
  split
  · exact ha
  · exact hb

theorem holds_foldl {P : State → Prop} {α : Type} {f : State → α → State} (hf : ∀ s a, Holds P s → Holds P (f s a)) {l : List α} {s : State}
    (h : Holds P s) : Holds P (l.foldl f s) :=
  List.foldlRecOn (motive := Holds P) l f h fun s hs a _ => hf s a hs

namespace Stable

variable {P : State → Prop} (hP : Stable P) {s : State} (h : Holds P s)
include hP h

/-! ### Fields that it does not see -/

theorem onRing_of_kept {n : RingNo} {f : Ring → Ring} (hf : (f s.rings[n]).kept = s.rings[n].kept) : Holds P (s.onRing n f) := by
  refine hP.frame h ?_
  simp only [State.seen, State.onRing, map_set_of_eq _ _ _ _ hf]

theorem onRing {n : RingNo} {f : Ring → Ring}
    (hf : (f s.rings[n]).ctl = s.rings[n].ctl ∧ (f s.rings[n]).base = s.rings[n].base ∧ (f s.rings[n]).tailAddr = s.rings[n].tailAddr ∧
      (f s.rings[n]).headAddr = s.rings[n].headAddr ∧ (f s.rings[n]).poll = s.rings[n].poll := by exact ⟨rfl, rfl, rfl, rfl, rfl⟩) :
    Holds P (s.onRing n f) := by
  refine hP.onRing_of_kept h ?_
  obtain ⟨hctl, hbase, htail, hhead, hpoll⟩ := hf
  rw [Ring.kept, hctl, hbase, htail, hhead, hpoll]
  rfl

/-- The enable bit aside, a ring keeps its settings. -/
theorem onRing_disable {n : RingNo} : Holds P (s.onRing n fun r => { r with ctl := r.ctl &&& ~~~(1#36) }) := by
  refine hP.onRing_of_kept h ?_
  simp only [Ring.kept, BitVec.and_assoc, BitVec.and_self]

theorem onEdge {f : EdgeRec → EdgeRec} (hf : (f s.edge).shadow0 = s.edge.shadow0 := by rfl) : Holds P (s.onEdge f) :=
  hP.frame h (by simp only [State.seen, State.onEdge, hf])

theorem onSup {f : Supply → Supply} (hf : (f s.sup).vlim = s.sup.vlim ∧ (f s.sup).wraps = s.sup.wraps := by exact ⟨rfl, rfl⟩) :
    Holds P (s.onSup f) :=
  hP.frame h (by simp only [State.seen, State.onSup, hf])

theorem onPw {f : Power → Power}
    (hf : (f s.pw).ctl = s.pw.ctl ∧ (f s.pw).hccnt = s.pw.hccnt ∧ (f s.pw).trim = s.pw.trim := by exact ⟨rfl, rfl, rfl⟩) :
    Holds P (s.onPw f) :=
  hP.frame h (by simp only [State.seen, State.onPw, hf])

theorem onJnl {f : Journal → Journal}
    (hf : (f s.jnl).ctl = s.jnl.ctl ∧ (f s.jnl).base = s.jnl.base ∧ (f s.jnl).size = s.jnl.size := by exact ⟨rfl, rfl, rfl⟩) :
    Holds P (s.onJnl f) :=
  hP.frame h (by simp only [State.seen, State.onJnl, hf])

theorem onThm {f : Thermal → Thermal} : Holds P (s.onThm f) := hP.frame h rfl

theorem onCnv {f : Convoy → Convoy} (hf : (f s.cnv).ctl = s.cnv.ctl ∧ (f s.cnv).barto = s.cnv.barto := by exact ⟨rfl, rfl⟩) :
    Holds P (s.onCnv f) :=
  hP.frame h (by simp only [State.seen, State.onCnv, hf])

theorem onDrv {f : Drive → Drive} (hf : (f s.drv).dcbSel = s.drv.dcbSel := by rfl) : Holds P (s.onDrv f) :=
  hP.frame h (by simp only [State.seen, State.onDrv, hf])

theorem onMem {f : MemPort → MemPort}
    (hf : ((f s.mem).cur.map fun _ => (default : OpenAccess)) = s.mem.cur.map (fun _ => default) ∧
      ((f s.mem).txn.map fun _ => (default : Txn)) = s.mem.txn.map fun _ => default := by exact ⟨rfl, rfl⟩) :
    Holds P (s.onMem f) := by
  obtain ⟨hcur, htxn⟩ := hf
  exact hP.frame h (by simp only [State.seen, State.onMem, hcur, htxn])

theorem onUpdate {n : RingNo} {f : Update → Update} : Holds P (s.onUpdate n f) := by
  refine hP.onRing_of_kept h ?_
  split <;> rfl

theorem goTo {x : EngState} : Holds P (s.goTo x) := hP.frame h rfl
theorem defer {d : Deferred} : Holds P (s.defer d) := hP.frame h rfl
theorem setCause {m : Word} : Holds P (s.setCause m) := hP.frame h rfl
theorem setStatus {m : Word} : Holds P (s.setStatus m) := hP.frame h rfl
theorem setSetupst {m : Word} : Holds P (s.setSetupst m) := hP.frame h rfl
theorem scReads {w : Word} : Holds P (s.scReads w) := hP.frame h rfl
theorem err {e : HostError} : Holds P (s.err e) := hP.frame h rfl
theorem onSlot {q : Nat} {f : OpenSlot → OpenSlot} : Holds P (s.onSlot q f) := hP.frame h rfl
theorem enqueue {a : Access} : Holds P (s.enqueue a) := hP.frame h rfl
theorem checkAhead : Holds P s.checkAhead := by
  refine hP.frame h ?_
  simp only [State.seen, State.checkAhead, Vector.map_map]
  rfl

theorem dropReads {n : RingNo} {p : Asker → Bool} : Holds P (s.dropReads n p) :=
  hP.onMem h ⟨by simp only [Option.map_map]; rfl, rfl⟩

theorem stopReplay : Holds P s.stopReplay :=
  hP.frame h (by simp only [State.seen, State.stopReplay, Option.map_map]; rfl)

/-! ### Counters, log, energy -/

theorem putCnt_count {c : Cnt} {e : Bool} : Holds P (s.putCnt c (satAdd c.max (s.cnt.get c) 1) e) :=
  holds_ite (hP.setCause (hP.count c h)) (hP.count c h)

theorem counted {c : Cnt} : Holds P (s.count c) := by
  have hedge : Holds P (s.onEdge fun e => { e with
      cnts := c :: e.cnts
      sats := if satAdd c.max (s.cnt.get c) 1 == c.max && (!bitOf s.cause 25 || !s.edge.sats.isEmpty) then c :: s.edge.sats else s.edge.sats }) :=
    hP.onEdge h
  exact hP.putCnt_count hedge

theorem logged {code detail : Nat} {n : RingNo} {i : Nat} : Holds P (s.log_ code detail n i) := by
  unfold State.log_
  split
  next hlt => exact hP.log _ hlt h
  · refine hP.setCause ?_
    exact hP.frame h rfl

theorem addEnergy {pj : Nat} : Holds P (s.addEnergy pj) := by
  unfold State.addEnergy
  refine hP.setCause ?_
  exact hP.frame (hP.wraps ((s.sup.energy.toNat + (s.sup.energyRem + pj) / 1000000) / 2 ^ 36) h) rfl

theorem drawLogic : Holds P s.drawLogic := hP.addEnergy h

/-! ### Entries, marks, rings -/

theorem finishEntry {n : RingNo} {i : BitVec 16} : Holds P (s.finishEntry n i) := hP.onEdge (hP.onRing h)

theorem requestMark {q : Nat} {k : Asker} : Holds P (s.requestMark q k) := by
  unfold State.requestMark
  split
  · exact h
  · split
    · exact holds_ite h (hP.onSlot (hP.enqueue h))
    · exact hP.onSlot (hP.enqueue h)

theorem tombstone {q : Nat} : Holds P (s.tombstone q) := holds_ite (hP.onSlot h) (hP.requestMark (hP.onSlot h))

theorem discardUpdate {n : RingNo} : Holds P (s.discardUpdate n) := by
  unfold State.discardUpdate
  split
  · dsimp only
    split
    · exact hP.tombstone (hP.dropReads (hP.onRing h))
    · exact hP.dropReads (hP.onRing h)
  · exact h

theorem stopRing {n : RingNo} : Holds P (s.stopRing n) := by
  unfold State.stopRing
  dsimp only
  split
  · exact holds_ite (hP.discardUpdate (hP.dropReads (hP.onRing h))) (hP.onUpdate (hP.dropReads (hP.onRing h)))
  · exact hP.dropReads (hP.onRing h)

theorem fetchFailure {n : RingNo} : Holds P (s.fetchFailure n) :=
  holds_ite (hP.dropReads (hP.onRing (hP.setCause h))) (hP.stopRing (hP.onEdge (hP.onRing_disable (hP.setCause h))))

end Stable

end Sys2Proof.Machine

/-! SUPPORT. A predicate that the engine's own working keeps, over the operations on groups, rails, frames and replays, over what settles on
every edge and over the effects put one edge later. -/

namespace Sys2Proof.Machine

open Sys2Proof.Safety

-- One after the other: a side condition that a tactic fills in waits for all earlier proofs, and would hold a thread while it does.
set_option Elab.async false

namespace Stable

variable {P : State → Prop} (hP : Stable P) {s : State} (h : Holds P s)
include hP h

/-! ### Staged groups and the supply -/

theorem applyDrive : Holds P s.applyDrive := by
  unfold State.applyDrive
  split
  next p hp => exact holds_ite (hP.drive hp h) h
  · exact h

theorem endFoldback : Holds P s.endFoldback := holds_ite (hP.onSup h) h

theorem setPoints {a b : Nat} {c : Int} : Holds P (s.setPoints a b c) := hP.onThm (hP.onSup h)

theorem takeTargets : Holds P s.takeTargets := hP.setPoints h

theorem takeSupply : Holds P s.takeSupply := by
  unfold State.takeSupply
  split
  next p hp => exact holds_ite (hP.frame (hP.supply hp h) rfl) h
  · exact h

theorem completeSupply : Holds P s.completeSupply := by
  have ht := hP.takeSupply h
  unfold State.completeSupply
  dsimp only
  split
  · exact holds_ite ht (holds_ite (hP.dropSupply (hP.takeTargets ht)) (holds_ite (hP.dropSupply ht) ht))
  · exact holds_ite ht (hP.takeTargets ht)

theorem railsOff : Holds P s.railsOff := hP.onSup h

theorem startDischarge : Holds P s.startDischarge := hP.onDrv (hP.onSup h)

theorem fastDischarge : Holds P s.fastDischarge := by
  have hd := hP.onDrv h (f := fun d => { d with frames := none, sliced := false })
  unfold State.fastDischarge
  refine holds_ite hd ?_
  split
  · exact hd
  · exact hP.onSup hd
  · exact hP.onSup hd

/-! ### Interruption and replay -/

theorem interruptRing {c : Cut} {n : RingNo} : Holds P (s.interruptRing c n) := by
  unfold State.interruptRing
  split
  · refine holds_ite ?_ h
    split
    · exact hP.onSlot (hP.onUpdate h)
    · exact hP.onUpdate h
  · exact h

theorem interruptAll {c : Cut} : Holds P (s.interruptAll c) := holds_foldl (fun _ _ hs => hP.interruptRing hs) h

theorem abandonRing {p : Cut → Bool} {n : RingNo} : Holds P (s.abandonRing p n) := by
  unfold State.abandonRing
  split
  · split
    · exact holds_ite h (hP.finishEntry (hP.logged (hP.setStatus h)))
    · exact h
  · exact h

theorem abandonCut {p : Cut → Bool} : Holds P (s.abandonCut p) := holds_foldl (fun _ _ hs => hP.abandonRing hs) h

theorem abandonAll : Holds P s.abandonAll := hP.abandonCut h

theorem dropBarrier {n : RingNo} : Holds P (s.dropBarrier n) := hP.onUpdate (hP.onRing h)

theorem dropBarriers : Holds P s.dropBarriers := holds_foldl (fun _ _ hs => hP.dropBarrier hs) h

theorem askIntent : Holds P s.askIntent := by
  unfold State.askIntent
  split
  · split
    · exact hP.enqueue h
    · exact h
  · exact h

theorem startReplay : Holds P s.startReplay := hP.askIntent (hP.onJnl (hP.goTo h))

theorem replayOver : Holds P s.replayOver := by
  have hj := hP.onJnl (hP.setCause h (m := bitMask 8)) (f := fun j => { j with owed := false })
  exact holds_ite (hP.onJnl hj) hj

theorem resume : Holds P s.resume := holds_ite (hP.startReplay h) (holds_ite (hP.replayOver (hP.goTo h)) (hP.goTo h))

theorem updateOpen : Holds P s.updateOpen := holds_ite (hP.onPw h) h

theorem askScan : Holds P s.askScan := by
  unfold State.askScan
  split
  · exact holds_ite (hP.enqueue h) h
  · exact h

theorem keepOrder {n : RingNo} : Holds P (s.keepOrder n) := hP.onRing h (f := fun r => { r with issued := (s.ringQueue n).map (·.asker) })

theorem onReplaySlot {f : ReplaySlot → ReplaySlot} : Holds P (s.onReplaySlot f) := hP.onJnl h

/-! ### Frames -/

theorem unsense : Holds P s.unsense := holds_ite h (hP.defer h)

theorem noteChange {a b : List Level} {w : List OutNo} {k : Nat} : Holds P (s.noteChange a b w k) := hP.onDrv h

theorem drives {l : List Level} : Holds P (s.drive l) := by
  unfold State.drive
  exact hP.onDrv (hP.noteChange (hP.unsense h))

theorem startFrame {l : List Level} : Holds P (s.startFrame l) := by
  have hd := hP.checkAhead (hP.applyDrive h)
  unfold State.startFrame
  dsimp only
  generalize s.applyDrive.checkAhead = x at hd ⊢
  refine hP.drives (hP.counted ?_)
  exact hP.frame hd rfl

theorem releaseFloats : Holds P s.releaseFloats := hP.onSup h

theorem startReplayFrame : Holds P s.startReplayFrame := by
  unfold State.startReplayFrame
  split
  · split
    · exact hP.startFrame (hP.onReplaySlot (hP.releaseFloats (hP.checkAhead (hP.applyDrive h))))
    · exact h
  · exact h

/-! ### What every edge settles -/

theorem dropGo : Holds P s.dropGo := by
  refine hP.frame h ?_
  simp only [State.seen, State.dropGo, Vector.map_map]
  rfl

theorem settleBar : Holds P s.settleBar := by
  have hfree : Holds P (s.onCnv fun c => { c with drv := false, rel := if c.drv then s.now else c.rel }) := hP.onCnv h
  have hlow : Holds P (s.onCnv fun c => { c with drv := true }) := hP.onCnv h
  have hwake := hP.counted (hP.setCause (hP.onCnv hlow (f := fun c => { c with voted := false, wake := true })) (m := bitMask 24)) (c := .wake)
  exact holds_ite hfree (holds_ite h (holds_ite (holds_ite hfree (hP.dropGo hlow)) (holds_ite hfree
    (holds_ite (hP.onCnv hfree) (holds_ite (holds_ite hwake hlow) hfree)))))

theorem settleSequencing : Holds P s.settleSequencing := by
  unfold State.settleSequencing
  split
  · exact holds_ite h (hP.defer h)
  · exact h

theorem settleWindDown : Holds P s.settleWindDown := by
  unfold State.settleWindDown
  refine holds_ite h ?_
  split
  · exact hP.startDischarge h
  · exact hP.startDischarge h
  · exact h

theorem settleCfg : Holds P s.settleCfg := by
  refine holds_foldl (fun x n hx => ?_) h
  split
  · exact holds_ite (hP.finishEntry hx) hx
  · exact hx

theorem replayCloses : Holds P s.replayCloses := by
  unfold State.replayCloses
  split
  · exact holds_foldl (fun x q hx => holds_ite (hP.onSlot hx) (hP.requestMark (hP.onSlot hx))) (hP.onJnl h)
  · exact h

theorem replayDischarge : Holds P s.replayDischarge := by
  have hj := hP.onJnl h (f := fun j => { j with replay := j.replay.map fun r => { r with stage := .discharge, cur := none } })
  unfold State.replayDischarge
  dsimp only
  split
  · exact hP.startDischarge hj
  · exact hP.startDischarge hj
  · split
    · exact holds_ite (hP.defer hj) (hP.replayCloses hj)
    · exact hj
  · split
    · exact holds_ite (hP.defer hj) (hP.replayCloses hj)
    · exact hj
  · exact hj

theorem replayNext {b : Bool} : Holds P (s.replayNext b) := by
  unfold State.replayNext
  split
  · exact holds_ite (hP.replayDischarge (hP.onJnl h)) (hP.askIntent (hP.onJnl h))
  · exact h

theorem settleReplay : Holds P s.settleReplay := by
  unfold State.settleReplay
  split
  · exact holds_ite h (holds_ite (hP.replayNext h) (holds_ite (holds_ite (hP.defer h) (hP.startReplayFrame h)) h))
  · split
    · exact holds_ite (hP.replayNext h) h
    · exact h

theorem settleCheck : Holds P s.settleCheck := holds_ite (hP.startReplay h) h

theorem holdArm : Holds P s.holdArm := holds_ite (hP.onPw h) h

theorem settle : Holds P s.settle :=
  holds_ite (holds_foldl (fun _ _ hs => hP.keepOrder hs)
    (hP.holdArm (hP.settleBar (hP.settleCfg (hP.settleWindDown (hP.settleSequencing (hP.settleReplay (hP.settleCheck h)))))))) h

/-! ### The end of a discharge, and effects put one edge later -/

theorem enterHeld : Holds P s.enterHeld := hP.setCause (hP.counted (hP.logged (hP.goTo h)))

theorem finishPark {n : RingNo} {i : BitVec 16} : Holds P (s.finishPark n i) := hP.onRing (hP.finishEntry h)

theorem parksFinish : Holds P s.parksFinish := by
  refine holds_foldl (fun x n hx => ?_) h
  split
  · exact hP.finishPark hx
  · exact hx

theorem afterDischarge {b : Bool} : Holds P (s.afterDischarge b) := by
  unfold State.afterDischarge
  split
  · exact holds_ite (hP.enterHeld h) h
  · exact holds_ite (hP.enterHeld h) (hP.goTo h)
  · split
    · exact holds_ite (holds_ite (hP.defer h) (hP.replayCloses h)) h
    · exact h
  · exact h

theorem railsEnded : Holds P s.railsEnded := hP.afterDischarge (hP.parksFinish (hP.onSup (hP.completeSupply (hP.onPw h))))

theorem evalWrange : Holds P s.evalWrange := hP.onThm h

theorem tempTakes : Holds P s.tempTakes :=
  holds_ite (hP.onEdge (hP.evalWrange (hP.onThm (hP.onThm h)))) (hP.onThm h)

theorem resetRing {n : RingNo} : Holds P (s.resetRing n) := by
  have hi := hP.interruptRing h (c := .functionReset) (n := n)
  unfold State.resetRing
  dsimp only
  split
  · split
    · exact holds_ite hi (hP.onRing (hP.logged (hP.setStatus hi)))
    · exact hi
  · exact hi

theorem enterParking : Holds P s.enterParking := by
  have hr : Holds P (if s.pw.busy then (List.finRange 4).foldl State.resetRing s else s) :=
    holds_ite (holds_foldl (fun _ _ hs => hP.resetRing hs) h) h
  unfold State.enterParking
  dsimp only
  refine holds_ite h ?_
  generalize (if s.pw.busy then (List.finRange 4).foldl State.resetRing s else s) = x at hr ⊢
  split
  · exact hP.startDischarge (hP.goTo hr)
  · exact hP.startDischarge (hP.goTo hr)
  · exact hP.goTo hr
  · exact hP.goTo hr
  · exact holds_ite (hP.goTo hr) hr
  · exact hr

theorem forgetUpdates : Holds P s.forgetUpdates := hP.abandonAll (holds_foldl (fun _ _ hs => hP.onUpdate hs) h)

theorem forgetSlots : Holds P s.forgetSlots := hP.forgetUpdates (hP.onPw (hP.onJnl h))

theorem endCodes : Holds P s.endCodes := holds_ite (hP.onSup h) (hP.takeTargets h)

theorem uvloSync {b : Bool} : Holds P (s.uvloSync b) := by
  have hc := hP.setCause h (m := bitMask 12)
  have ha := hP.abandonCut (hP.dropBarriers (hP.logged hc (code := 8) (detail := 0) (n := 0) (i := 0))) (p := (· == .uvlo))
  unfold State.uvloSync
  refine holds_ite hc ?_
  dsimp only
  split
  · exact hP.resume ha
  · exact hP.resume ha
  · exact hP.resume ha
  · exact hP.startReplay (hP.stopReplay ha)
  · exact ha

theorem runDeferred {d : Deferred} : Holds P (s.runDeferred d) := by
  cases d <;> simp only [State.runDeferred]
  case enterArmed => exact holds_ite (hP.onPw (hP.goTo h)) h
  case enterParking => exact hP.enterParking h
  case endRecovery =>
    have he := hP.endCodes (hP.replayOver (hP.onJnl h (f := fun j => { j with replay := none })))
    exact holds_ite (holds_ite (hP.defer (hP.goTo he)) (hP.goTo he)) he
  case openGate => exact hP.onJnl h
  case forgetSlots => exact hP.forgetSlots h
  case dropSequencing =>
    split
    · exact hP.afterDischarge (hP.completeSupply (hP.onSup h))
    · exact h
  case clearDcb => exact hP.onEdge (hP.onDrv h)
  case clearLog => exact hP.frame (hP.clearLog h) rfl
  case tempCurrent => exact hP.tempTakes h
  case floatFaulted => exact hP.unsense (hP.onDrv (hP.onSup h))
  case dropLimited => exact hP.endFoldback (hP.onSup h)
  case replayFrame => exact holds_ite (hP.startReplayFrame h) h
  case leaveHeld => exact holds_ite (hP.goTo h) h
  case railsEnd => exact hP.railsEnded h
  case uvloSeen hit => exact hP.uvloSync h

end Stable

end Sys2Proof.Machine

/-! SUPPORT. PWR_HCCNT over one edge. The proof of O2. -/

namespace Sys2Proof.Machine

open Sys2Proof.Safety

-- One after the other: a side condition that a tactic fills in waits for all earlier proofs, and would hold a thread while it does.
set_option Elab.async false

/-- PWR_HCCNT is c. -/
def HccntIs (c : Word) (s : State) : Prop := s.pw.hccnt = c

theorem hccntIs_stable (c : Word) : Stable (HccntIs c) where
  frame h e := (congrArg (fun x : State => x.pw.hccnt) e :).trans h
  count _ h := h
  log _ _ h := h
  modifyLog _ _ h := h
  clearLog h := h
  wraps _ h := h
  drive _ h := h
  supply _ h := h
  dropSupply h := h
  window _ h := h
  thermal _ h := h

/-- An edge advances PWR_HCCNT by one (R41). -/
theorem State.advance_hccnt (s : State) : s.advance.pw.hccnt = s.pw.hccnt + 1 := by
  have hS := hccntIs_stable (s.pw.hccnt + 1)
  unfold State.advance
  dsimp only
  refine hS.settle (hS.takeSupply (holds_foldl (fun _ _ hx => hS.runDeferred hx) (hS.drawLogic ?_)))
  rfl

theorem State.tick_hccnt (s : State) : s.tick.pw.hccnt = s.closeEdge.pw.hccnt + 1 := s.closeEdge.advance_hccnt

theorem State.disturb_hccnt (s : State) : s.disturb.pw.hccnt = s.pw.hccnt ∧ s.disturb.now = s.now := by
  unfold State.disturb
  split <;> exact ⟨rfl, rfl⟩

/-- The port's part of an edge on which its bus rests reaches no register. -/
theorem State.closeEdge_pw (s : State) (h : s.port.resting = true) : s.closeEdge.pw = s.pw := by
  unfold State.closeEdge
  split
  · rfl
  · rw [s.sampleBus_resting h]
    rfl

/-- Settles O2: one edge is `State.tick`, which `State.advance_hccnt` counts. -/
theorem idleStepIsOneEdge : Obligations.IdleStepIsOneEdge := by
  unfold Obligations.IdleStepIsOneEdge
  intro s hs
  have hstep : step s = .next (s.elapse 1).disturb := by rw [step, hs]
  obtain ⟨hccnt, hnow⟩ := (s.elapse 1).disturb_hccnt
  have hedge : s.ticking = true → (s.elapse 1).disturb.pw.hccnt = s.closeEdge.pw.hccnt + 1 := fun h => by
    rw [hccnt, s.elapse_one h, State.tick_hccnt]
  refine ⟨_, hstep, fun h => ⟨?_, hedge h⟩, fun h hr => ?_, fun h hw => ?_⟩
  · rw [hnow, s.elapse_one h, State.tick_now]
  · rw [hedge h, s.closeEdge_pw hr]
  · rw [State.elapse, if_neg (by simp [h]), State.disturb_of_none _ hw]

end Sys2Proof.Machine

/-! SUPPORT. A predicate that the engine's own working keeps, over register writes: the function-wide reset, the rings' and the journal's
controls, the shadow copies, the counters, and the set-up port that commits them. -/

namespace Sys2Proof.Machine

open Sys2Proof.Safety

-- One after the other: a side condition that a tactic fills in waits for all earlier proofs, and would hold a thread while it does.
set_option Elab.async false

/-! ### Registers that only the host sets -/

/-- The reserved bits of a ring's registers are 0. -/
structure Ring.Clean (r : Ring) : Prop where
  ctl : within r.ctl 0xF7
  base : within r.base 0xFFFFFFFF
  tailAddr : within r.tailAddr 0xFFFFFFFF
  headAddr : within r.headAddr 0xFFFFFFFF
  poll : within r.poll 0xFFFFFF

/-- The reserved bits of the unstaged registers that the host writes are 0. -/
structure HostClean (s : State) : Prop where
  pwrCtl : within s.pw.ctl 0xFFFF
  setup : within s.port.setup 0x1F
  inForce : within s.port.inForce 0x1F
  enable : within s.enable 0x7FFFFFF
  ring : ∀ n : RingNo, s.rings[n].Clean
  dcbSel : within s.drv.dcbSel 0x1FF
  vlim : within s.sup.vlim 0x7FFFFFF
  jnlCtl : within s.jnl.ctl 0x7D
  jnlBase : within s.jnl.base 0xFFFFFFFF
  jnlSize : within s.jnl.size 0x7F
  cnvCtl : within s.cnv.ctl 1
  barto : within s.cnv.barto 0xFFFFFF

/-- What such a predicate sees besides those registers. -/
def State.seenRest (s : State) : State :=
  { State.reset with
    now := s.now
    attn := s.attn
    pw := { Power.reset with hccnt := s.pw.hccnt, trim := s.pw.trim }
    edge := { EdgeRec.none with shadow0 := s.edge.shadow0 }
    applied := s.applied
    shadow := s.shadow
    pend := s.pend
    mem := { MemPort.reset with cur := s.mem.cur.map fun _ => default, txn := s.mem.txn.map fun _ => default }
    sup := { Supply.reset with wraps := s.sup.wraps }
    cnt := s.cnt
    log := s.log }

/-- A predicate that outlasts writes of the host's registers too, their reserved bits written 0, and so every HCK edge. -/
structure Running (P : State → Prop) : Prop extends Stable P where
  poke : ∀ {s t : State}, Holds P s → t.seenRest = s.seenRest → (HostClean s → HostClean t) → Holds P t
  hccnt : ∀ {s : State} (w : Word), Holds P s → Holds P (s.onPw fun p => { p with hccnt := w })
  clocked : ∀ {s : State} (n : Nat) (a b : Bool), Holds P s → Holds P (State.onPw { s with now := n, attn := a } fun p => { p with trim := b })
  newEdge : ∀ {s : State} {e : EdgeRec}, Holds P s → e.shadow0 = none → Holds P { s with edge := e }
  noteShadow : ∀ {s : State} {g : Staged}, Holds P s → Holds P { s with shadow := g } →
    Holds P (s.onEdge fun e => { e with shadow0 := e.shadow0.or (some g) })
  put : ∀ {s : State} (r : StReg) (v : Word), Holds P s → Holds P { s with shadow := s.shadow.put r v }
  commit : ∀ {s : State} (g : BitVec 4), Holds P s → Holds P (s.commit g s.shadow)
  unstage : ∀ {s : State}, Holds P s → Holds P { s with pend := ⟨none, none, none, none⟩, shadow := s.applied }
  frees : ∀ {s : State}, Holds P s → Holds P (s.onMem fun m => { m with cur := none, txn := none })
  setCnt : ∀ {s : State} (c : Cnt) (v : Word) (k : Nat), Holds P s → Holds P { s with cnt := s.cnt.put c (satAdd c.max (v &&& c.max) k) }
  setWraps : ∀ {s : State} (v : Word) (k : Nat), Holds P s → Holds P (s.onSup fun u => { u with wraps := satAdd 0xFF v k })

/-- One that outlasts the accesses of the memory port, the resets and a host error too. -/
structure Enduring (P : State → Prop) : Prop extends Running P where
  olderShadow : ∀ {s : State}, Holds P s → Holds P { s with shadow := s.edge.shadow0.getD s.shadow }
  begins : ∀ {s : State} (o : OpenAccess) (x : Txn), Holds P s → Holds P (s.onMem fun m => { m with cur := some o, txn := some x })
  goesOn : ∀ {s : State} (o : OpenAccess), Holds P s → Holds P (s.onMem fun m => { m with cur := some o })
  rises : ∀ {s : State}, Holds P s → Holds P (s.onMem fun m => { m with txn := none })
  cuts : (∀ {s : State}, Holds P s → Holds P (s.onMem fun m => { m with cur := none })) ∨ ∀ s : State, s.mem.txn = none → Holds P s
  disturb : ∀ {s : State}, Holds P s → Holds P s.disturb
  rstn : ∀ {s : State}, Holds P s → Holds P s.rstnClear
  por : ∀ {s : State}, Holds P s → Holds P s.porState

namespace Running

variable {P : State → Prop} (hP : Running P) {s : State} (h : Holds P s)
include hP h

/-! ### Shadow copies and counters -/

theorem lockViolation : Holds P s.lockViolation := hP.setCause (hP.counted h)

theorem writeShadow {r : StReg} {v : Word} : Holds P (s.writeShadow r v) := by
  have hput := hP.put r v h
  unfold State.writeShadow
  refine holds_ite (hP.lockViolation h) ?_
  dsimp only
  split
  · exact holds_ite (hP.err hput) hput
  · exact hput

theorem hostShadow {r : StReg} {v : Word} : Holds P (s.hostShadow r v) := by
  have hback : Holds P { s.writeShadow r v with shadow := s.shadow } := by
    unfold State.writeShadow
    split
    · have hkeeps : s.lockViolation.shadow = s.shadow := (congrArg State.shadow ((s.count .lockViol).setCause_kept (bitMask 3)) :).trans
        (congrArg State.shadow (s.count_kept .lockViol) :)
      rw [← hkeeps]
      exact hP.lockViolation h
    · dsimp only
      split
      · split
        · exact hP.err h
        · exact h
      · exact h
  exact hP.onEdge (hP.noteShadow (hP.writeShadow h) hback) (f := fun e =>
    { e with shadowWrites := if s.locked r then e.shadowWrites else e.shadowWrites ++ [(r, v)] })

theorem writeCnt {c : Cnt} {v : Word} : Holds P (s.writeCnt c v) := by
  have hedge : ∀ (x : Word) (e : EdgeRec), e.shadow0 = s.edge.shadow0 → Holds P { s with cause := x, edge := e } :=
    fun x e he => hP.frame h (by simp only [State.seen, he])
  unfold State.writeCnt
  refine holds_ite ?_ ?_
  · refine hP.setCause ?_
    exact hP.setCnt c v _ (hedge _ _ rfl)
  · exact hP.setCnt c v _ (hedge _ _ rfl)

theorem writeEnergy {v : Word} : Holds P (s.writeEnergy v) := by
  have hsum := hP.setWraps (s.edge.wraps0.getD s.sup.wraps) ((v.toNat + s.edge.energy) / 2 ^ 36) h
  unfold State.writeEnergy
  dsimp only
  refine holds_ite ?_ (hP.setCause ?_)
  · exact hP.frame hsum rfl
  · exact hP.frame hsum rfl

/-! ### The function-wide reset -/

theorem idlePort : Holds P (s.onMem fun m => { m with cur := none, txn := none }) := hP.frees h

theorem resetPark : Holds P s.resetPark := holds_ite (hP.defer h) h

theorem drainEnd : Holds P s.drainEnd := hP.resetPark (hP.onPw (hP.onMem h))

theorem resetStop {n : RingNo} : Holds P (s.resetStop n) := by
  refine hP.onRing_of_kept (hP.stopRing h) ?_
  simp only [Ring.kept, BitVec.and_assoc, BitVec.and_self]

theorem recover : Holds P s.recover := by
  refine hP.frame (hP.frees h) ?_
  simp only [State.seen, State.recover, Vector.map_map, State.onMem]
  have hring : (Ring.kept ∘ Ring.recover) = Ring.kept := by
    funext r
    simp [Ring.kept, Ring.recover, BitVec.and_assoc]
  rw [hring]
  rfl

theorem heal : Holds P s.heal := holds_ite (hP.recover h) h

theorem functionReset : Holds P s.functionReset := by
  have hheal := hP.heal h
  have hbegun : Holds P s.resetBegun := hP.onPw (holds_ite (hP.stopReplay hheal) hheal)
  have hhalted : Holds P s.halted := holds_foldl (fun _ _ hx => hP.resetStop hx) hbegun
  have hstaged : Holds P s.halted.unstaged := by
    generalize s.halted = x at hhalted
    exact hP.frame (hP.unstage hhalted) rfl
  rw [State.functionReset_eq]
  exact holds_ite (hP.drainEnd hstaged) hstaged

/-! ### The host's registers -/

theorem onRing_poke {n : RingNo} {f : Ring → Ring} (hf : s.rings[n].Clean → (f s.rings[n]).Clean) : Holds P (s.onRing n f) := by
  refine hP.poke h rfl fun hc => { hc with ring := fun m => ?_ }
  by_cases hm : n = m
  · subst hm
    simpa using hf (hc.ring n)
  · have hother : (s.onRing n f).rings[m] = s.rings[m] := by simp [Fin.val_ne_of_ne hm]
    rw [hother]
    exact hc.ring m

end Running

theorem within_and (v m : Word) : within (v &&& m) m := by simp [within, BitVec.and_assoc]

namespace Running

variable {P : State → Prop} (hP : Running P) {s : State} (h : Holds P s)
include hP h

theorem writeRingCtl {n : RingNo} {v : Word} : Holds P (s.writeRingCtl n v) := by
  have herr : Holds P (if ringExp v < 2 ∨ 12 < ringExp v then s.err .ringSize else s) := holds_ite (hP.err h) h
  have hset : ∀ x : State, Holds P x → Holds P (x.onRing n fun r =>
      let r := { r with ctl := v &&& 0xF7 }
      if bitOf v 0 then r.start (x.headOpen n) else r) := by
    refine fun x hx => hP.onRing_poke hx fun hc => ?_
    have hctl : Ring.Clean { x.rings[n] with ctl := v &&& 0xF7 } := { hc with ctl := within_and v 0xF7 }
    dsimp only
    split
    · exact { hctl with }
    · exact hctl
  exact holds_ite h (holds_ite (holds_ite h (hP.stopRing (hP.onRing_disable h))) (holds_ite h (hset _ herr)))

theorem journalCheck : Holds P s.journalCheck :=
  holds_ite h (holds_ite (hP.scReads (hP.askScan (hP.onJnl (holds_ite h (hP.err h)))))
    (holds_ite h (hP.scReads (hP.defer (hP.defer (hP.onJnl h))))))

theorem writeJnlCtl {v : Word} : Holds P (s.writeJnlCtl v) := by
  have hctl : ∀ x : State, Holds P x → Holds P (x.onJnl fun j => { j with ctl := v &&& 0x7D }) := fun x hx =>
    hP.poke hx rfl fun hc => { hc with jnlCtl := within_and v 0x7D }
  have herr := hctl _ (holds_ite (hP.err h (e := .journalGeometry)) h
    (c := (s.jnl.ctl ^^^ v) &&& 0x7C ≠ 0 ∧ (s.pw.jopen || !s.jnl.slots.isEmpty) = true))
  exact holds_ite (hP.journalCheck herr) herr

theorem writeRegion {f : Journal → Journal} (hf : HostClean s → HostClean (s.onJnl f)) : Holds P (s.writeRegion f) :=
  holds_ite (hP.lockViolation h) (holds_ite h (hP.poke h rfl hf))

theorem writeVlim {v : Word} : Holds P (s.writeVlim v) := by
  have hset : Holds P (s.onSup fun u => { u with vlim := v &&& 0x7FFFFFF, slew0 := s.now }) :=
    hP.poke h rfl fun hc => { hc with vlim := within_and v 0x7FFFFFF }
  exact holds_ite (hP.lockViolation h) (holds_ite hset (hP.takeTargets hset))

end Running

end Sys2Proof.Machine

/-! SUPPORT. A predicate that the engine's own working and register writes keep, over the set-up port, every HCK edge and every command. -/

namespace Sys2Proof.Machine

open Sys2Proof.Safety

-- One after the other: a side condition that a tactic fills in waits for all earlier proofs, and would hold a thread while it does.
set_option Elab.async false

theorem within_or {a b m : Word} (ha : within a m) (hb : within b m) : within (a ||| b) m := by
  unfold within at *
  rw [BitVec.and_or_distrib_right, ha, hb]
  rfl

namespace Running

variable {P : State → Prop} (hP : Running P) {s : State} (h : Holds P s)
include hP h

/-- A committed write, register by register (R108 to R121). -/
theorem writeReg {r : Reg} {v : Word} : Holds P (s.writeReg r v) := by
  cases r <;> simp only [State.writeReg]
  case tileId => exact holds_ite (hP.lockViolation h) (hP.frame h rfl)
  case lock => exact hP.frame h rfl
  case commit => exact holds_ite h (hP.scReads (hP.commit _ h))
  case pwrStatus => exact hP.onPw h
  case pwrCtl => exact hP.poke h rfl fun hc => { hc with pwrCtl := within_and v _ }
  case hccnt => exact hP.hccnt _ h
  case pwrReset => exact holds_ite (hP.functionReset h) h
  case pwrSetup => exact hP.poke h rfl fun hc => { hc with setup := within_and v _ }
  case pwrSetupst => exact hP.frame h rfl
  case atnCause => exact hP.frame h rfl
  case atnEnable => exact hP.poke h rfl fun hc => { hc with enable := within_or (within_and v _) (by decide) }
  case st r => exact hP.hostShadow h
  case ringCtl n => exact hP.writeRingCtl h
  case ringBase n => exact holds_ite h (hP.onRing_poke h fun hc => { hc with base := within_and v _ })
  case ringTail n => exact holds_ite h (hP.onRing_poke h fun hc => { hc with tailAddr := within_and v _ })
  case ringHeadAddr n => exact holds_ite h (hP.onRing_poke h fun hc => { hc with headAddr := within_and v _ })
  case ringPoll n => exact hP.onRing_poke h fun hc => { hc with poll := within_and v _ }
  case ringDoor n => exact holds_ite (hP.scReads (hP.onRing h)) h
  case ringHead n => exact holds_ite h (hP.onRing h)
  case dcbSel => exact hP.poke h rfl fun hc => { hc with dcbSel := within_and v _ }
  case dcbClr => exact holds_ite (hP.scReads (hP.defer h)) h
  case vlim => exact hP.writeVlim h
  case fault j => exact hP.onSup h
  case energy => exact hP.writeEnergy h
  case energyWrap => exact hP.setWraps _ _ h
  case jnlCtl => exact hP.writeJnlCtl h
  case jnlBase => exact hP.writeRegion h fun hc => { hc with jnlBase := within_and v _ }
  case jnlSize => exact hP.writeRegion h fun hc => { hc with jnlSize := within_and v _ }
  case cnvCtl => exact hP.poke h rfl fun hc => { hc with cnvCtl := within_and v _ }
  case epoch => exact hP.onCnv h
  case barto => exact hP.poke h rfl fun hc => { hc with barto := within_and v _ }
  case cnt c => exact hP.writeCnt h
  case logClr => exact holds_ite (hP.scReads (hP.defer h)) h
  all_goals exact h

theorem writeSlot {k : BitVec 13} {v : Word} : Holds P (s.writeSlot k v) := by
  unfold State.writeSlot
  split
  · exact hP.writeReg h
  · exact h

/-! ### The set-up port -/

theorem onPort {f : SetupPort → SetupPort} (hf : (f s.port).setup = s.port.setup ∧ (f s.port).inForce = s.port.inForce := by exact ⟨rfl, rfl⟩) :
    Holds P (s.onPort f) := by
  obtain ⟨hsetup, hforce⟩ := hf
  exact hP.frame h (by simp only [State.seen, State.onPort, hsetup, hforce])

theorem leaveSlot : Holds P s.leaveSlot := by
  unfold State.leaveSlot
  split
  · exact holds_ite (hP.setSetupst (hP.onPort h)) (hP.onPort h)
  · exact h

theorem enterSlot : Holds P s.enterSlot := by
  unfold State.enterSlot
  split
  · exact holds_ite h (hP.leaveSlot h)
  · exact h

theorem stretch : Holds P s.stretch := holds_ite (hP.onPort h) h

theorem acknowledge : Holds P s.acknowledge := hP.stretch (hP.onPort h)

theorem commitSlot {k : BitVec 13} {v : Word} : Holds P (s.commitSlot k v) := by
  have hw := hP.writeSlot h (k := k) (v := v)
  unfold State.commitSlot
  exact hP.onEdge (holds_ite (hP.settle hw) hw)

theorem writeByte {b : Byte} : Holds P (s.writeByte b) := by
  unfold State.writeByte
  have hb := hP.acknowledge (hP.onPort h (f := fun p => { p with
    buf := some ((s.port.buf.getD ⟨slotOf s.port.ptr, 0, false, []⟩).feed (s.port.ptr.toNat % 8) b).1, ptr := pageNext p.ptr }))
  exact holds_ite (hP.commitSlot hb) hb

theorem capture : Holds P s.capture := by
  unfold State.capture
  dsimp only
  split
  · exact holds_ite h (hP.onPort h)
  · exact hP.onPort h

theorem sendByte : Holds P s.sendByte := by
  unfold State.sendByte
  exact hP.onPort (hP.capture h)

theorem byteEnd : Holds P s.byteEnd := by
  unfold State.byteEnd
  dsimp only
  split
  · exact holds_ite (hP.acknowledge (hP.onPort h)) (hP.onPort h)
  · exact hP.acknowledge (hP.onPort h)
  · exact hP.acknowledge (hP.onPort h)
  · exact hP.writeByte h
  · exact hP.stretch (hP.onPort h)
  · exact h
  · exact h

theorem ackEnd : Holds P s.ackEnd := by
  have ha := hP.onPort h (f := fun p => { p with ack := false, bits := 0, atEnd := true, drive := some false })
  exact holds_ite (holds_ite (hP.sendByte ha) (hP.stretch (hP.sendByte ha))) ha

theorem sclFall : Holds P s.sclFall := by
  have hf := hP.onPort h (f := fun p => { p with atEnd := p.atEnd && p.bits == 0 })
  exact holds_ite h (holds_ite hf (holds_ite (holds_ite (hP.onPort hf) hf) (holds_ite (hP.byteEnd hf) (hP.ackEnd hf))))

theorem takeBit {b : Bool} : Holds P (s.takeBit b) :=
  holds_ite h (holds_ite (hP.onPort (holds_ite (hP.enterSlot h) h)) (hP.onPort h))

theorem endTransaction : Holds P s.endTransaction := hP.onPort (hP.leaveSlot h)

theorem startOrStop : Holds P s.startOrStop := holds_ite (hP.setSetupst (hP.endTransaction h)) (hP.endTransaction h)

theorem stopSeen : Holds P s.stopSeen := hP.poke h rfl fun hc => { hc with inForce := hc.setup }

theorem timed {b : Bool} : Holds P (s.timed b) := by
  have hbad : Holds P (if s.port.phase.takesPart && b then (s.err .busTiming).onPort fun p => { p with broken := true } else s) :=
    holds_ite (hP.onPort (hP.err h)) h
  exact holds_ite (hP.frame hbad rfl) hbad

theorem sampleLines : Holds P s.sampleLines := hP.onPort h

theorem sampleBit : Holds P s.sampleBit := holds_ite (hP.takeBit (hP.sampleLines h)) (hP.sampleLines h)

theorem startMet : Holds P s.startMet := by
  unfold State.startMet
  exact hP.onPort (hP.startOrStop (hP.timed h))

theorem stopMet : Holds P s.stopMet := by
  unfold State.stopMet
  exact hP.onPort (hP.stopSeen (hP.startOrStop (hP.timed h)))

theorem recognise {c d : Bool} : Holds P (s.recognise c d) :=
  holds_ite (hP.sclFall (hP.onPort (hP.timed h))) (holds_ite (hP.onPort (hP.timed h)) (holds_ite (hP.startMet h) (holds_ite (hP.stopMet h) h)))

theorem sampleBus : Holds P s.sampleBus := holds_ite h (holds_ite (hP.recognise (hP.sampleBit h)) (hP.sampleLines h))

theorem closeEdge : Holds P s.closeEdge := holds_ite h (hP.onEdge (hP.sampleBus h))

/-! ### The HCK edge -/

theorem passMrdy {k : Nat} : Holds P (s.passMrdy k) := by
  refine hP.onMem h ⟨rfl, ?_⟩
  dsimp only
  split
  · rw [Option.map_map]
    rfl
  · rfl

theorem advance : Holds P s.advance := by
  have hpass := hP.passMrdy h (k := 1)
  unfold State.advance
  dsimp only
  generalize s.passMrdy 1 = x at hpass ⊢
  obtain ⟨a, b, c, hrun⟩ := x.sup.run_eq x.applied.supply.conv 1
  have hedge := hP.clocked (x.now + 1) x.attnNext (x.pw.trim || x.trimBy (x.now + 1)) (hP.hccnt (x.pw.hccnt + 1) (hP.newEdge hpass (e := EdgeRec.none) rfl))
  refine hP.settle (hP.takeSupply (holds_foldl (fun _ _ hx => hP.runDeferred hx) (hP.drawLogic ?_)))
  rw [hrun]
  exact hP.frame hedge rfl

theorem tick : Holds P s.tick := hP.onEdge (hP.advance (hP.closeEdge h))

theorem coast (k : Nat) : Holds P (s.coast k) := by
  cases k with
  | zero => exact h
  | succ k =>
    have hpass := hP.addEnergy (hP.passMrdy h (k := k + 1)) (pj := Config.logicEnergy * k)
    unfold State.coast
    dsimp only
    generalize (s.passMrdy (k + 1)).addEnergy (Config.logicEnergy * k) = x at hpass ⊢
    obtain ⟨a, b, c, hrun⟩ := x.sup.run_eq x.applied.supply.conv (k + 1)
    have hedge := hP.clocked (x.now + (k + 1)) x.attnNext (x.pw.trim || x.trimBy (x.now + (k + 1)))
      (hP.hccnt (x.pw.hccnt + BitVec.ofNat 36 (k + 1)) (hP.newEdge hpass (e := EdgeRec.none) rfl))
    refine hP.drawLogic ?_
    rw [hrun]
    exact hP.frame hedge rfl

omit h in
theorem glide (n w : Nat) {s : State} (h : Holds P s) : Holds P (s.glide n w) := by
  induction n generalizing w s with
  | zero => exact h
  | succ k ih =>
    unfold State.glide
    split
    · split
      · exact hP.holdArm (hP.coast h (k + 1))
      · exact ih _ (hP.tick h)
    · exact ih _ (hP.tick h)

theorem elapse {n : Nat} : Holds P (s.elapse n) := holds_ite (hP.glide n 4 h) h

theorem waitUntil {n : Nat} : Holds P (s.waitUntil n) := hP.elapse h

end Running

/-- A step that keeps the predicate. -/
def Keeps (P : State → Prop) (s t : State) : Prop := Holds P s → Holds P t

theorem Enduring.edgeRel {P : State → Prop} (hP : Enduring P) : EdgeRel (Keeps P) where
  refl _ := id
  trans hab hbc := hbc ∘ hab
  elapse _ _ := fun h => hP.elapse h
  holdArm _ := fun h => hP.holdArm h
  disturb _ := fun h => hP.disturb h
  settle _ := fun h => hP.settle h

end Sys2Proof.Machine

/-! SUPPORT. A predicate that the engine's own working keeps, over the outputs, the frame clock, resets and clock loss, the test access port and
the journal unit. -/

namespace Sys2Proof.Machine

open Sys2Proof.Safety

/-! ### The parts of a frame end -/

/-- The frame that ends is accounted for: its charges and the balance of its levels. -/
def State.frameCharged (s : State) (f : Frames) (qpos qneg : Nat) (vmid : Bool) : State :=
  (s.accountFrame f).onSup fun u => { u with qpos := BitVec.ofNat 18 (min 262143 qpos), qneg := BitVec.ofNat 18 (min 262143 qneg), vmid := vmid }

/-- The level check at a phase boundary, and the release of cleared faults where a phase starts. -/
def State.frameChecked (s : State) (f : Frames) (bad : BitVec 292) : State :=
  let x := if s.runners.any Runner.boundary then s.phaseBoundary f bad else s
  if s.runners.any Runner.phaseStarts then x.releaseFloats else x

/-- The drive group applies, and every update and the replay take their next frame. -/
def State.frameStepped (s : State) : State := ((List.finRange 4).foldl State.stepUpdate s.applyDrive.checkAhead).stepReplay

/-- The next frame starts, or the clock stops. -/
def State.frameFollows (s : State) (f : Frames) : State := if s.runners.isEmpty then s.stopClock f.target else s.startFrame f.target

theorem State.frameEnd_eq (s : State) (f : Frames) (qpos qneg : Nat) (bad : BitVec 292) (vmid : Bool) :
    s.frameEnd f qpos qneg bad vmid = (((s.frameCharged f qpos qneg vmid).frameChecked f bad).frameStepped).frameFollows f := rfl

-- One after the other: a side condition that a tactic fills in waits for all earlier proofs, and would hold a thread while it does.
set_option Elab.async false

namespace Stable

variable {P : State → Prop} (hP : Stable P) {s : State} (h : Holds P s)
include hP h

/-! ### Outputs -/

theorem markFault {m : OutNo} : Holds P (s.markFault m) := by
  unfold State.markFault
  refine hP.defer (hP.setCause (hP.counted ?_))
  exact hP.frame h rfl

theorem outputFault {d : Nat} {m : OutNo} : Holds P (s.outputFault d m) := by
  have hm := hP.logged (hP.markFault h (m := m)) (code := 0x20) (detail := d) (n := 0) (i := m.val)
  unfold State.outputFault
  refine holds_ite h ?_
  dsimp only
  split
  · exact holds_ite hm (hP.logged (hP.markFault hm))
  · exact hm

theorem beginFoldback : Holds P s.beginFoldback := by
  unfold State.beginFoldback
  refine holds_ite (hP.onEdge (hP.logged (hP.setCause (hP.onSup h)))) ?_
  split
  · exact hP.modifyLog _ _ h
  · exact h

theorem senseOk {ok : BitVec 3} : Holds P (s.senseOk ok) := hP.onSup h

/-! ### The frame clock -/

theorem accountFrame {f : Frames} : Holds P (s.accountFrame f) := holds_ite (hP.onDrv h) h

theorem completeUpdate {n : RingNo} {i : BitVec 16} : Holds P (s.completeUpdate n i) := hP.finishEntry (hP.counted h)

theorem stepUpdate {n : RingNo} : Holds P (s.stepUpdate n) := by
  unfold State.stepUpdate
  split
  · split
    · dsimp only
      refine holds_ite (hP.onUpdate h) (holds_ite ?_ ?_)
      · split
        · exact holds_ite (hP.requestMark (hP.onUpdate h)) (hP.completeUpdate h)
        · exact hP.completeUpdate h
      · split
        · exact holds_ite (hP.requestMark (hP.onUpdate h)) (hP.onUpdate h)
        · exact hP.onUpdate h
    · exact h
  · exact h

theorem stepReplay : Holds P s.stepReplay := by
  unfold State.stepReplay
  split
  · split
    · exact holds_ite (hP.replayNext h) (hP.onReplaySlot h)
    · exact h
  · exact h

theorem phaseBoundary {f : Frames} {bad : BitVec 292} : Holds P (s.phaseBoundary f bad) :=
  holds_ite (holds_ite h (hP.onSup h)) (holds_foldl (fun _ _ hx => holds_ite (hP.outputFault hx) hx) h)

theorem stopClock {prev : List Level} : Holds P (s.stopClock prev) := by
  unfold State.stopClock
  exact holds_ite (hP.onPw (hP.goTo (hP.onDrv (hP.noteChange (hP.onDrv h))))) (hP.onDrv (hP.noteChange (hP.onDrv h)))

theorem frameCharged {f : Frames} {a b : Nat} {v : Bool} : Holds P (s.frameCharged f a b v) := by
  unfold State.frameCharged
  exact hP.onSup (hP.accountFrame h)

theorem frameChecked {f : Frames} {bad : BitVec 292} : Holds P (s.frameChecked f bad) := by
  have hx : Holds P (if s.runners.any Runner.boundary then s.phaseBoundary f bad else s) := holds_ite (hP.phaseBoundary h) h
  exact holds_ite (hP.releaseFloats hx) hx

omit h in
theorem frameStepped (h : Holds P s.applyDrive) : Holds P s.frameStepped :=
  hP.stepReplay (holds_foldl (fun _ _ hx => hP.stepUpdate hx) (hP.checkAhead h))

theorem frameFollows {f : Frames} : Holds P (s.frameFollows f) := holds_ite (hP.stopClock h) (hP.startFrame h)

theorem frameEnd {f : Frames} {a b : Nat} {bad : BitVec 292} {v : Bool} : Holds P (s.frameEnd f a b bad v) := by
  rw [State.frameEnd_eq]
  exact hP.frameFollows (hP.frameStepped (hP.applyDrive (hP.frameChecked (hP.frameCharged h))))

omit h in
theorem startUpdate_of_applied {n : RingNo} (h : Holds P s.applyDrive) : Holds P (s.startUpdate n) := by
  have hgo := hP.onUpdate (hP.goTo (hP.releaseFloats (hP.checkAhead h)) (x := .driving)) (n := n)
    (f := fun u => { u with stage := .running (s.applyDrive.checkAhead.releaseFloats.runFrom 1) })
  unfold State.startUpdate
  dsimp only
  split
  · exact hP.startFrame hgo
  · exact hP.drives hgo

theorem startUpdate {n : RingNo} : Holds P (s.startUpdate n) := hP.startUpdate_of_applied (hP.applyDrive h)

theorem barGo : Holds P s.barGo := by
  refine holds_ite (hP.frame h ?_) h
  simp only [State.seen, Vector.map_map]
  rfl

/-! ### Groups -/

theorem applyWindow : Holds P s.applyWindow := by
  unfold State.applyWindow
  split
  next p hp => exact holds_ite (hP.frame (hP.window hp h) rfl) h
  · exact h

theorem applyThermal : Holds P s.applyThermal := by
  unfold State.applyThermal
  split
  next p hp => exact holds_ite (hP.thermal hp h) h
  · exact h

/-! ### Resets and clock loss -/

theorem cutPower {c : Cut} : Holds P (s.cutPower c) := hP.fastDischarge (hP.interruptAll h)

end Stable

namespace Enduring

variable {P : State → Prop} (hP : Enduring P) {s : State} (h : Holds P s)
include hP h

theorem dropBus : Holds P s.dropBus := hP.onPort h

theorem rstnState : Holds P s.rstnState := by
  have hr := hP.rstn h
  unfold State.rstnState
  dsimp only
  generalize s.rstnClear = x at hr ⊢
  exact hP.frame hr rfl

theorem firstEdge : Holds P s.firstEdge := by
  have hclk := hP.onEdge (hP.onPw (hP.clocked s.now s.attn (!s.pw.first && s.pw.trim) h) (f := fun p =>
    { p with
      qual := true, clk0 := s.now
      strap1 := if p.first then none else p.strap1, strap2 := if p.first then none else p.strap2 })) (f := fun e => { e with sampled := true })
  unfold State.firstEdge
  exact hP.elapse hclk

/-! ### Test access port -/

theorem loadIr {c : TapCtl} {op : BitVec 4} : Holds P (s.loadIr c op) := by
  have ht : ∀ t : Tap, Holds P { s with tap := t } := fun t => hP.frame h rfl
  unfold State.loadIr
  dsimp only
  generalize ({ s.tap with ir := op, drive := if op = 8 then 0 else s.tap.drive } : Tap).enter c = t
  exact holds_ite h (holds_ite (holds_ite (ht t) (hP.rstnState (ht t)))
    (holds_ite (holds_ite (hP.firstEdge (hP.onPw (ht t))) (hP.onPw (ht t))) (ht t)))

theorem updateIr {l : List Bool} {op : BitVec 4} : Holds P (s.updateIr l op) := holds_ite (hP.loadIr h) h

theorem onTap {c : TapCtl} {l : List Bool} {f : Tap → Tap} : Holds P (s.onTap c l f) := by
  unfold State.onTap
  refine holds_ite h ?_
  split
  · exact hP.frame h rfl
  · exact h

theorem enterShift {c : TapCtl} : Holds P (s.enterShift c) := holds_ite h (hP.frame h rfl)

theorem captureDr {l : List Bool} {pins : BitVec 44} {o : Observation} : Holds P (s.captureDr l pins o) := by
  unfold State.captureDr
  have hnear := hP.onSup h (f := fun u => { u with near := u.near || o.near })
  dsimp only
  generalize (s.onSup fun u => { u with near := u.near || o.near }) = x at hnear ⊢
  exact hP.frame (hP.onTap hnear (c := .captureDr) (l := l)) rfl

end Enduring

namespace Stable

variable {P : State → Prop} (hP : Stable P) {s : State} (h : Holds P s)
include hP h

/-! ### Journal unit -/

theorem requestIntent {n : RingNo} {i : BitVec 16} {u : Update} : Holds P (s.requestIntent n i u) := by
  unfold State.requestIntent
  exact hP.onUpdate (hP.onPw (hP.onJnl h))

theorem rescan {l : List OpenSlot} : Holds P (s.rescan l) := hP.onJnl h

theorem scanEnd {c : Scan} : Holds P (s.scanEnd c) := by
  unfold State.scanEnd
  dsimp only
  refine holds_ite (hP.onJnl h) ?_
  have hforget : ∀ (f : Journal → Journal) (l : List OpenSlot), (f s.jnl).ctl = s.jnl.ctl ∧ (f s.jnl).base = s.jnl.base ∧ (f s.jnl).size = s.jnl.size →
      Holds P ((s.onJnl f).rescan l).forgetUpdates := fun f l hf => hP.forgetUpdates (hP.rescan (hP.onJnl h hf))
  exact holds_ite (hP.onJnl (hP.updateOpen (hforget _ _ ⟨rfl, rfl, rfl⟩))) (hP.onJnl (hP.onPw (hforget _ _ ⟨rfl, rfl, rfl⟩)))

end Stable

end Sys2Proof.Machine

/-! SUPPORT. A predicate that the engine's own working keeps, over the memory port: failures, what a completed access gives its unit, and the
edges of a transaction. -/

namespace Sys2Proof.Machine

open Sys2Proof.Safety

-- One after the other: a side condition that a tactic fills in waits for all earlier proofs, and would hold a thread while it does.
set_option Elab.async false

namespace Stable

variable {P : State → Prop} (hP : Stable P) {s : State} (h : Holds P s)
include hP h

/-! ### Failures -/

theorem readFails {n : RingNo} : Holds P (s.readFails n) := by
  unfold State.readFails
  split
  · exact holds_ite (hP.fetchFailure (hP.discardUpdate h)) h
  · exact h

theorem dropReplaySlot {q : Nat} : Holds P (s.dropReplaySlot q) := by
  unfold State.dropReplaySlot
  dsimp only
  split
  · exact holds_ite (hP.replayNext (hP.onJnl h)) (hP.onJnl h)
  · exact hP.onJnl h

theorem intentFails {n : RingNo} {q : Nat} : Holds P (s.intentFails n q) := by
  have hq := hP.onJnl (hP.dropReplaySlot h (q := q)) (f := fun j => { j with queue := j.queue.filter fun a => !(a.slot == q && a.asker == .intent) })
  unfold State.intentFails
  refine hP.fetchFailure ?_
  split
  · exact holds_ite (hP.discardUpdate hq) (hP.tombstone hq)
  · exact hP.tombstone hq

theorem retryLater {a : Access} : Holds P (s.retryLater a) := hP.onSlot h

theorem replayFails : Holds P s.replayFails := hP.replayDischarge (hP.onJnl h)

theorem killAhead {n : RingNo} {i : BitVec 16} : Holds P (State.failUnit.killAhead s n i) := by
  unfold State.failUnit.killAhead
  dsimp only
  split
  · exact holds_ite (hP.onUpdate (hP.onRing h)) (hP.onRing h)
  · exact hP.onRing h

theorem failUnit {a : Access} : Holds P (s.failUnit a) := by
  unfold State.failUnit
  cases a.asker
  case aheadLegend | aheadIndex => exact hP.killAhead h
  case tail | probe | entry | table | head => exact hP.fetchFailure h
  case scan => exact hP.onJnl h
  case erase | intent => exact hP.intentFails h
  case progress => exact h
  case close | tomb => exact hP.retryLater h
  case replayIntent | replayLegend | replayIndex | replayRecord | replayRest => exact hP.replayFails h
  all_goals exact hP.readFails h

theorem memFailure {code w a : Nat} {d : Bool} {x : Access} : Holds P (s.memFailure code w a d x) := by
  have hl : ∀ (f b : Word) (c e i : Nat) (n : RingNo),
      Holds P ((((s.onMem fun m => { m with fail := f, failAddr := b }).count .memFail).setCause (bitMask 6)).log_ c e n i) :=
    fun f b c e i n => hP.logged (hP.setCause (hP.counted (hP.onMem h)))
  have hcause : ∀ y : State, Holds P y → Holds P (if x.asker.isJournal then y.setCause (bitMask 7) else y) :=
    fun y hy => holds_ite (hP.setCause hy) hy
  exact holds_ite (hcause _ (hl _ _ _ _ _ _)) (hP.failUnit (hcause _ (hl _ _ _ _ _ _)))

/-! ### What a completed access gives its unit -/

theorem gotEntry {n : RingNo} {e : Entry} {l : List Byte} : Holds P (s.gotEntry n e l) := by
  unfold State.gotEntry
  exact hP.onEdge (hP.onRing h)

theorem gotTail {n : RingNo} {l : List Byte} : Holds P (s.gotTail n l) := by
  unfold State.gotTail
  exact hP.onRing (holds_ite (hP.err h) h)

theorem gotProbe {n : RingNo} {l : List Byte} : Holds P (s.gotProbe n l) :=
  holds_ite (hP.onRing (holds_ite (hP.err h) h)) (hP.onRing h)

theorem readsDone {n : RingNo} : Holds P (s.readsDone n) := by
  unfold State.readsDone
  split
  next i u _ =>
    split
    next lg _ =>
      have herr : Holds P (if u.statesBad (legendNs lg) then s.err .stateRange else s) := holds_ite (hP.err h) h
      dsimp only
      refine holds_ite h (holds_ite (hP.onRing (hP.completeUpdate herr) ?_) (hP.onUpdate herr))
      split <;> exact ⟨rfl, rfl, rfl, rfl, rfl⟩
    · exact h
  · exact h

theorem gotUpdateRead {n : RingNo} {f : Update → Update} : Holds P (s.gotUpdateRead n f) := hP.readsDone (hP.onUpdate h)

theorem gotAhead {n : RingNo} {i : BitVec 16} {f : Fetched → Fetched} {g : Update → Update} : Holds P (s.gotAhead n i f g) := by
  unfold State.gotAhead
  dsimp only
  split
  · exact holds_ite (hP.gotUpdateRead (hP.onRing h)) (hP.onRing h)
  · exact hP.onRing h

theorem gotReplayRead {f : ReplaySlot → ReplaySlot} : Holds P (s.gotReplayRead f) := by
  have hr := hP.onReplaySlot h (f := f)
  unfold State.gotReplayRead
  dsimp only
  split
  · split
    · exact holds_ite hr (hP.onReplaySlot (holds_ite (hP.err hr) hr))
    · exact hr
  · exact hr

theorem gotReplayIntent {q : Nat} {l : List Byte} : Holds P (s.gotReplayIntent q l) := by
  unfold State.gotReplayIntent
  split
  · exact h
  next o _ =>
    dsimp only
    split
    · exact hP.onSup (hP.onJnl (hP.onReplaySlot h))
    · have hl : ∀ code, Holds P (((s.tombstone q).setStatus (bitMask 2)).log_ code 0 o.ring o.index.toNat) :=
        fun code => hP.logged (hP.setStatus (hP.tombstone h))
      refine hP.replayNext ?_
      split
      · exact holds_ite (hP.finishEntry (hl _)) (hl _)
      · exact hl _

theorem readDone {o : OpenAccess} {l : List Byte} : Holds P (s.readDone o l) := by
  unfold State.readDone
  dsimp only
  cases o.acc.asker
  case tail => exact hP.gotTail h
  case probe => exact hP.gotProbe h
  case entry => exact holds_ite (hP.onRing h) (hP.gotEntry h)
  case table =>
    dsimp only
    split
    · exact hP.gotEntry h
    · exact h
  case aheadLegend | aheadIndex => exact hP.gotAhead h
  case scan =>
    dsimp only
    split
    · exact holds_ite (hP.scanEnd (hP.onJnl h)) (hP.askScan (hP.onJnl h))
    · exact h
  case replayIntent => exact hP.gotReplayIntent h
  case replayLegend | replayIndex | replayRecord | replayRest => exact hP.gotReplayRead h
  case head | erase | intent | progress | close | tomb => exact h
  all_goals exact hP.gotUpdateRead h

theorem headDone {n : RingNo} {v : BitVec 16} : Holds P (s.headDone n v) := by
  unfold State.headDone
  exact hP.onEdge (hP.onRing (holds_ite (hP.setCause h) h))

theorem closeSlot {q : Nat} : Holds P (s.closeSlot q) := hP.dropReplaySlot (hP.updateOpen (hP.onJnl h))

theorem closeDone {q : Nat} : Holds P (s.closeDone q) := by
  unfold State.closeDone
  split
  · exact h
  next o _ =>
    have hc : Holds P (if o.replayed then (s.closeSlot q).count .replays else s.closeSlot q) := holds_ite (hP.counted (hP.closeSlot h)) (hP.closeSlot h)
    dsimp only
    split
    · exact holds_ite (hP.completeUpdate hc) hc
    · exact hc

theorem writeDone {a : Access} : Holds P (s.writeDone a) := by
  unfold State.writeDone
  cases a.asker
  case head v => exact hP.headDone h
  case intent =>
    dsimp only
    split
    · exact holds_ite (hP.requestMark h) (hP.onUpdate h)
    · exact h
  case progress d => exact hP.onSlot h
  case close => exact hP.closeDone h
  case tomb => exact hP.closeSlot (hP.counted h)
  all_goals exact h

/-! ### Arbitration -/

theorem takeRequest {a : Access} : Holds P (s.takeRequest a) := by
  unfold State.takeRequest
  cases a.asker
  case tail => exact hP.onRing h
  case probe => exact hP.onRing h
  case head v => exact hP.onRing h
  case erase | intent | progress | close | tomb | scan | replayIntent => exact hP.onJnl h
  all_goals exact h

end Stable

namespace Enduring

variable {P : State → Prop} (hP : Enduring P) {s : State} (h : Holds P s)
include hP h

theorem freePort : Holds P s.freePort := hP.frees h

theorem beginTxn {o : OpenAccess} {k : TxKind} {f : Nat} : Holds P (s.beginTxn o k f) := hP.begins _ _ h

theorem beginPiece {o : OpenAccess} : Holds P (s.beginPiece o) := by
  unfold State.beginPiece
  exact hP.beginTxn h

theorem startAccess {a : Access} : Holds P (s.startAccess a) := by
  have ht := hP.takeRequest h (a := a)
  have herr : ∀ (c : Bool) (e : HostError) (x : State), Holds P x → Holds P (if c then x.err e else x) :=
    fun c e x hx => holds_ite (hP.err hx) hx
  unfold State.startAccess
  dsimp only
  split
  · exact hP.memFailure ht
  · exact holds_ite (hP.memFailure (herr _ _ _ (herr _ _ _ ht))) (holds_ite (hP.memFailure (herr _ _ _ (herr _ _ _ ht)))
      (holds_ite (hP.writeDone (herr _ _ _ (herr _ _ _ ht))) (hP.beginPiece (herr _ _ _ (herr _ _ _ (herr _ _ _ ht))))))

theorem arbitrate : Holds P s.arbitrate := by
  unfold State.arbitrate
  split
  · exact h
  · have he := hP.onEdge h (f := fun e => { e with arbitrated := true })
    dsimp only
    split
    · exact hP.beginPiece (hP.onMem he)
    · exact hP.startAccess he

/-! ### The edges of a transaction -/

theorem riseNow : Holds P s.riseNow := by
  have hr := hP.rises h
  refine hP.frame hr ?_
  rfl

theorem pieceDone {o : OpenAccess} {k : Nat} {l : List Byte} : Holds P (s.pieceDone o k l) := by
  have hf := hP.freePort h
  unfold State.pieceDone
  exact holds_ite (holds_ite (hP.writeDone hf) (hP.beginPiece h)) (holds_ite hf (holds_ite (hP.readDone hf) (hP.onMem hf)))

/-- A transaction that fails once MCS_N has risen. -/
theorem txnFails {o : OpenAccess} {t : Txn} {c : Nat} (hrisen : s.mem.txn = none) : Holds P (s.txnFails o t c) := by
  have hcut : Holds P (s.onMem fun m => { m with cur := none }) := hP.cuts.elim (fun hcut => hcut h) fun hidle => hidle _ hrisen
  unfold State.txnFails
  exact hP.memFailure hcut

theorem abortTxn {o : OpenAccess} {t : Txn} {c : Nat} : Holds P (s.abortTxn o t c) := by
  unfold State.abortTxn State.txnFails
  obtain hcut | hidle := hP.cuts
  · exact hP.riseNow (hP.elapse (hP.memFailure (hcut h)))
  · exact hidle _ rfl

theorem txnEnd {o : OpenAccess} {t : Txn} {l : List Byte} : Holds P (s.txnEnd o t l) := by
  have hr := hP.riseNow h
  unfold State.txnEnd
  dsimp only
  cases t.kind
  case read => exact holds_ite (hP.pieceDone hr) (hP.pieceDone hr)
  case edgeFill => exact hP.beginTxn hr
  case writeEnable => exact hP.beginTxn hr
  case program => exact hr
  case erase => exact hr
  case status => exact holds_ite (holds_ite (hP.txnFails hr rfl) (hP.goesOn _ hr)) (hP.pieceDone hr)
  case h8write => exact hP.pieceDone hr

omit h in
theorem endTxn (s : State) (o : OpenAccess) (t : Txn) (w : Nat) (l : List Byte) : Keeps P s (s.endTxn o t w l) :=
  hP.edgeRel.endTxn (fun _ _ _ _ h => hP.abortTxn h) (fun _ _ _ _ h => hP.txnEnd h) s o t w l

end Enduring

end Sys2Proof.Machine

/-! SUPPORT. A predicate that the engine's own working keeps, over ring entries, the rails, conversion results, and with them over every
command. -/

namespace Sys2Proof.Machine

open Sys2Proof.Safety

-- One after the other: a side condition that a tactic fills in waits for all earlier proofs, and would hold a thread while it does.
set_option Elab.async false

namespace Stable

variable {P : State → Prop} (hP : Stable P) {s : State} (h : Holds P s)
include hP h

/-! ### Ring entries -/

theorem takeEntry {n : RingNo} : Holds P (s.takeEntry n) := hP.onEdge (hP.onRing h)

theorem admitUpdate {n : RingNo} {f : Fetched} : Holds P (s.admitUpdate n f) := by
  have herr : Holds P (if (s.newUpdate n f).frags.all Frag.trusted then s else s.err .segmentRange) := holds_ite h (hP.err h)
  unfold State.admitUpdate
  exact hP.onSup (hP.onRing herr)

end Stable

namespace Enduring

variable {P : State → Prop} (hP : Enduring P) {s : State} (h : Holds P s)
include hP h

omit h in
theorem putAll (l : List (StReg × Word)) {s : State} (h : Holds P s) :
    Holds P { s with shadow := l.foldl (fun (g : Staged) (p : StReg × Word) => g.put p.1 p.2) s.shadow } := by
  induction l generalizing s with
  | nil => exact h
  | cons p l ih => exact ih (hP.put p.1 p.2 h)

theorem admitCfg {n : RingNo} {f : Fetched} : Holds P (s.admitCfg n f) := by
  have hrecords : ∀ x : State, Holds P x → Holds P ((f.entry.records f.table).foldl (fun (s : State) (p : Nat × Word) => match recordReg p.1 with
      | some r => s.writeShadow r p.2
      | none => s.err .cfgTarget) x) := by
    refine fun x hx => holds_foldl (fun y p hy => ?_) hx
    split
    · exact hP.writeShadow hy
    · exact hP.err hy
  unfold State.admitCfg
  exact hP.onRing (hP.putAll _ (hP.commit _ (hrecords _ (hP.olderShadow h))))

end Enduring

namespace Stable

variable {P : State → Prop} (hP : Stable P) {s : State} (h : Holds P s)
include hP h

/-! ### The rails -/

theorem beginRamp : Holds P s.beginRamp := by
  unfold State.beginRamp
  exact hP.onSup h

theorem sense {ok : BitVec 3} : Holds P (s.sense ok) := by
  unfold State.sense
  split
  · exact holds_ite h (hP.senseOk h)
  · exact hP.senseOk h
  · exact hP.senseOk h
  · exact h

theorem slewAll : Holds P s.slewAll := by
  unfold State.slewAll
  exact hP.onSup (hP.setPoints h)

theorem timeoutRing {ok : BitVec 3} {n : RingNo} : Holds P (s.timeoutRing ok n) :=
  holds_ite (hP.fetchFailure (hP.discardUpdate (hP.logged h))) h

theorem timeoutReplay {ok : BitVec 3} : Holds P (s.timeoutReplay ok) := hP.replayFails (hP.logged h)

theorem timeout {ok : BitVec 3} : Holds P (s.timeout ok) := by
  have hset := hP.onSup (hP.setCause (hP.senseOk h (ok := ok)) (m := bitMask 26)) (f := fun u => { u with noPreRamp := true })
  have hrings := holds_foldl (f := fun s n => s.timeoutRing ok n) (fun _ _ hx => hP.timeoutRing hx) hset (l := List.finRange 4)
  exact holds_ite (hP.timeoutReplay hrings) (holds_ite (hP.startDischarge hrings) (hP.logged (hP.startDischarge hrings)))

theorem beginBleed : Holds P s.beginBleed := hP.onSup h

/-! ### Conversion results -/

theorem takeResult {m : Int} {e : Nat} : Holds P (s.takeResult m e) := hP.onThm h

theorem thresholds : Holds P s.thresholds := by
  have hnew : ∀ (c : Bool) (x : State), Holds P x → Holds P (if c then x.setCause (bitMask 9) else x) := fun c x hx => holds_ite (hP.setCause hx) hx
  have hthr : ∀ (c : Bool) (x : State), Holds P x → Holds P (if c then ((x.setCause (bitMask 10)).count .throttle).log_ 0x31 0 0 0 else x) :=
    fun c x hx => holds_ite (hP.logged (hP.counted (hP.setCause hx))) hx
  exact hthr _ _ (hnew _ _ (hP.evalWrange (hP.onThm h)))

theorem resultHolds : Holds P s.resultHolds := by
  unfold State.resultHolds
  refine holds_ite (holds_ite (hP.enterHeld h) (hP.onSup ?_)) h
  split
  · exact h
  · exact h
  · exact h
  · exact hP.startDischarge h

theorem retryMarks : Holds P s.retryMarks := by
  refine holds_foldl (fun x o hx => ?_) h
  split
  · exact hP.onSlot (hP.enqueue hx)
  · exact hx

theorem result {m : Int} {l : List (Nat × Int × Int)} {pj : Nat} : Holds P (s.result m l pj) := by
  unfold State.result
  exact hP.retryMarks (hP.resultHolds (hP.addEnergy (hP.onEdge (hP.thresholds (hP.takeResult (hP.applyThermal (hP.onThm h)))))))

end Stable

end Sys2Proof.Machine

/-! SUPPORT. A predicate that the engine's own working keeps, over each command and over a step. -/

namespace Sys2Proof.Machine

open Sys2Proof.Safety

-- One after the other: a side condition that a tactic fills in waits for all earlier proofs, and would hold a thread while it does.
set_option Elab.async false

namespace Enduring

variable {P : State → Prop} (hP : Enduring P)
include hP

theorem event {dt : Nat} {body : State → State} (hb : ∀ s, Holds P s → Holds P (body s)) : Within (Keeps P) (event dt body) :=
  hP.edgeRel.event hb

theorem runBus (l : BusLevels) {s : State} (h : Holds P s) : Holds P (s.runBus l) := by
  induction l generalizing s with
  | nil => exact h
  | cons x l ih => exact ih (hP.closeEdge (hP.onPort (holds_ite (hP.elapse h) h)))

/-! ### Power, resets and clocks -/

theorem porRelease (dt : Nat) : Within (Keeps P) (execPorRelease dt) := by
  unfold execPorRelease
  exact hP.event fun s h => holds_ite (holds_ite (hP.firstEdge (hP.onPw h)) (hP.onPw h)) h

theorem rstnAssert (dt : Nat) : Within (Keeps P) (execRstnAssert dt) := by
  unfold execRstnAssert
  exact hP.event fun s h => holds_ite (hP.onPw h) (hP.rstnState (hP.onPw h))

theorem rstnRelease (dt : Nat) : Within (Keeps P) (execRstnRelease dt) := by
  unfold execRstnRelease
  exact hP.event fun s h => holds_ite h (holds_ite (hP.firstEdge (hP.onPw h)) (hP.onPw h))

theorem hckStart (dt : Nat) : Within (Keeps P) (execHckStart dt) := by
  unfold execHckStart
  exact hP.event fun s h => holds_ite h (holds_ite (hP.firstEdge (hP.onPw h)) (hP.onPw h))

theorem strapFirstSample (dt : Nat) (a b : Bool) : Within (Keeps P) (execStrapFirstSample dt a b) := by
  unfold execStrapFirstSample
  exact hP.event fun s h => holds_ite (hP.onPw (hP.waitUntil h)) h

theorem strapSecondSample (dt : Nat) (a b : Bool) : Within (Keeps P) (execStrapSecondSample dt a b) := by
  unfold execStrapSecondSample
  exact hP.event fun s h => holds_ite (hP.onPw (hP.waitUntil h)) h

theorem addressLatch (dt : Nat) : Within (Keeps P) (execAddressLatch dt) := by
  unfold execAddressLatch
  refine hP.event fun s h => ?_
  split
  · exact holds_ite (hP.evalWrange (hP.onThm (hP.onPw (hP.waitUntil h)))) h
  · exact h

theorem wakeQualifierEnd (dt : Nat) : Within (Keeps P) (execWakeQualifierEnd dt) := by
  unfold execWakeQualifierEnd
  refine hP.event fun s h => ?_
  have hwake := hP.dropBarriers (hP.onPw (hP.evalWrange (hP.onThm (hP.waitUntil h (n := s.pw.clk0 + 64))
    (f := fun t => { t with valid := false, rise := 0, current := false, window0 := (s.waitUntil (s.pw.clk0 + 64)).now })))
    (f := fun p => { p with qual := false }))
  exact holds_ite (holds_ite (hP.goTo hwake) (hP.resume (hP.abandonAll hwake))) h

theorem clockLoss (dt : Nat) : Within (Keeps P) (execClockLoss dt) := by
  unfold execClockLoss
  refine hP.event fun s h => ?_
  have hoff := hP.onPw (hP.closeEdge h) (f := fun p => { p with hck := false })
  have hdrop : ∀ x : State, Holds P x → Holds P ((x.dropBus.goTo .dormant).onPw fun p => { p with qual := false }) :=
    fun x hx => hP.onPw (hP.goTo (hP.dropBus hx))
  have hreplay : ∀ x : State, Holds P x → Holds P (if x.jnl.replay.isSome then x.stopReplay else x) := fun x hx => holds_ite (hP.stopReplay hx) hx
  exact holds_ite h (holds_ite hoff (holds_ite (hP.setStatus (hP.cutPower (hdrop _ (hreplay _ hoff)))) (hP.interruptAll (hdrop _ (hreplay _ hoff)))))

theorem shutdownTrip (dt : Nat) : Within (Keeps P) (execShutdownTrip dt) := by
  unfold execShutdownTrip
  refine hP.event fun s h => ?_
  have hsd := hP.onPw h (f := fun p => { p with sd := true })
  have hcut : ∀ x : State, Holds P x →
      Holds P ((if x.sup.railsUp || decide (x.pw.st ≠ .dormant) then x.cutPower .shutdown else x).setStatus (bitMask 1)) :=
    fun x hx => hP.setStatus (holds_ite (hP.cutPower hx) hx)
  have hreplay : ∀ x : State, Holds P x → Holds P (if x.jnl.replay.isSome then x.stopReplay else x) := fun x hx => holds_ite (hP.stopReplay hx) hx
  exact holds_ite h (holds_ite hsd (holds_ite (hcut _ hsd) (hP.onPw (hP.goTo (hP.dropBarriers (hreplay _ (hcut _ hsd)))))))

theorem shutdownRelease (dt : Nat) : Within (Keeps P) (execShutdownRelease dt) := by
  unfold execShutdownRelease
  exact hP.event fun s h => holds_ite (hP.onPw h) h

theorem shutdownExit (dt : Nat) : Within (Keeps P) (execShutdownExit dt) := by
  unfold execShutdownExit
  exact hP.event fun s h => holds_ite (hP.resume (hP.abandonAll (holds_ite (hP.onPw (hP.waitUntil h)) (hP.waitUntil h)))) h

theorem uvloAssert (dt : Nat) : Within (Keeps P) (execUvloAssert dt) := by
  unfold execUvloAssert
  refine hP.event fun s h => ?_
  have hlow := hP.onPw h (f := fun p => { p with uvlo := true })
  have hcut : ∀ (c : Bool) (x : State), Holds P x → Holds P (if c then x.cutPower .uvlo else x) := fun c x hx => holds_ite (hP.cutPower hx) hx
  exact holds_ite h (holds_ite hlow (holds_ite (hP.uvloSync (hcut _ _ hlow)) (hP.defer (hcut _ _ hlow))))

theorem uvloRelease (dt : Nat) : Within (Keeps P) (execUvloRelease dt) := by
  unfold execUvloRelease
  exact hP.event fun s h => holds_ite (hP.startReplay (hP.onPw h)) (hP.onPw h)

theorem resetDrainEnd (dt : Nat) : Within (Keeps P) (execResetDrainEnd dt) := by
  unfold execResetDrainEnd
  exact hP.event fun s h => holds_ite (hP.drainEnd h) h

theorem resetBusyEnd (dt : Nat) : Within (Keeps P) (execResetBusyEnd dt) := by
  unfold execResetBusyEnd
  refine hP.event fun s h => ?_
  have hends : ∀ n, Holds P ((s.waitUntil n).onPw fun p => { p with busy := false, drain := none, shut := false }) := fun n => hP.onPw (hP.waitUntil h)
  dsimp only
  split
  · exact holds_ite h (holds_ite (hends _) (holds_ite (holds_ite (hends _) (hP.resume (hends _))) h))
  · exact h

/-! ### The set-up bus and the test access port -/

theorem readCapture (bus : BusSpan) (b : Bool) : Within (Keeps P) (execReadCapture bus b) := by
  unfold execReadCapture
  refine hP.event fun s h => ?_
  have hrun := hP.runBus bus.lines (holds_ite (hP.onCnv h) h : Holds P (s.barSeen b))
  exact holds_ite hrun (holds_ite (hP.onCnv hrun) hrun)

theorem sclStretchRelease (bus : BusSpan) : Within (Keeps P) (execSclStretchRelease bus) := by
  unfold execSclStretchRelease
  refine hP.event fun s h => ?_
  have hrun := hP.runBus bus.lines h
  dsimp only
  split
  · exact holds_ite (hP.waitUntil hrun) hrun
  · exact hrun

theorem tapShift (tap : TapSpan) (ir tdi : Bool) : Within (Keeps P) (execTapShift tap ir tdi) := by
  unfold execTapShift
  refine hP.event fun s h => ?_
  dsimp only
  generalize (if ir then TapCtl.shiftIr else TapCtl.shiftDr) = c
  exact holds_ite (hP.enterShift h) (hP.onTap h)

theorem testLogicReset (dt : Nat) : Within (Keeps P) (execTestLogicReset dt) := by
  unfold execTestLogicReset
  exact hP.event fun s h => hP.loadIr h

theorem captureDrCommand (tap : TapSpan) (pins : BitVec 44) (o : Observation) : Within (Keeps P) (execCaptureDr tap pins o) := by
  unfold execCaptureDr
  exact hP.event fun s h => hP.captureDr h

theorem updateDr (tap : TapSpan) : Within (Keeps P) (execUpdateDr tap) := by
  unfold execUpdateDr
  exact hP.event fun s h => hP.onTap h

theorem captureIr (tap : TapSpan) : Within (Keeps P) (execCaptureIr tap) := by
  unfold execCaptureIr
  exact hP.event fun s h => hP.onTap h

/-! ### Groups, memory port, rings -/

theorem driveGroupApply (dt : Nat) : Within (Keeps P) (execDriveGroupApply dt) := by
  unfold execDriveGroupApply
  refine hP.event fun s h => ?_
  split
  · exact holds_ite h (hP.checkAhead (hP.applyDrive (hP.waitUntil h)))
  · exact h

theorem supplyGroupApply (dt : Nat) : Within (Keeps P) (execSupplyGroupApply dt) := by
  unfold execSupplyGroupApply
  refine hP.event fun s h => ?_
  split
  · exact holds_ite (hP.completeSupply (hP.waitUntil h)) h
  · exact h

theorem windowGroupApply (dt : Nat) : Within (Keeps P) (execWindowGroupApply dt) := by
  unfold execWindowGroupApply
  refine hP.event fun s h => ?_
  split
  · exact holds_ite (hP.applyWindow (hP.waitUntil h)) h
  · exact h

theorem statusPoll (dt : Nat) : Within (Keeps P) (execStatusPoll dt) := by
  unfold execStatusPoll
  refine hP.event fun s h => ?_
  split
  next o gap _ =>
    have hwait := hP.waitUntil h (n := s.mem.rise + gap)
    refine holds_ite ?_ h
    dsimp only
    split
    · exact hP.beginTxn hwait
    · exact hwait
  · exact h

theorem pollTimerExpiry (dt : Nat) (ring : RingNo) : Within (Keeps P) (execPollTimerExpiry dt ring) := by
  unfold execPollTimerExpiry
  refine hP.event fun s h => ?_
  split
  · exact holds_ite (holds_ite (hP.onRing (hP.waitUntil h)) (hP.waitUntil h)) h
  · exact h

theorem admitRow {dt : Nat} {n : RingNo} {ok : Fetched → Bool} {body : Fetched → State → State}
    (hb : ∀ f s, Holds P s → Holds P (body f s)) : Within (Keeps P) (admitRow dt n ok body) :=
  hP.edgeRel.admitRow (fun _ h => hP.takeEntry h) (fun _ _ h => hP.err h) hb

theorem update (dt : Nat) (ring : RingNo) : Within (Keeps P) (execUpdate dt ring) := by
  unfold execUpdate
  exact hP.admitRow fun f s h => hP.admitUpdate h

theorem clear (dt : Nat) (ring : RingNo) : Within (Keeps P) (execClear dt ring) := by
  unfold execClear
  exact hP.admitRow fun f s h => hP.admitUpdate h

theorem cfg (dt : Nat) (ring : RingNo) : Within (Keeps P) (execCfg dt ring) := by
  unfold execCfg
  exact hP.admitRow fun f s h => hP.admitCfg h

theorem temp (dt : Nat) (ring : RingNo) : Within (Keeps P) (execTemp dt ring) := by
  unfold execTemp
  exact hP.admitRow fun f s h => hP.finishEntry (hP.defer (hP.onThm h))

theorem sync (dt : Nat) (ring : RingNo) : Within (Keeps P) (execSync dt ring) := by
  unfold execSync
  exact hP.admitRow fun f s h => hP.finishEntry (hP.onRing h)

theorem park (dt : Nat) (ring : RingNo) : Within (Keeps P) (execPark dt ring) := by
  unfold execPark
  exact hP.admitRow fun f s h => holds_ite (hP.defer (hP.onRing h)) (hP.finishPark h)

theorem mark (dt : Nat) (ring : RingNo) : Within (Keeps P) (execMark dt ring) := by
  unfold execMark
  exact hP.admitRow fun f s h => hP.finishEntry (hP.onRing h)

theorem nop (dt : Nat) (ring : RingNo) : Within (Keeps P) (execNop dt ring) := by
  unfold execNop
  exact hP.admitRow fun f s h => hP.finishEntry (holds_ite (hP.err h) h)

/-! ### Journal, frames, outputs -/

theorem intentWrite (dt : Nat) (ring : RingNo) : Within (Keeps P) (execIntentWrite dt ring) := by
  unfold execIntentWrite
  refine hP.event fun s h => ?_
  split
  · exact holds_ite (holds_ite (hP.err h) (holds_ite h (hP.requestIntent h))) h
  · exact h

theorem replayEnd (dt : Nat) : Within (Keeps P) (execReplayEnd dt) := by
  unfold execReplayEnd
  refine hP.event fun s h => ?_
  split
  · exact holds_ite (hP.defer h) h
  · exact h

theorem updateStart (dt : Nat) (ring : RingNo) : Within (Keeps P) (execUpdateStart dt ring) := by
  unfold execUpdateStart
  exact hP.event fun s h => holds_ite (hP.startUpdate h) h

theorem frameEndCommand (dt a b : Nat) (bad : BitVec 292) (v : Bool) : Within (Keeps P) (execFrameEnd dt a b bad v) := by
  unfold execFrameEnd
  refine hP.event fun s h => ?_
  split
  next f _ =>
    have hwait := hP.waitUntil h (n := f.start + f.len)
    refine holds_ite ?_ h
    dsimp only
    split
    · exact hP.frameEnd hwait
    · exact hwait
  · exact h

theorem dwellEnd (dt : Nat) : Within (Keeps P) (execDwellEnd dt) := by
  unfold execDwellEnd
  refine hP.event fun s h => ?_
  split
  · exact holds_ite (hP.onDrv (hP.waitUntil h)) h
  · exact h

theorem outputLimited (dt : Nat) (m : OutNo) (k : Nat) (b : Bool) (ok : BitVec 3) : Within (Keeps P) (execOutputLimited dt m k b ok) := by
  unfold execOutputLimited
  exact hP.event fun s h => holds_ite (holds_ite (hP.waitUntil h) (hP.beginFoldback (hP.senseOk (hP.onSup (hP.waitUntil h))))) h

theorem outputLimitRelease (dt : Nat) (m : OutNo) (ok : BitVec 3) : Within (Keeps P) (execOutputLimitRelease dt m ok) := by
  unfold execOutputLimitRelease
  exact hP.event fun s h => holds_ite (hP.endFoldback (hP.senseOk (hP.onSup h))) h

theorem outputFaultCommand (dt : Nat) (l : LongLimit) : Within (Keeps P) (execOutputFault dt l) := by
  unfold execOutputFault
  refine hP.event fun s h => ?_
  dsimp only
  split
  · exact holds_ite (holds_ite (hP.outputFault (hP.onSup (hP.waitUntil h))) (hP.waitUntil h)) h
  · exact h

theorem pairContention (dt : Nat) (p : Fin 144) : Within (Keeps P) (execPairContention dt p) := by
  unfold execPairContention
  exact hP.event fun s h => holds_ite (hP.logged (hP.markFault (hP.markFault h))) h

/-! ### Rails, state changes, conversions -/

theorem sequencingStart (dt : Nat) : Within (Keeps P) (execSequencingStart dt) := by
  unfold execSequencingStart
  exact hP.event fun s h => holds_ite (hP.onSup (hP.takeTargets (hP.completeSupply h))) h

theorem rampStart (dt : Nat) : Within (Keeps P) (execRampStart dt) := by
  unfold execRampStart
  refine hP.event fun s h => ?_
  split
  · exact holds_ite (holds_ite (hP.beginRamp (hP.waitUntil h)) (hP.waitUntil h)) h
  · exact h

theorem rampStep (dt : Nat) (d : Bool) (ok : BitVec 3) : Within (Keeps P) (execRampStep dt d ok) := by
  unfold execRampStep
  refine hP.event fun s h => ?_
  have hwait : ∀ n, Holds P (s.waitUntil n) := fun n => hP.waitUntil h
  have hdac : ∀ x : State, Holds P x → Holds P (if x.sup.ramps then x.dacStep.sense ok else x) := fun x hx => holds_ite (hP.sense (hP.onSup hx)) hx
  have hrail : ∀ x : State, Holds P x → Holds P (if x.sup.ramps then x.railStep.sense ok else x) := fun x hx => holds_ite (hP.sense (hP.onSup hx)) hx
  exact holds_ite (holds_ite (holds_ite h (hdac _ (hwait _))) (holds_ite h (hrail _ (hwait _)))) h

theorem setPointSlewStep (dt : Nat) (ok : BitVec 3) : Within (Keeps P) (execSetPointSlewStep dt ok) := by
  unfold execSetPointSlewStep
  exact hP.event fun s h => holds_ite h (holds_ite (hP.sense h)
    (holds_ite (hP.completeSupply (hP.sense (hP.slewAll (hP.waitUntil h)))) (hP.waitUntil h)))

theorem railsInRegulation (dt : Nat) : Within (Keeps P) (execRailsInRegulation dt) := by
  unfold execRailsInRegulation
  refine hP.event fun s h => ?_
  split
  · exact holds_ite (hP.defer (hP.onSup h)) h
  · exact holds_ite (hP.senseOk h) h
  · exact h

theorem rampTimeout (dt : Nat) (ok : BitVec 3) : Within (Keeps P) (execRampTimeout dt ok) := by
  unfold execRampTimeout
  refine hP.event fun s h => ?_
  split
  · exact holds_ite (holds_ite (hP.timeout (hP.waitUntil h)) (hP.waitUntil h)) h
  · exact h

theorem dischargeVcomStep (dt : Nat) : Within (Keeps P) (execDischargeVcomStep dt) := by
  unfold execDischargeVcomStep
  refine hP.event fun s h => ?_
  split
  · exact holds_ite h (holds_ite (hP.onSup (hP.waitUntil h)) (hP.beginBleed (hP.waitUntil h)))
  · exact h

theorem dischargeEnd (dt : Nat) : Within (Keeps P) (execDischargeEnd dt) := by
  unfold execDischargeEnd
  exact hP.event fun s h => holds_ite (holds_ite (hP.railsEnded (hP.railsOff h)) (hP.defer (hP.railsOff h))) h

theorem parkingExit (dt : Nat) : Within (Keeps P) (execParkingExit dt) := by
  unfold execParkingExit
  exact hP.event fun s h => holds_ite (holds_ite (hP.waitUntil h) (hP.goTo (hP.waitUntil h))) h

theorem armedTimeout (dt : Nat) : Within (Keeps P) (execArmedTimeout dt) := by
  unfold execArmedTimeout
  exact hP.event fun s h => holds_ite (holds_ite (hP.defer (hP.waitUntil h)) (hP.waitUntil h)) h

theorem heldExit (dt : Nat) : Within (Keeps P) (execHeldExit dt) := by
  unfold execHeldExit
  exact hP.event fun s h => holds_ite (hP.defer h) h

theorem energyWrap (dt pj : Nat) : Within (Keeps P) (execEnergyWrap dt pj) := by
  unfold execEnergyWrap
  exact hP.event fun s h => holds_ite (hP.addEnergy h) h

theorem conversionResult (dt : Nat) (m : Int) (l : List (Nat × Int × Int)) (pj : Nat) : Within (Keeps P) (execConversionResult dt m l pj) := by
  unfold execConversionResult
  exact hP.event fun s h => holds_ite (hP.result (hP.waitUntil h)) h

/-! ### Barriers -/

theorem barNRecognised (bar : BarSample) : Within (Keeps P) (execBarNRecognised bar) := by
  unfold execBarNRecognised
  exact hP.event fun s h => holds_ite h (holds_ite (hP.onCnv h) (holds_ite h (holds_ite (hP.waitUntil h) (hP.barGo (hP.onCnv (hP.waitUntil h))))))

theorem barrierStart (dt : Nat) (ring : RingNo) : Within (Keeps P) (execBarrierStart dt ring) := by
  unfold execBarrierStart
  refine hP.event fun s h => ?_
  split
  · split
    · have hload : ∀ (c : Bool) (e : BitVec 32) (x : State), Holds P x →
          Holds P ((if c then x.onCnv fun v => { v with epoch := e } else x).dropBarrier ring) :=
        fun c e x hx => hP.dropBarrier (holds_ite (hP.onCnv hx) hx)
      exact holds_ite (holds_ite (hload _ _ _ (hP.startUpdate (hP.waitUntil h))) (hP.waitUntil h)) h
    · exact h
  · exact h

theorem barrierTimeout (dt : Nat) (ring : RingNo) : Within (Keeps P) (execBarrierTimeout dt ring) := by
  unfold execBarrierTimeout
  refine hP.event fun s h => ?_
  split
  · exact holds_ite (holds_ite (hP.dropBarrier (hP.waitUntil h)) (hP.waitUntil h)) h
  · exact h



/-! ### Every command -/

theorem exec (c : Instr) : Within (Keeps P) (exec c) := by
  have hbus : ∀ (dt : Nat) (l : BusLevels), Within (Keeps P) (Machine.event dt fun s => s.runBus l) :=
    fun dt l => hP.event fun s h => hP.runBus l h
  have hir : ∀ (tap : TapSpan) (op : BitVec 4), Within (Keeps P) (Machine.event tap.dt fun s => s.updateIr tap.tms op) :=
    fun tap op => hP.event fun s h => hP.updateIr h
  cases c
  case powerOnReset dt => exact hP.event fun s h => hP.por h
  case porRelease dt => exact hP.porRelease dt
  case rstnAssert dt => exact hP.rstnAssert dt
  case rstnRelease dt => exact hP.rstnRelease dt
  case strapFirstSample dt a b => exact hP.strapFirstSample dt a b
  case strapSecondSample dt a b => exact hP.strapSecondSample dt a b
  case addressLatch dt => exact hP.addressLatch dt
  case hckStart dt => exact hP.hckStart dt
  case wakeQualifierEnd dt => exact hP.wakeQualifierEnd dt
  case replayEnd dt => exact hP.replayEnd dt
  case clockLoss dt => exact hP.clockLoss dt
  case shutdownTrip dt => exact hP.shutdownTrip dt
  case shutdownRelease dt => exact hP.shutdownRelease dt
  case shutdownExit dt => exact hP.shutdownExit dt
  case uvloAssert dt => exact hP.uvloAssert dt
  case uvloRelease dt => exact hP.uvloRelease dt
  case i2cStart dt l => exact hbus dt l
  case slotCommit dt l => exact hbus dt l
  case readCapture bus b => exact hP.readCapture bus b
  case sclStretchRelease bus => exact hP.sclStretchRelease bus
  case i2cStop bus => exact hbus bus.dt bus.lines
  case framingAbort dt l after => exact hbus dt (l ++ after)
  case i2cDataByte dt l ack => exact hbus dt (l ++ ack)
  case driveGroupApply dt => exact hP.driveGroupApply dt
  case supplyGroupApply dt => exact hP.supplyGroupApply dt
  case windowGroupApply dt => exact hP.windowGroupApply dt
  case resetDrainEnd dt => exact hP.resetDrainEnd dt
  case resetBusyEnd dt => exact hP.resetBusyEnd dt
  case memArbitrate dt => exact hP.edgeRel.memArbitrate (fun _ h => hP.arbitrate h) dt
  case memTransactionEnd dt d l => exact hP.edgeRel.memTransactionEnd (fun _ _ h => hP.onMem h) hP.endTxn dt d l
  case statusPoll dt => exact hP.statusPoll dt
  case mrdyStretchTimeout a => exact hP.edgeRel.mrdyStretchTimeout (fun _ _ h => hP.onMem h) (fun _ _ _ _ h => hP.abortTxn h) a
  case mdqsTimeout a => exact hP.edgeRel.mdqsTimeout (fun _ _ h => hP.onMem h) hP.endTxn a
  case pollTimerExpiry dt n => exact hP.pollTimerExpiry dt n
  case update dt n => exact hP.update dt n
  case clear dt n => exact hP.clear dt n
  case cfg dt n => exact hP.cfg dt n
  case temp dt n => exact hP.temp dt n
  case sync dt n => exact hP.sync dt n
  case park dt n => exact hP.park dt n
  case mark dt n => exact hP.mark dt n
  case nop dt n => exact hP.nop dt n
  case intentWrite dt n => exact hP.intentWrite dt n
  case updateStart dt n => exact hP.updateStart dt n
  case frameEnd dt a b bad v => exact hP.frameEndCommand dt a b bad v
  case dwellEnd dt => exact hP.dwellEnd dt
  case outputLimited dt m k b ok => exact hP.outputLimited dt m k b ok
  case outputLimitRelease dt m ok => exact hP.outputLimitRelease dt m ok
  case outputFault dt l => exact hP.outputFaultCommand dt l
  case pairContention dt p => exact hP.pairContention dt p
  case sequencingStart dt => exact hP.sequencingStart dt
  case rampStart dt => exact hP.rampStart dt
  case rampStep dt d ok => exact hP.rampStep dt d ok
  case setPointSlewStep dt ok => exact hP.setPointSlewStep dt ok
  case railsInRegulation dt => exact hP.railsInRegulation dt
  case rampTimeout dt ok => exact hP.rampTimeout dt ok
  case dischargeVcomStep dt => exact hP.dischargeVcomStep dt
  case dischargeEnd dt => exact hP.dischargeEnd dt
  case parkingExit dt => exact hP.parkingExit dt
  case armedTimeout dt => exact hP.armedTimeout dt
  case heldExit dt => exact hP.heldExit dt
  case conversionResult dt m l pj => exact hP.conversionResult dt m l pj
  case barNRecognised bar => exact hP.barNRecognised bar
  case barrierStart dt n => exact hP.barrierStart dt n
  case barrierTimeout dt n => exact hP.barrierTimeout dt n
  case testLogicReset dt => exact hP.testLogicReset dt
  case extest tap => exact hir tap 0
  case samplePreload tap => exact hir tap 1
  case idcode tap => exact hir tap 2
  case clamp tap => exact hir tap 3
  case highz tap => exact hir tap 4
  case segtest tap => exact hir tap 8
  case bypass tap op => exact hir tap _
  case captureDr tap pins o => exact hP.captureDrCommand tap pins o
  case updateDr tap => exact hP.updateDr tap
  case tapShift tap ir tdi => exact hP.tapShift tap ir tdi
  case captureIr tap => exact hP.captureIr tap
  case energyWrap dt pj => exact hP.energyWrap dt pj

theorem step {s t : State} (h : Holds P s) (hs : step s = .next t) : Holds P t := by
  unfold Machine.step at hs
  split at hs
  · obtain rfl := Host.Outcome.next.inj hs
    exact hP.disturb (hP.elapse h)
  · exact hP.exec _ _ _ hs (hP.frame h rfl)

end Enduring

end Sys2Proof.Machine

/-! SUPPORT. Three predicates that the engine's own working keeps: the bounds of counters, log and wraps, the open transaction's access, and the
reserved bits. The proofs of O8, O9 and O5. -/

namespace Sys2Proof.Machine

open Sys2Proof.Safety

-- One after the other: a side condition that a tactic fills in waits for all earlier proofs, and would hold a thread while it does.
set_option Elab.async false

/-! ### Counters, log and wraps (R146, R147) -/

/-- A counter cannot pass its maximum. -/
theorem satAdd_le {max : Word} (v : Word) (k : Nat) : (satAdd max v k).toNat ≤ max.toNat := by
  unfold satAdd
  split
  · exact le_refl _
  · rw [BitVec.toNat_ofNat]
    omega

theorem Counters.get_put_of_ne (c : Counters) {k l : Cnt} (v : Word) (h : l ≠ k) : (c.put k v).get l = c.get l := by
  cases k <;> cases l <;> simp [Counters.get, Counters.put] at h ⊢

/-- Every counter is within its width. -/
def Counters.Fit (c : Counters) : Prop := ∀ k : Cnt, (c.get k).toNat ≤ k.max.toNat

theorem Counters.Fit.put {c : Counters} (h : c.Fit) (k : Cnt) {v : Word} (hv : v.toNat ≤ k.max.toNat) : (c.put k v).Fit := by
  intro l
  by_cases hl : l = k
  · subst hl
    rw [c.get_put]
    exact hv
  · rw [c.get_put_of_ne v hl]
    exact h l

theorem Counters.reset_fit : Counters.reset.Fit := fun k => by cases k <;> decide

theorem Counters.bound_fit (c : Counters) : c.bound.Fit := by
  intro k
  cases k
  case updates => exact Nat.le_of_lt_succ c.updates.isLt
  case frames => exact Nat.le_of_lt_succ c.frames.isLt
  all_goals exact Nat.and_le_right

/-- Counters, fault log and energy wraps are within their widths. -/
structure Fits (s : State) : Prop where
  cnt : s.cnt.Fit
  log : s.log.length ≤ 16
  wraps : s.sup.wraps.toNat ≤ 255

theorem fits_of_eq {s t : State} (h : Fits s) (hcnt : t.cnt = s.cnt) (hlog : t.log = s.log) (hwraps : t.sup.wraps = s.sup.wraps) : Fits t :=
  ⟨hcnt ▸ h.cnt, hlog ▸ h.log, hwraps ▸ h.wraps⟩

theorem fits_enduring : Enduring Fits where
  frame h e := fits_of_eq h (congrArg (fun x => x.cnt) e) (congrArg (fun x => x.log) e) (congrArg (fun x => x.sup.wraps) e)
  count c h := { h with cnt := h.cnt.put c (satAdd_le _ _) }
  log e hlt h := { h with log := by rw [List.length_append, List.length_singleton]; exact hlt }
  modifyLog i f h := { h with log := by rw [List.length_modify]; exact h.log }
  clearLog h := { h with log := Nat.zero_le _ }
  wraps k h := { h with wraps := satAdd_le _ _ }
  drive _ h := ⟨h.cnt, h.log, h.wraps⟩
  supply _ h := ⟨h.cnt, h.log, h.wraps⟩
  dropSupply h := ⟨h.cnt, h.log, h.wraps⟩
  window _ h := ⟨h.cnt, h.log, h.wraps⟩
  thermal _ h := ⟨h.cnt, h.log, h.wraps⟩
  poke h e _ := fits_of_eq h (congrArg (fun x => x.cnt) e) (congrArg (fun x => x.log) e) (congrArg (fun x => x.sup.wraps) e)
  hccnt _ h := ⟨h.cnt, h.log, h.wraps⟩
  clocked _ _ _ h := ⟨h.cnt, h.log, h.wraps⟩
  newEdge h _ := ⟨h.cnt, h.log, h.wraps⟩
  noteShadow h _ := ⟨h.cnt, h.log, h.wraps⟩
  put _ _ h := ⟨h.cnt, h.log, h.wraps⟩
  olderShadow h := ⟨h.cnt, h.log, h.wraps⟩
  commit _ h := ⟨h.cnt, h.log, h.wraps⟩
  unstage h := ⟨h.cnt, h.log, h.wraps⟩
  begins _ _ h := ⟨h.cnt, h.log, h.wraps⟩
  goesOn _ h := ⟨h.cnt, h.log, h.wraps⟩
  frees h := ⟨h.cnt, h.log, h.wraps⟩
  rises h := ⟨h.cnt, h.log, h.wraps⟩
  cuts := .inl fun h => ⟨h.cnt, h.log, h.wraps⟩
  setCnt c v k h := { h with cnt := h.cnt.put c (satAdd_le _ _) }
  setWraps v k h := { h with wraps := satAdd_le _ _ }
  disturb {s} h := by
    unfold State.disturb
    split
    · exact h
    · exact ⟨Counters.bound_fit _, List.length_take_le _ _, Nat.and_le_right⟩
  rstn _ := ⟨Counters.reset_fit, Nat.zero_le _, Nat.zero_le _⟩
  por _ := ⟨Counters.reset_fit, Nat.zero_le _, Nat.zero_le _⟩

/-- Settles O8: `Fits` is kept by every operation and so by every step. -/
theorem countersAndLogBounded : Obligations.CountersAndLogBounded := by
  unfold Obligations.CountersAndLogBounded
  intro s t hs ⟨hcnt, hlog, hwraps⟩
  have ht : Fits t := fits_enduring.step (s := s) ⟨hcnt, hlog, hwraps⟩ hs
  exact ⟨ht.cnt, ht.log, ht.wraps⟩

/-! ### The open transaction (R149, R173, R174) -/

/-- An open transaction belongs to the access in progress. -/
def TxnOwned (s : State) : Prop := s.mem.txn.isSome = true → s.mem.cur.isSome = true

theorem txnOwned_of_none {s : State} (h : s.mem.txn = none) : TxnOwned s := fun hsome => by simp [h] at hsome

theorem txnOwned_of_eq {s t : State} (h : TxnOwned s)
    (hcur : (t.mem.cur.map fun _ => (default : OpenAccess)) = s.mem.cur.map fun _ => default)
    (htxn : (t.mem.txn.map fun _ => (default : Txn)) = s.mem.txn.map fun _ => default) : TxnOwned t := by
  have hcursome : t.mem.cur.isSome = s.mem.cur.isSome := by simpa using congrArg Option.isSome hcur
  have htxnsome : t.mem.txn.isSome = s.mem.txn.isSome := by simpa using congrArg Option.isSome htxn
  rw [TxnOwned, hcursome, htxnsome]
  exact h

/-- The port that a host error leaves has a transaction only of its access. -/
theorem boundMem_owned (s x : State) : (s.boundMem x).txn.isSome = true → (s.boundMem x).cur.isSome = true := by
  unfold State.boundMem
  dsimp only
  cases x.mem.cur.bind s.boundAccess <;> simp

theorem txnOwned_enduring : Enduring TxnOwned where
  frame h e := txnOwned_of_eq h (congrArg (fun x => x.mem.cur) e) (congrArg (fun x => x.mem.txn) e)
  count _ h := h
  log _ _ h := h
  modifyLog _ _ h := h
  clearLog h := h
  wraps _ h := h
  drive _ h := h
  supply _ h := h
  dropSupply h := h
  window _ h := h
  thermal _ h := h
  poke h e _ := txnOwned_of_eq h (congrArg (fun x => x.mem.cur) e) (congrArg (fun x => x.mem.txn) e)
  hccnt _ h := h
  clocked _ _ _ h := h
  newEdge h _ := h
  noteShadow h _ := h
  put _ _ h := h
  olderShadow h := h
  commit _ h := h
  unstage h := h
  begins _ _ _ := fun _ => rfl
  goesOn _ _ := fun _ => rfl
  frees _ := txnOwned_of_none rfl
  rises _ := txnOwned_of_none rfl
  cuts := .inr fun _ h => txnOwned_of_none h
  setCnt _ _ _ h := h
  setWraps _ _ h := h
  disturb {s} h := by
    unfold State.disturb
    split
    · exact h
    · exact boundMem_owned s _
  rstn _ := txnOwned_of_none rfl
  por _ := txnOwned_of_none rfl

/-- Settles O9: `TxnOwned` is kept by every operation and so by every step. -/
theorem transactionHasItsAccess : Obligations.TransactionHasItsAccess := by
  unfold Obligations.TransactionHasItsAccess
  exact ⟨⟨rfl, rfl⟩, fun s t hown hs => txnOwned_enduring.step hown hs⟩

end Sys2Proof.Machine

/-! SUPPORT. The reserved bits of the registers that the host writes stay 0 (R16). The proof of O5. -/

namespace Sys2Proof.Machine

open Sys2Proof.Safety

-- One after the other: a side condition that a tactic fills in waits for all earlier proofs, and would hold a thread while it does.
set_option Elab.async false

/-! ### Staged groups without reserved bits -/

/-- The reserved bits of the drive group are 0. -/
structure DriveGroup.Clean (g : DriveGroup) : Prop where
  frameLen : within g.frameLen 0xFFFFFF
  atlas : within g.atlas 0xFFFFFFFF
  ctl : within g.ctl 1
  throttle : within g.throttle 0xF
  tp : within g.tp 0xFF
  gang : ∀ j : Fin 4, within g.gang[j] 0xFFFFFFFFF

/-- The reserved bits of the supply group are 0. -/
structure SupplyGroup.Clean (g : SupplyGroup) : Prop where
  vpos : within g.vpos 0x1FF
  vneg : within g.vneg 0x1FF
  vcom : within g.vcom 0x3FF
  conv : within g.conv 0xFFFF
  ctl : within g.ctl 0x1F1

/-- The reserved bits of a window's registers are 0. -/
structure Win.Clean (w : Win) : Prop where
  base : within w.base 0xFFFFF000
  size : within w.size 0x1FFFFF
  tgt : within w.tgt 0xFFFFFFFF
  cfg : within w.cfg 0x7FFFFFFFF

/-- The reserved bits of the window group are 0. -/
structure WindowGroup.Clean (g : WindowGroup) : Prop where
  ctl : within g.ctl 0x3F
  win : ∀ n : Fin 8, g.win[n].Clean

/-- The reserved bits of the thermal group are 0. -/
structure ThermalGroup.Clean (g : ThermalGroup) : Prop where
  warn : within g.warn 0xFFFFF
  throt : within g.throt 0xFFFFF
  wrange : within g.wrange 0xFFFFFF
  model : within g.model 0xFFFFFF
  ctl : within g.ctl 0xFF01

/-- The reserved bits of a copy of the staged registers are 0. -/
structure Staged.Clean (g : Staged) : Prop where
  drive : g.drive.Clean
  supply : g.supply.Clean
  window : g.window.Clean
  thermal : g.thermal.Clean

theorem stagedWithin_iff (g : Staged) : stagedWithin g ↔ g.Clean := by
  constructor
  · intro h
    exact {
      drive := ⟨h .frameLen, h .atlas, h .drvCtl, h .throttle, h .tp, fun j => h (.gang j)⟩
      supply := ⟨h .vpos, h .vneg, h .vcom, h .conv, h .supCtl⟩
      window := ⟨h .memCtl, fun n => ⟨h (.winBase n), h (.winSize n), h (.winTgt n), h (.winCfg n)⟩⟩
      thermal := ⟨h .warn, h .throt, h .wrange, h .model, h .thmCtl⟩ }
  · intro h r
    cases r
    case memCtl => exact h.window.ctl
    case winBase n => exact (h.window.win n).base
    case winSize n => exact (h.window.win n).size
    case winTgt n => exact (h.window.win n).tgt
    case winCfg n => exact (h.window.win n).cfg
    case frameLen => exact h.drive.frameLen
    case atlas => exact h.drive.atlas
    case drvCtl => exact h.drive.ctl
    case throttle => exact h.drive.throttle
    case tp => exact h.drive.tp
    case gang j => exact h.drive.gang j
    case vpos => exact h.supply.vpos
    case vneg => exact h.supply.vneg
    case vcom => exact h.supply.vcom
    case conv => exact h.supply.conv
    case supCtl => exact h.supply.ctl
    case warn => exact h.thermal.warn
    case throt => exact h.thermal.throt
    case wrange => exact h.thermal.wrange
    case model => exact h.thermal.model
    case thmCtl => exact h.thermal.ctl

/-- An element of a vector with one element changed is the changed one or as it was. -/
theorem getElem_set_of {α : Type} {k : Nat} {p : α → Prop} {v : Vector α k} (i j : Fin k) {x : α} (hx : p x) (hv : ∀ n : Fin k, p v[n]) :
    p (v.set i x)[j] := by
  by_cases h : i = j
  · subst h
    simpa using hx
  · have hother : (v.set i x)[j] = v[j] := by simp [Fin.val_ne_of_ne h]
    rw [hother]
    exact hv j

theorem WindowGroup.Clean.setWin {g : Staged} (h : g.Clean) (n : Fin 8) {f : Win → Win} (hf : g.window.win[n].Clean → (f g.window.win[n]).Clean) :
    (g.setWin n f).Clean :=
  { h with window := { h.window with win := fun m => getElem_set_of n m (hf (h.window.win n)) h.window.win } }

/-- A write of a staged register leaves its reserved bits 0 (R16). -/
theorem Staged.Clean.put {g : Staged} (h : g.Clean) (r : StReg) (v : Word) : (g.put r v).Clean := by
  have hv := within_and v (stMask r)
  cases r
  case memCtl => exact { h with window := { h.window with ctl := hv } }
  case winBase n => exact WindowGroup.Clean.setWin h n (f := fun w => { w with base := _ }) fun hw => { hw with base := hv }
  case winSize n => exact WindowGroup.Clean.setWin h n (f := fun w => { w with size := _ }) fun hw => { hw with size := hv }
  case winTgt n => exact WindowGroup.Clean.setWin h n (f := fun w => { w with tgt := _ }) fun hw => { hw with tgt := hv }
  case winCfg n => exact WindowGroup.Clean.setWin h n (f := fun w => { w with cfg := _ }) fun hw => { hw with cfg := hv }
  case frameLen => exact { h with drive := { h.drive with frameLen := hv } }
  case atlas => exact { h with drive := { h.drive with atlas := hv } }
  case drvCtl => exact { h with drive := { h.drive with ctl := hv } }
  case throttle => exact { h with drive := { h.drive with throttle := hv } }
  case tp => exact { h with drive := { h.drive with tp := hv } }
  case gang j => exact { h with drive := { h.drive with gang := fun m => getElem_set_of (p := fun w => within w 0xFFFFFFFFF) j m hv h.drive.gang } }
  case vpos => exact { h with supply := { h.supply with vpos := hv } }
  case vneg => exact { h with supply := { h.supply with vneg := hv } }
  case vcom => exact { h with supply := { h.supply with vcom := hv } }
  case conv => exact { h with supply := { h.supply with conv := hv } }
  case supCtl => exact { h with supply := { h.supply with ctl := hv } }
  case warn => exact { h with thermal := { h.thermal with warn := hv } }
  case throt => exact { h with thermal := { h.thermal with throt := hv } }
  case wrange => exact { h with thermal := { h.thermal with wrange := hv } }
  case model => exact { h with thermal := { h.thermal with model := hv } }
  case thmCtl => exact { h with thermal := { h.thermal with ctl := hv } }

theorem Staged.reset_clean : Staged.reset.Clean := (stagedWithin_iff _).mp reset_stagedWithin

/-! ### The state -/

/-- The pending copies without reserved bits. -/
structure PendingCopies.Clean (p : PendingCopies) : Prop where
  drive : ∀ g, p.drive = some g → g.val.Clean
  supply : ∀ g, p.supply = some g → g.val.Clean
  window : ∀ g, p.window = some g → g.val.Clean
  thermal : ∀ g, p.thermal = some g → g.val.Clean

/-- The reserved bits of everything that the host writes are 0. -/
structure State.Clean (s : State) : Prop where
  host : HostClean s
  applied : s.applied.Clean
  shadow : s.shadow.Clean
  before : ∀ g, s.edge.shadow0 = some g → g.Clean
  pend : s.pend.Clean

theorem lock_within (l : BitVec 5) : within (put l.toNat 0) 0x1F := by
  revert l
  decide

theorem reserved_iff (s : State) : Reserved s ↔ s.Clean := by
  constructor
  · intro ⟨hreg, hctl, hforce, hshadow, hbefore, hdrive, hsupply, hwindow, hthermal⟩
    exact {
      host := {
        pwrCtl := hreg .pwrCtl _ rfl
        setup := hreg .pwrSetup _ rfl
        inForce := hforce
        enable := hreg .atnEnable _ rfl
        ring := fun n => ⟨hreg (.ringCtl n) _ rfl, hreg (.ringBase n) _ rfl, hreg (.ringTail n) _ rfl, hreg (.ringHeadAddr n) _ rfl,
          hreg (.ringPoll n) _ rfl⟩
        dcbSel := hreg .dcbSel _ rfl
        vlim := hreg .vlim _ rfl
        jnlCtl := hctl
        jnlBase := hreg .jnlBase _ rfl
        jnlSize := hreg .jnlSize _ rfl
        cnvCtl := hreg .cnvCtl _ rfl
        barto := hreg .barto _ rfl }
      applied := (stagedWithin_iff _).mp fun r => hreg (.st r) _ rfl
      shadow := (stagedWithin_iff _).mp hshadow
      before := fun g hg => (stagedWithin_iff _).mp (hbefore g hg)
      pend := ⟨fun g hg => ((stagedWithin_iff _).mp (hdrive g hg)).drive, fun g hg => ((stagedWithin_iff _).mp (hsupply g hg)).supply,
        fun g hg => ((stagedWithin_iff _).mp (hwindow g hg)).window, fun g hg => ((stagedWithin_iff _).mp (hthermal g hg)).thermal⟩ }
  · intro h
    refine ⟨fun r m hm => ?_, h.host.jnlCtl, h.host.inForce, (stagedWithin_iff _).mpr h.shadow, fun g hg => (stagedWithin_iff _).mpr (h.before g hg),
      fun p hp => (stagedWithin_iff _).mpr { h.shadow with drive := h.pend.drive p hp },
      fun p hp => (stagedWithin_iff _).mpr { h.shadow with supply := h.pend.supply p hp },
      fun p hp => (stagedWithin_iff _).mpr { h.shadow with window := h.pend.window p hp },
      fun p hp => (stagedWithin_iff _).mpr { h.shadow with thermal := h.pend.thermal p hp }⟩
    cases r
    case st r => exact Option.some.inj hm ▸ (stagedWithin_iff _).mpr h.applied r
    case lock => exact Option.some.inj hm ▸ lock_within s.lock
    case pwrCtl => exact Option.some.inj hm ▸ h.host.pwrCtl
    case pwrSetup => exact Option.some.inj hm ▸ h.host.setup
    case atnEnable => exact Option.some.inj hm ▸ h.host.enable
    case ringCtl n => exact Option.some.inj hm ▸ (h.host.ring n).ctl
    case ringBase n => exact Option.some.inj hm ▸ (h.host.ring n).base
    case ringTail n => exact Option.some.inj hm ▸ (h.host.ring n).tailAddr
    case ringHeadAddr n => exact Option.some.inj hm ▸ (h.host.ring n).headAddr
    case ringPoll n => exact Option.some.inj hm ▸ (h.host.ring n).poll
    case dcbSel => exact Option.some.inj hm ▸ h.host.dcbSel
    case vlim => exact Option.some.inj hm ▸ h.host.vlim
    case jnlBase => exact Option.some.inj hm ▸ h.host.jnlBase
    case jnlSize => exact Option.some.inj hm ▸ h.host.jnlSize
    case cnvCtl => exact Option.some.inj hm ▸ h.host.cnvCtl
    case barto => exact Option.some.inj hm ▸ h.host.barto
    all_goals cases hm

/-! ### What keeps them -/

/-- The enable bit of a ring is none of its reserved bits. -/
theorem ring_clean_of_kept {r r' : Ring} (h : r.Clean) (hk : r'.kept = r.kept) : r'.Clean := by
  have hfield : ∀ f : Ring → Word, f r'.kept = f r.kept := fun f => congrArg f hk
  have hmasked : r'.ctl &&& ~~~1#36 = r.ctl &&& ~~~1#36 := hfield (·.ctl)
  have hctl : ∀ w : Word, within (w &&& ~~~1#36) 0xF7 ↔ within w 0xF7 := by
    intro w
    unfold within
    rw [BitVec.and_assoc]
    rfl
  exact {
    ctl := (hctl _).mp (hmasked ▸ (hctl _).mpr h.ctl)
    base := (hfield (·.base) :) ▸ h.base
    tailAddr := (hfield (·.tailAddr) :) ▸ h.tailAddr
    headAddr := (hfield (·.headAddr) :) ▸ h.headAddr
    poll := (hfield (·.poll) :) ▸ h.poll }

theorem hostClean_of_seen {s t : State} (h : HostClean s) (e : t.seen = s.seen) : HostClean t := by
  have hfield : ∀ f : State → Word, f t.seen = f s.seen := fun f => congrArg f e
  have hring : ∀ n : RingNo, t.rings[n].kept = s.rings[n].kept := by
    intro n
    have hn : (t.rings.map Ring.kept)[n] = (s.rings.map Ring.kept)[n] := congrArg (fun x => x.rings[n]) e
    simpa using hn
  exact {
    pwrCtl := (hfield (·.pw.ctl) :) ▸ h.pwrCtl
    setup := (hfield (·.port.setup) :) ▸ h.setup
    inForce := (hfield (·.port.inForce) :) ▸ h.inForce
    enable := (hfield (·.enable) :) ▸ h.enable
    ring := fun n => ring_clean_of_kept (h.ring n) (hring n)
    dcbSel := (hfield (·.drv.dcbSel) :) ▸ h.dcbSel
    vlim := (hfield (·.sup.vlim) :) ▸ h.vlim
    jnlCtl := (hfield (·.jnl.ctl) :) ▸ h.jnlCtl
    jnlBase := (hfield (·.jnl.base) :) ▸ h.jnlBase
    jnlSize := (hfield (·.jnl.size) :) ▸ h.jnlSize
    cnvCtl := (hfield (·.cnv.ctl) :) ▸ h.cnvCtl
    barto := (hfield (·.cnv.barto) :) ▸ h.barto }

theorem clean_of_groups {s t : State} (h : s.Clean) (host : HostClean t) (happlied : t.applied = s.applied) (hshadow : t.shadow = s.shadow)
    (hbefore : t.edge.shadow0 = s.edge.shadow0) (hpend : t.pend = s.pend) : t.Clean where
  host := host
  applied := happlied ▸ h.applied
  shadow := hshadow ▸ h.shadow
  before := hbefore ▸ h.before
  pend := hpend ▸ h.pend

theorem clean_of_host {s t : State} (h : s.Clean) (host : HostClean t) (happlied : t.applied = s.applied := by rfl)
    (hshadow : t.shadow = s.shadow := by rfl) (hbefore : t.edge.shadow0 = s.edge.shadow0 := by rfl) (hpend : t.pend = s.pend := by rfl) :
    t.Clean := clean_of_groups h host happlied hshadow hbefore hpend

theorem clean_stable : Stable State.Clean where
  frame h e := clean_of_groups h (hostClean_of_seen h.host e) (congrArg (fun x => x.applied) e) (congrArg (fun x => x.shadow) e)
    (congrArg (fun x => x.edge.shadow0) e) (congrArg (fun x => x.pend) e)
  count _ h := { h with host := { h.host with } }
  log _ _ h := { h with host := { h.host with } }
  modifyLog _ _ h := { h with host := { h.host with } }
  clearLog h := { h with host := { h.host with } }
  wraps _ h := { h with host := { h.host with } }
  drive hp h := { h with
    host := { h.host with }
    applied := { h.applied with drive := h.pend.drive _ hp }
    pend := { h.pend with drive := fun _ hn => by cases hn } }
  supply hp h := { h with host := { h.host with }, applied := { h.applied with supply := h.pend.supply _ hp } }
  dropSupply h := { h with host := { h.host with }, pend := { h.pend with supply := fun _ hn => by cases hn } }
  window hp h := { h with
    host := { h.host with }
    applied := { h.applied with window := h.pend.window _ hp }
    pend := { h.pend with window := fun _ hn => by cases hn } }
  thermal hp h := { h with
    host := { h.host with }
    applied := { h.applied with thermal := h.pend.thermal _ hp }
    pend := { h.pend with thermal := fun _ hn => by cases hn } }

theorem clean_commit {s : State} (h : s.Clean) (g : BitVec 4) : (s.commit g s.shadow).Clean := by
  have htake : ∀ {α : Type} {p : α → Prop} {c : Bool} {x : α} {o : Option (Pending α)}, p x → (∀ q, o = some q → p q.val) →
      ∀ q, (if c then some ⟨x, s.now⟩ else o) = some q → p q.val := by
    intro α p c x o hx ho q hq
    split at hq
    · obtain rfl := Option.some.inj hq
      exact hx
    · exact ho q hq
  exact { h with
    host := { h.host with }
    pend := ⟨htake h.shadow.drive h.pend.drive, htake h.shadow.supply h.pend.supply, htake h.shadow.window h.pend.window,
      htake h.shadow.thermal h.pend.thermal⟩ }

theorem clean_disturb {s : State} (h : s.Clean) : s.disturb.Clean := by
  unfold State.disturb
  split
  · exact h
  · have hring : ∀ (x : State) (n : RingNo), (s.rings.zipWith Ring.bound x.rings)[n].Clean := by
      intro x n
      rw [Fin.getElem_fin, Vector.getElem_zipWith]
      exact { h.host.ring n with }
    exact { h with host := { h.host with ring := hring _ } }

theorem reset_clean : State.reset.Clean := (reserved_iff _).mp reset_reserved

/-- A reset keeps the locked limits and window registers, and no reserved bit of theirs is set (Table 4.2). -/
theorem clean_rstnClear {s : State} (h : s.Clean) : s.rstnClear.Clean := by
  have hfast : s.fastDischarge.Clean := clean_stable.fastDischarge h
  unfold State.rstnClear
  dsimp only
  generalize s.fastDischarge = x at hfast ⊢
  have happlied : Staged.Clean { Staged.reset with
      window := { Staged.reset.window with win := x.applied.window.win }
      thermal := { Staged.reset.thermal with
        warn := x.applied.thermal.warn, throt := x.applied.thermal.throt, wrange := x.applied.thermal.wrange } } :=
    { Staged.reset_clean with
      window := { Staged.reset_clean.window with win := hfast.applied.window.win }
      thermal := { Staged.reset_clean.thermal with
        warn := hfast.applied.thermal.warn, throt := hfast.applied.thermal.throt, wrange := hfast.applied.thermal.wrange } }
  have hring : Ring.Clean { Ring.reset with stale := true } := { reset_clean.host.ring 0 with }
  exact { reset_clean with
    host := { reset_clean.host with
      vlim := hfast.host.vlim, jnlBase := hfast.host.jnlBase, jnlSize := hfast.host.jnlSize
      ring := fun n => by
        rw [Fin.getElem_fin, Vector.getElem_replicate]
        exact hring }
    applied := happlied, shadow := happlied }

theorem clean_enduring : Enduring State.Clean where
  toStable := clean_stable
  poke h e host := clean_of_groups h (host h.host) (congrArg (fun x => x.applied) e) (congrArg (fun x => x.shadow) e)
    (congrArg (fun x => x.edge.shadow0) e) (congrArg (fun x => x.pend) e)
  hccnt _ h := clean_of_host h { h.host with }
  clocked _ _ _ h := clean_of_host h { h.host with }
  newEdge h e := { h with host := { h.host with }, before := fun g hg => by rw [show State.edge _ = _ from rfl, e] at hg; cases hg }
  noteShadow {s g} h hg := { h with
    host := { h.host with }
    before := fun x hx => by
      obtain hx | ⟨_, hx⟩ := Option.or_eq_some_iff.mp hx
      · exact h.before x hx
      · obtain rfl := Option.some.inj hx
        exact hg.shadow }
  put r v h := { h with host := { h.host with }, shadow := h.shadow.put r v }
  olderShadow {s} h := { h with
    host := { h.host with }
    shadow := by
      cases hb : s.edge.shadow0 with
      | none => exact h.shadow
      | some g => exact h.before g hb }
  commit g h := clean_commit h g
  unstage h := { h with
    host := { h.host with }
    shadow := h.applied
    pend := ⟨fun _ hn => by (cases hn), fun _ hn => by (cases hn), fun _ hn => by (cases hn), fun _ hn => by (cases hn)⟩ }
  begins _ _ h := clean_of_host h { h.host with }
  goesOn _ h := clean_of_host h { h.host with }
  frees h := clean_of_host h { h.host with }
  rises h := clean_of_host h { h.host with }
  cuts := .inl fun h => clean_of_host h { h.host with }
  setCnt _ _ _ h := clean_of_host h { h.host with }
  setWraps _ _ h := clean_of_host h { h.host with }
  disturb h := clean_disturb h
  rstn h := clean_rstnClear h
  por _ := { reset_clean with host := { reset_clean.host with } }

/-- Settles O5: reserved bits that are 0 (`reserved_iff`) stay 0 over every operation and so over every step. -/
theorem reservedKept : Obligations.ReservedKept := by
  unfold Obligations.ReservedKept
  exact fun s t hs hstep => (reserved_iff t).mpr (clean_enduring.step ((reserved_iff s).mp hs) hstep)

end Sys2Proof.Machine

/-! SUPPORT. Counters and the fault log, words of registers bit by bit. ATTN_N. The proofs of O24, O18 and O19. -/

namespace Sys2Proof.Machine

open Sys2Proof.Safety

/-! ### Words and fields -/

@[simp] theorem bitOf_or (a b : Word) (i : Nat) : bitOf (a ||| b) i = (bitOf a i || bitOf b i) := BitVec.getLsbD_or

@[simp] theorem bitOf_and (a b : Word) (i : Nat) : bitOf (a &&& b) i = (bitOf a i && bitOf b i) := BitVec.getLsbD_and

theorem bitOf_not {i : Nat} (h : i < 36) (a : Word) : bitOf (~~~a) i = !bitOf a i := by
  simp [bitOf, h]

/-- The low bits of a word as a vector of their own. -/
theorem ofNat_fld_low (n : Nat) (v : Word) : BitVec.ofNat n (fld v 0 n) = v.extractLsb' 0 n := BitVec.eq_of_toNat_eq (by simp [fld])

theorem bitOf_bitMask {i : Nat} (h : i < 36) : bitOf (bitMask i) i = true := by
  rw [bitOf, bitMask, BitVec.getLsbD_ofNat, Nat.testBit_two_pow_self, decide_eq_true h]
  rfl

theorem setCause_bit (s : State) {i : Nat} (h : i < 36) : bitOf (s.setCause (bitMask i)).cause i = true := by
  rw [State.setCause_cause, bitOf_or, bitOf_bitMask h, Bool.or_true]

/-! ### Counters (R146) -/

theorem toNat_satAdd (max v : Word) (k : Nat) : (satAdd max v k).toNat = min max.toNat (v.toNat + k) := by
  have hmax := max.isLt
  unfold satAdd
  split
  next h => exact (Nat.min_eq_left h).symm
  next h =>
    rw [BitVec.toNat_ofNat, Nat.mod_eq_of_lt (by omega)]
    omega

theorem count_get (s : State) (c d : Cnt) :
    ((s.count c).cnt.get d).toNat = if d = c then min c.max.toNat ((s.cnt.get c).toNat + 1) else (s.cnt.get d).toNat := by
  rw [State.count_cnt]
  split
  next h => rw [h, Counters.get_put, toNat_satAdd]
  next h => rw [Counters.get_put_of_ne _ _ h]

/-- An event that leaves its counter at the maximum sets cnt_sat. -/
theorem count_saturates (s : State) {c : Cnt} (h : c.max.toNat ≤ (s.cnt.get c).toNat + 1) : bitOf (s.count c).cause 25 = true := by
  have hsat : satAdd c.max (s.cnt.get c) 1 = c.max := if_pos h
  unfold State.count State.putCnt
  simp only [hsat, beq_self_eq_true, Bool.and_self, if_true]
  exact setCause_bit _ (by decide)

/-! ### The fault log (R147) -/

theorem toNat_put {v lo : Nat} (h : v * 2 ^ lo < 2 ^ 36) : (put v lo).toNat = v * 2 ^ lo := by
  rw [put, BitVec.toNat_ofNat, Nat.mod_eq_of_lt h]

/-- A log entry's first word as a number (Table 7.24). -/
theorem toNat_logWord {code detail index : Nat} (n : RingNo) (hcode : code < 256) (hdetail : detail < 256) (hindex : index < 65536) :
    (put code 0 + put (detail % 256) 8 + put n.val 16 + put (index % 2 ^ 16) 18).toNat =
      code + 256 * detail + 65536 * n.val + 262144 * index := by
  have hn := n.isLt
  have h0 : (put code 0).toNat = code * 2 ^ 0 := toNat_put (by omega)
  have h8 : (put (detail % 256) 8).toNat = detail % 256 * 2 ^ 8 := toNat_put (by omega)
  have h16 : (put n.val 16).toNat = n.val * 2 ^ 16 := toNat_put (by omega)
  have h18 : (put (index % 2 ^ 16) 18).toNat = index % 2 ^ 16 * 2 ^ 18 := toNat_put (by omega)
  generalize put code 0 = a at h0 ⊢
  generalize put (detail % 256) 8 = b at h8 ⊢
  generalize put n.val 16 = c at h16 ⊢
  generalize put (index % 2 ^ 16) 18 = d at h18 ⊢
  bv_omega

/-- The fields of a log entry's first word (Table 7.24). -/
theorem fld_logWord {code detail index : Nat} (n : RingNo) (hcode : code < 256) (hdetail : detail < 256) (hindex : index < 65536) {w : Word}
    (hw : w = put code 0 + put (detail % 256) 8 + put n.val 16 + put (index % 2 ^ 16) 18) :
    fld w 0 8 = code ∧ fld w 8 8 = detail ∧ fld w 16 2 = n.val ∧ fld w 18 16 = index := by
  have hn := n.isLt
  have hnat := congrArg BitVec.toNat hw
  rw [toNat_logWord n hcode hdetail hindex] at hnat
  simp only [fld, Nat.shiftRight_eq_div_pow, hnat]
  omega

theorem log_of_room (s : State) (code detail : Nat) (n : RingNo) (i : Nat) (h : s.log.length < 16) :
    ∃ e, s.log_ code detail n i = { s with log := s.log ++ [e] } ∧ e.b = s.pw.hccnt ∧
      (code < 256 → detail < 256 → i < 65536 → fld e.a 0 8 = code ∧ fld e.a 8 8 = detail ∧ fld e.a 16 2 = n.val ∧ fld e.a 18 16 = i) :=
  ⟨_, if_pos h, rfl, fun hcode hdetail hindex => fld_logWord n hcode hdetail hindex rfl⟩

theorem log_of_full (s : State) (code detail : Nat) (n : RingNo) (i : Nat) (h : 16 ≤ s.log.length) :
    (s.log_ code detail n i).log = s.log ∧ (s.log_ code detail n i).overflow.toNat = min 65535 (s.overflow.toNat + 1) ∧
      bitOf (s.log_ code detail n i).cause 14 = true := by
  have hlog : s.log_ code detail n i = ({ s with overflow := if s.overflow = 0xFFFF then s.overflow else s.overflow + 1 }).setCause (bitMask 14) :=
    if_neg (by omega)
  rw [hlog]
  refine ⟨rfl, ?_, ?_⟩
  · dsimp only [State.setCause]
    have hlt := s.overflow.isLt
    split
    next hmax =>
      rw [hmax]
      decide
    next hmax =>
      have hne : s.overflow.toNat ≠ 65535 := fun e => hmax (BitVec.eq_of_toNat_eq e)
      have hone : (1 : BitVec 16).toNat = 1 := rfl
      rw [BitVec.toNat_add, hone]
      omega
  · exact setCause_bit _ (by decide)

/-- An event of a counter reaches the counter, its cause and the edge's record alone. -/
theorem State.count_eq (s : State) (c : Cnt) : ∃ e n k, s.count c = { s with edge := e, cnt := n, cause := k } := by
  unfold State.count State.putCnt
  dsimp only
  split <;> exact ⟨_, _, _, rfl⟩

/-- A log entry reaches the log, its overflow, and that cause with the edge's record of it. -/
theorem State.log_eq (s : State) (code detail : Nat) (n : RingNo) (i : Nat) :
    ∃ e l o k, s.log_ code detail n i = { s with edge := e, log := l, overflow := o, cause := k } := by
  unfold State.log_
  split <;> exact ⟨_, _, _, _, rfl⟩

/-- Settles O24: `count_get` and `count_saturates` for the counters, `log_of_room` and `log_of_full` for the log. -/
theorem countersAndLog : Obligations.CountersAndLog := by
  unfold Obligations.CountersAndLog
  exact ⟨count_get, fun s c h => count_saturates s h, log_of_room, log_of_full⟩

/-! ### Writes that are ignored (R121, R144) -/

/-- An ignored write reaches the counter, its cause and the edge's record alone. -/
theorem State.lockViolation_eq (s : State) : ∃ c n e, s.lockViolation = { s with cause := c, cnt := n, edge := e } := by
  obtain ⟨e, n, k, h⟩ := s.count_eq .lockViol
  rw [State.lockViolation, h]
  exact ⟨_, _, _, rfl⟩

theorem State.lockViolation_leaves (s : State) :
    s.lockViolation.tile = s.tile ∧ s.lockViolation.tileWritten = s.tileWritten ∧ s.lockViolation.sup = s.sup ∧
      s.lockViolation.jnl = s.jnl ∧ s.lockViolation.cnt.lockViol = satAdd 0xFFFF s.cnt.lockViol 1 ∧
      bitOf s.lockViolation.cause 3 = true ∧ s.lockViolation.attn = s.attn := by
  obtain ⟨c, n, e, h⟩ := s.lockViolation_eq
  refine ⟨?_, ?_, s.lockViolation_sup, s.lockViolation_jnl, by rw [s.lockViolation_cnt], s.lockViolation_cause, ?_⟩
  all_goals rw [h]

theorem State.writeReg_tileId_locked (s : State) (h : s.tileWritten = true) (v : Word) : s.writeReg .tileId v = s.lockViolation := if_pos h

theorem State.writeReg_tileId_open (s : State) (h : s.tileWritten = false) (v : Word) :
    s.writeReg .tileId v = { s with tile := v.extractLsb' 0 16, tileWritten := true } := by
  rw [State.writeReg, h, if_neg Bool.false_ne_true, ofNat_fld_low]

theorem State.writeReg_vlim_locked (s : State) (h : s.lock.getLsbD 2 = true) (v : Word) : s.writeReg .vlim v = s.lockViolation := if_pos h

/-- With the lock bit clear the region's registers are written, unless the journal is in use. -/
theorem State.writeRegion_open (s : State) (h : s.lock.getLsbD 4 = false) (f : Journal → Journal) :
    s.writeRegion f = if bitOf s.jnl.ctl 0 || s.pw.jopen || s.checking then s else s.onJnl f := by
  rw [State.writeRegion, h, if_neg Bool.false_ne_true]

theorem State.writeRegion_used (s : State) (h : s.lock.getLsbD 4 = false)
    (hused : bitOf s.jnl.ctl 0 = true ∨ s.pw.jopen = true ∨ s.jnl.scan.isSome = true ∨ s.jnl.replay.isSome = true) (f : Journal → Journal) :
    s.writeRegion f = s := by
  rw [s.writeRegion_open h, if_pos]
  simpa [State.checking, or_assoc] using hused

theorem State.writeRegion_unused (s : State) (h : s.lock.getLsbD 4 = false) (henable : bitOf s.jnl.ctl 0 = false) (hopen : s.pw.jopen = false)
    (hscan : s.jnl.scan = none) (hreplay : s.jnl.replay = none) (f : Journal → Journal) : s.writeRegion f = s.onJnl f := by
  rw [s.writeRegion_open h, if_neg]
  simp [State.checking, henable, hopen, hscan, hreplay]

/-- Settles O18: an ignored write is `State.lockViolation`, whose effects `State.lockViolation_leaves` lists. -/
theorem ignoredWrites : Obligations.IgnoredWrites := by
  unfold Obligations.IgnoredWrites
  refine ⟨⟨fun s t v h => ?_, fun s v h => s.writeReg_tileId_open h v⟩, fun s v h => ⟨fun hused => ?_, fun henable hopen hscan hreplay => ?_⟩⟩
  · have ht : t = s.lockViolation := by
      obtain ⟨hwritten, rfl⟩ | ⟨hlock, rfl⟩ | ⟨hlock, rfl | rfl⟩ := h
      · exact s.writeReg_tileId_locked hwritten v
      · exact s.writeReg_vlim_locked hlock v
      · exact if_pos hlock
      · exact if_pos hlock
    exact ht ▸ s.lockViolation_leaves
  · exact ⟨s.writeRegion_used h hused _, s.writeRegion_used h hused _⟩
  · exact ⟨s.writeRegion_unused h henable hopen hscan hreplay _, s.writeRegion_unused h henable hopen hscan hreplay _⟩

/-! ### Write-one-to-clear (Tables 6.1 and 6.5) -/

theorem bitOf_w1c {i : Nat} (h : i < 36) (old v set : Word) : bitOf (w1c old v set) i = (bitOf old i && !(bitOf v i && !bitOf set i)) := by
  rw [w1c, bitOf_and, bitOf_not h, bitOf_and, bitOf_not h]

/-- Bit i of word j of SUP_FAULT0 to SUP_FAULT8. -/
theorem fault_w1c (fault set : BitVec 292) (v : Word) {i : Nat} (j : Nat) (hj : 36 * j + i < 292) :
    (fault &&& ~~~((v.setWidth 292 <<< (36 * j)) &&& ~~~set)).getLsbD (36 * j + i) =
      (fault.getLsbD (36 * j + i) && !(bitOf v i && !set.getLsbD (36 * j + i))) := by
  simp [bitOf, hj]

/-! ### ATTN_N (R129) -/

/-- ATTN_N is driven low. -/
def AttnIs (b : Bool) (s : State) : Prop := s.attn = b

theorem attnIs_stable (b : Bool) : Stable (AttnIs b) where
  frame h e := (congrArg (fun x : State => x.attn) e :).trans h
  count _ h := h
  log _ _ h := h
  modifyLog _ _ h := h
  clearLog h := h
  wraps _ h := h
  drive _ h := h
  supply _ h := h
  dropSupply h := h
  window _ h := h
  thermal _ h := h

/-- Of an edge nothing but the causes moves ATTN_N. -/
theorem State.advance_attn (s : State) : s.advance.attn = s.attnNext := by
  have hS := attnIs_stable s.attnNext
  unfold State.advance
  dsimp only
  refine hS.settle (hS.takeSupply (holds_foldl (fun _ _ hx => hS.runDeferred hx) (hS.drawLogic ?_)))
  rfl

/-- Settles O19: `bitOf_w1c` and `fault_w1c` bit by bit, `State.advance_attn` for the line. -/
theorem writeOneClears : Obligations.WriteOneClears := by
  unfold Obligations.WriteOneClears
  refine ⟨fun s v i hi => ⟨bitOf_w1c hi _ _ _, bitOf_w1c hi _ _ _, bitOf_w1c hi _ _ _, fun j hj => fault_w1c _ _ _ j hj⟩, ?_, fun s v => ⟨rfl, rfl⟩⟩
  rintro s r rfl
  exact State.advance_attn s.closeEdge

end Sys2Proof.Machine

/-! SUPPORT. Commits of the staged groups and their safe points. The proof of O20. -/

namespace Sys2Proof.Machine

open Sys2Proof.Safety

/-! ### Commits (R113 to R115) -/

/-- Bit i of the low n bits of a word. -/
theorem getLsbD_low (n : Nat) (v : Word) {i : Nat} (h : i < n) : (BitVec.ofNat n (fld v 0 n)).getLsbD i = bitOf v i := by
  rw [ofNat_fld_low, BitVec.getLsbD_extractLsb', decide_eq_true h, Bool.true_and, Nat.zero_add]
  rfl

/-- ID_CFG_PENDING shows which groups have a pending copy (R113). -/
theorem bits_getLsbD (p : PendingCopies) :
    p.bits.getLsbD 0 = p.drive.isSome ∧ p.bits.getLsbD 1 = p.supply.isSome ∧ p.bits.getLsbD 2 = p.window.isSome ∧
      p.bits.getLsbD 3 = p.thermal.isSome := by
  unfold PendingCopies.bits
  generalize p.drive.isSome = a
  generalize p.supply.isSome = b
  generalize p.window.isSome = c
  generalize p.thermal.isSome = d
  revert a b c d
  decide

theorem bitOf_put_toNat {n : Nat} (x : BitVec n) {i : Nat} (h : i < 36) : bitOf (put x.toNat 0) i = x.getLsbD i := by
  rw [bitOf, put, BitVec.getLsbD_ofNat, decide_eq_true h, Bool.true_and, pow_zero, Nat.mul_one]
  rfl

/-- ID_COMMIT while no function-wide reset is busy. -/
theorem State.writeReg_commit (s : State) (h : s.pw.busy = false) (v : Word) :
    s.writeReg .commit v = (s.commit (BitVec.ofNat 4 (fld v 0 4)) s.shadow).scReads (v &&& 0xF) := by
  rw [State.writeReg, h, if_neg Bool.false_ne_true]

theorem writeReg_commit_pend (s : State) (h : s.pw.busy = false) (v : Word) :
    (s.writeReg .commit v).pend.drive = (if bitOf v 0 then some ⟨s.shadow.drive, s.now⟩ else s.pend.drive) ∧
    (s.writeReg .commit v).pend.supply = (if bitOf v 1 then some ⟨s.shadow.supply, s.now⟩ else s.pend.supply) ∧
    (s.writeReg .commit v).pend.window = (if bitOf v 2 then some ⟨s.shadow.window, s.now⟩ else s.pend.window) ∧
    (s.writeReg .commit v).pend.thermal = (if bitOf v 3 then some ⟨s.shadow.thermal, s.now⟩ else s.pend.thermal) := by
  rw [s.writeReg_commit h]
  dsimp only [State.scReads, State.commit]
  simp only [getLsbD_low 4 v (show 0 < 4 by decide), getLsbD_low 4 v (show 1 < 4 by decide), getLsbD_low 4 v (show 2 < 4 by decide),
    getLsbD_low 4 v (show 3 < 4 by decide), and_self]

/-- The bit of each group named reads 1 in ID_CFG_PENDING. -/
theorem writeReg_commit_bits (s : State) (h : s.pw.busy = false) (v : Word) {i : Nat} (hi : i < 4) (hv : bitOf v i = true) :
    bitOf ((s.writeReg .commit v).readReg .cfgPending) i = true := by
  obtain ⟨hdrive, hsupply, hwindow, hthermal⟩ := writeReg_commit_pend s h v
  obtain ⟨b0, b1, b2, b3⟩ := bits_getLsbD (s.writeReg .commit v).pend
  rw [State.readReg, bitOf_put_toNat _ (by omega)]
  match i, hi with
  | 0, _ => rw [b0, hdrive, if_pos hv]; rfl
  | 1, _ => rw [b1, hsupply, if_pos hv]; rfl
  | 2, _ => rw [b2, hwindow, if_pos hv]; rfl
  | 3, _ => rw [b3, hthermal, if_pos hv]; rfl

/-! ### Safe points -/

theorem State.applyDrive_due {s : State} {p : Pending DriveGroup} (hp : s.pend.drive = some p) (hlt : p.at0 < s.now) :
    s.applyDrive = { s with applied := { s.applied with drive := p.val }, pend := { s.pend with drive := none } } := by
  unfold State.applyDrive
  rw [hp]
  exact if_pos hlt

theorem State.applyWindow_due {s : State} {p : Pending WindowGroup} (hp : s.pend.window = some p) (hlt : p.at0 < s.now) :
    s.applyWindow = { s with
      applied := { s.applied with window := p.val }, pend := { s.pend with window := none }
      edge := { s.edge with windowApplied := true } } := by
  unfold State.applyWindow
  rw [hp]
  exact if_pos hlt

theorem State.applyThermal_due {s : State} {p : Pending ThermalGroup} (hp : s.pend.thermal = some p) (hlt : p.at0 < s.now) :
    s.applyThermal = { s with applied := { s.applied with thermal := p.val }, pend := { s.pend with thermal := none } } := by
  unfold State.applyThermal
  rw [hp]
  exact if_pos hlt

/-- A command's next state, from what its body makes of the edge on which it acts. -/
theorem event_body {dt : Nat} {body : State → State} {s b : State} (hb : body (s.arrive dt) = b) : event dt body s = .next b.settle :=
  hb ▸ event_next dt body s

/-- DRIVE_GROUP_APPLY on the edge that it waits for (R113). -/
theorem exec_driveGroupApply {s : State} {dt n : Nat} {p : Pending DriveGroup} (h : (s.arrive dt).answering = true)
    (hp : (s.arrive dt).pend.drive = some p)
    (hn : n = match (s.arrive dt).drv.frames with | some f => max (p.at0 + 1) (f.start + f.len) | none => p.at0 + 1) :
    exec (.driveGroupApply dt) s = .next (((s.arrive dt).waitUntil n).applyDrive.checkAhead).settle := by
  show execDriveGroupApply dt s = _
  unfold execDriveGroupApply
  refine event_body ?_
  rw [hp, h, hn]
  rfl

theorem exec_supplyGroupApply {s : State} {dt : Nat} {p : Pending SupplyGroup} (h : (s.arrive dt).answering = true)
    (hp : (s.arrive dt).pend.supply = some p) (hlt : p.at0 < (s.arrive dt).now) :
    exec (.supplyGroupApply dt) s = .next (s.arrive dt).completeSupply.settle := by
  show execSupplyGroupApply dt s = _
  unfold execSupplyGroupApply
  refine event_body ?_
  rw [hp, h]
  dsimp only
  rw [if_pos rfl, State.waitUntil_past _ _ hlt]

theorem exec_windowGroupApply {s : State} {dt : Nat} {p : Pending WindowGroup} (h : (s.arrive dt).answering = true)
    (hp : (s.arrive dt).pend.window = some p) (hcur : (s.arrive dt).mem.cur = none) (htxn : (s.arrive dt).mem.txn = none)
    (harb : (s.arrive dt).edge.arbitrated = false) (hlt : p.at0 < (s.arrive dt).now) (hrise : (s.arrive dt).mem.rise < (s.arrive dt).now) :
    exec (.windowGroupApply dt) s = .next (s.arrive dt).applyWindow.settle := by
  show execWindowGroupApply dt s = _
  unfold execWindowGroupApply
  refine event_body ?_
  rw [hp]
  dsimp only
  rw [h, hcur, htxn, harb, if_pos (by rfl), State.waitUntil_past _ _ (by omega)]

/-- The supply group on an edge after its commit (R288). -/
theorem State.takeSupply_due {s : State} {p : Pending SupplyGroup} (hp : s.pend.supply = some p) (hlt : p.at0 < s.now) :
    ∃ k, s.takeSupply = { s with applied := { s.applied with supply := p.val }, sup := { s.sup with slew0 := k } } := by
  unfold State.takeSupply
  rw [hp]
  exact ⟨_, if_pos hlt⟩

/-- With the rails off the group completes at once, its set-points at their targets. -/
theorem State.completeSupply_off {s : State} {p : Pending SupplyGroup} (hp : s.pend.supply = some p) (hlt : p.at0 < s.now)
    (hoff : s.sup.railsUp = false) :
    s.completeSupply.applied = { s.applied with supply := p.val } ∧ s.completeSupply.pend = { s.pend with supply := none } ∧
      (s.completeSupply.sup.vpos, s.completeSupply.sup.vneg, s.completeSupply.sup.vcom) = s.completeSupply.railTargets := by
  obtain ⟨k, htake⟩ := State.takeSupply_due hp hlt
  have heq : s.completeSupply = { s.takeSupply.takeTargets with pend := { s.takeSupply.pend with supply := none } } := by
    unfold State.completeSupply
    rw [htake]
    dsimp only
    rw [hp]
    dsimp only
    rw [if_neg (by omega), hoff]
    rfl
  rw [heq, htake]
  exact ⟨rfl, rfl, rfl⟩

/-- With the rails up it takes its codes, and its pending bit clears when every set-point has its value. -/
theorem State.completeSupply_up {s : State} {p : Pending SupplyGroup} (hp : s.pend.supply = some p) (hlt : p.at0 < s.now)
    (hup : s.sup.railsUp = true) :
    s.completeSupply.applied.supply = p.val ∧ (s.completeSupply.settled = true → s.completeSupply.pend.supply = none) ∧
      (s.completeSupply.settled = false → s.completeSupply.pend.supply = some p) := by
  obtain ⟨k, htake⟩ := State.takeSupply_due hp hlt
  have heq : s.completeSupply =
      if s.takeSupply.settled then { s.takeSupply with pend := { s.takeSupply.pend with supply := none } } else s.takeSupply := by
    unfold State.completeSupply
    rw [htake]
    dsimp only
    rw [hp]
    dsimp only
    rw [if_neg (by omega), hup]
    rfl
  have hsame : s.completeSupply.settled = s.takeSupply.settled := by
    rw [heq]
    split <;> rfl
  rw [hsame, heq]
  cases hset : s.takeSupply.settled with
  | true =>
    rw [if_pos rfl, htake]
    exact ⟨rfl, fun _ => rfl, fun h => by cases h⟩
  | false =>
    rw [if_neg Bool.false_ne_true, htake]
    exact ⟨rfl, fun h => (by cases h), fun _ => hp⟩

/-- Settles O20: `writeReg_commit_pend` and `writeReg_commit_bits` for the commit, the groups' operations on their edges for the rest. -/
theorem commitAndApply : Obligations.CommitAndApply := by
  unfold Obligations.CommitAndApply
  refine ⟨fun s v => ⟨fun h => if_pos h, fun h => ?_⟩, fun s dt p h hp hframes hlt => ?_, fun s dt p h hp hcur htxn harb hlt hrise => ?_,
    fun s dt p h hp hoff hlt => ?_⟩
  · obtain ⟨hdrive, hsupply, hwindow, hthermal⟩ := writeReg_commit_pend s h v
    exact ⟨hdrive, hsupply, hwindow, hthermal, by rw [s.writeReg_commit h]; rfl, by rw [s.writeReg_commit h]; rfl,
      fun i hi hv => writeReg_commit_bits s h v hi hv⟩
  · refine ⟨_, exec_driveGroupApply h hp (by rw [hframes]), ?_⟩
    rw [State.waitUntil_past _ _ hlt, State.applyDrive_due hp hlt]
    exact ⟨rfl, rfl⟩
  · refine ⟨_, exec_windowGroupApply h hp hcur htxn harb hlt hrise, ?_⟩
    rw [State.applyWindow_due hp hlt]
    exact ⟨rfl, rfl, by simp [State.mayArbitrate]⟩
  · exact ⟨_, exec_supplyGroupApply h hp hlt, State.completeSupply_off hp hlt hoff⟩

end Sys2Proof.Machine

/-! SUPPORT. The safe points of the groups in a working engine: the frame clock's start edges for the drive group, the result edge for the
thermal group. The proof of O21. -/

namespace Sys2Proof.Machine

open Sys2Proof.Safety

/-! ### The drive group on the frame clock (R113) -/

/-- The copy p of the drive group is pending, or it has applied. -/
def DriveDue (p : Pending DriveGroup) (s : State) : Prop := s.pend.drive = some p ∨ s.applied.drive = p.val ∧ s.pend.drive = none

/-- The drive group g has applied, and none is pending. -/
def DriveTaken (g : DriveGroup) (s : State) : Prop := s.applied.drive = g ∧ s.pend.drive = none

theorem driveTaken_stable (g : DriveGroup) : Stable (DriveTaken g) where
  frame h e := ⟨(congrArg (fun x : State => x.applied.drive) e :).trans h.1, (congrArg (fun x : State => x.pend.drive) e :).trans h.2⟩
  count _ h := h
  log _ _ h := h
  modifyLog _ _ h := h
  clearLog h := h
  wraps _ h := h
  drive hp h := by rw [h.2] at hp; cases hp
  supply _ h := h
  dropSupply h := h
  window _ h := h
  thermal _ h := h

theorem driveDue_stable (p : Pending DriveGroup) : Stable (DriveDue p) where
  frame h e := h.imp (congrArg (fun x : State => x.pend.drive) e :).trans fun h =>
    ⟨(congrArg (fun x : State => x.applied.drive) e :).trans h.1, (congrArg (fun x : State => x.pend.drive) e :).trans h.2⟩
  count _ h := h
  log _ _ h := h
  modifyLog _ _ h := h
  clearLog h := h
  wraps _ h := h
  drive {s q} hq h := by
    obtain h | ⟨-, h⟩ := h
    · rw [h] at hq
      obtain rfl := Option.some.inj hq
      exact .inr ⟨rfl, rfl⟩
    · rw [h] at hq
      cases hq
  supply _ h := h
  dropSupply h := h
  window _ h := h
  thermal _ h := h

/-- At a safe point the pending copy applies. -/
theorem applyDrive_taken {s : State} {p : Pending DriveGroup} (h : DriveDue p s) (hlt : p.at0 < s.now) : DriveTaken p.val s.applyDrive := by
  obtain h | ⟨happlied, hnone⟩ := h
  · rw [State.applyDrive_due h hlt]
    exact ⟨rfl, rfl⟩
  · have hsame : s.applyDrive = s := by rw [State.applyDrive, hnone]
    rw [hsame]
    exact ⟨happlied, hnone⟩

/-- The edge count is n. -/
def NowIs (n : Nat) (s : State) : Prop := s.now = n

theorem nowIs_stable (n : Nat) : Stable (NowIs n) where
  frame h e := (congrArg (fun x : State => x.now) e :).trans h
  count _ h := h
  log _ _ h := h
  modifyLog _ _ h := h
  clearLog h := h
  wraps _ h := h
  drive _ h := h
  supply _ h := h
  dropSupply h := h
  window _ h := h
  thermal _ h := h

/-- A pending copy has applied by the end of a frame (log 63). -/
theorem frameEnd_taken {s : State} {p : Pending DriveGroup} (hp : s.pend.drive = some p) (hlt : p.at0 < s.now) (f : Frames) (a b : Nat)
    (bad : BitVec 292) (v : Bool) : DriveTaken p.val (s.frameEnd f a b bad v) := by
  have hT := driveTaken_stable p.val
  have hchecked : ∀ {P : State → Prop}, Stable P → Holds P s → Holds P ((s.frameCharged f a b v).frameChecked f bad) :=
    fun hP h => hP.frameChecked (hP.frameCharged h)
  have hdue := hchecked (driveDue_stable p) (.inl hp)
  have hnow : ((s.frameCharged f a b v).frameChecked f bad).now = s.now := hchecked (nowIs_stable s.now) rfl
  rw [State.frameEnd_eq]
  exact hT.frameFollows (hT.frameStepped (applyDrive_taken hdue (by rw [hnow]; exact hlt)))

theorem startUpdate_taken {s : State} {p : Pending DriveGroup} (hp : s.pend.drive = some p) (hlt : p.at0 < s.now) (n : RingNo) :
    DriveTaken p.val (s.startUpdate n) :=
  (driveTaken_stable p.val).startUpdate_of_applied (applyDrive_taken (.inl hp) hlt)

/-- FRAME_END on the end edge of a frame (R252). -/
theorem exec_frameEnd {s w : State} {dt : Nat} {f g : Frames} (h : (s.arrive dt).answering = true) (hg : (s.arrive dt).drv.frames = some g)
    (hw : w = (s.arrive dt).waitUntil (g.start + g.len)) (hf : w.drv.frames = some f) (a b : Nat) (bad : BitVec 292) (v : Bool) :
    exec (.frameEnd dt a b bad v) s = .next (w.frameEnd f a b bad v).settle := by
  show execFrameEnd dt a b bad v s = _
  unfold execFrameEnd
  refine event_body ?_
  rw [hg]
  dsimp only
  rw [if_pos h, ← hw, hf]

/-- UPDATE_START of an update that no barrier gates, while the frame clock stands or on one of its start edges (R266, R272). -/
theorem exec_updateStart {s : State} {dt : Nat} {n : RingNo} (h : (s.arrive dt).startable n = true) (hgate : (s.arrive dt).gated n = false)
    (hclock : ∀ f, (s.arrive dt).drv.frames = some f → f.start = (s.arrive dt).now) :
    exec (.updateStart dt n) s = .next ((s.arrive dt).startUpdate n).settle := by
  show execUpdateStart dt n s = _
  unfold execUpdateStart
  refine event_body ?_
  rw [h, hgate]
  refine if_pos ?_
  cases hf : (s.arrive dt).drv.frames with
  | none => rfl
  | some f => simpa using hclock f hf

/-- CONVERSION_RESULT on the result edge (R306). -/
theorem exec_conversionResult {s w : State} {dt : Nat} (h : (s.arrive dt).answering = true)
    (hw : w = (s.arrive dt).waitUntil ((s.arrive dt).thm.window0 + 65536)) (mean : Int) (charge : List (Nat × Int × Int)) (pj : Nat) :
    exec (.conversionResult dt mean charge pj) s = .next (w.result mean charge pj).settle := by
  show execConversionResult dt mean charge pj s = _
  unfold execConversionResult
  refine event_body ?_
  rw [if_pos h, ← hw]

/-! ### The result edge (R306) -/

/-- The thermal unit after step 5 of R306: the thresholds and the write range of the applied values. -/
def State.judged (s : State) : Thermal :=
  let t := tempInt s.thm.tdie
  let g := s.applied.thermal
  { s.thm with
    warn := overT s.thm.warn t (warnT g.warn) (hyst g.warn), throttle := overT s.thm.throttle t (throtT g.throt) (hyst g.throt)
    cold := coldT s.thm.cold t, wrangeOut := !(s.thm.valid && inRange g.wrange s.thm.tpan) }

theorem State.thresholds_eq (s : State) :
    ∃ e l o k n, s.thresholds = { s with thm := s.judged, edge := e, log := l, overflow := o, cause := k, cnt := n } := by
  have hwarn : ∀ (c : Bool) (x : State), ∃ e k, (if c then x.setCause (bitMask 9) else x) = { x with edge := e, cause := k } := by
    intro c x
    split <;> exact ⟨_, _, rfl⟩
  have hthrottle : ∀ (c : Bool) (x : State), ∃ e l o k n, (if c then ((x.setCause (bitMask 10)).count .throttle).log_ 0x31 0 0 0 else x) =
      { x with edge := e, log := l, overflow := o, cause := k, cnt := n } := by
    intro c x
    split
    · obtain ⟨e, n, k, hcount⟩ := (x.setCause (bitMask 10)).count_eq .throttle
      obtain ⟨e', l, o, k', hlog⟩ := ((x.setCause (bitMask 10)).count .throttle).log_eq 0x31 0 0 0
      rw [hlog, hcount]
      exact ⟨_, _, _, _, _, rfl⟩
    · exact ⟨_, _, _, _, _, rfl⟩
  unfold State.thresholds
  dsimp only
  generalize hx : (s.onThm _).evalWrange = x
  obtain ⟨e, k, hw⟩ := hwarn (overT s.thm.warn (tempInt s.thm.tdie) (warnT s.applied.thermal.warn) (hyst s.applied.thermal.warn) && !s.thm.warn) x
  rw [hw]
  obtain ⟨e', l, o, k', n, ht⟩ := hthrottle (overT s.thm.throttle (tempInt s.thm.tdie) (throtT s.applied.thermal.throt)
    (hyst s.applied.thermal.throt) && !s.thm.throttle) { x with edge := e, cause := k }
  rw [ht, ← hx]
  exact ⟨_, _, _, _, _, rfl⟩

/-- What the end of a result leaves of what its steps have given. -/
def State.thermalView (s : State) : Thermal × Staged × PendingCopies × Nat := (s.thm, s.applied, s.pend, s.now)

theorem State.enterHeld_thermalView (s : State) : s.enterHeld.thermalView = s.thermalView := by
  unfold State.enterHeld
  generalize s.heldEntry.getD (0, 0) = p
  dsimp only
  obtain ⟨e, l, o, k, hlog⟩ := (s.goTo .held).log_eq 0x30 0 p.1 p.2.toNat
  obtain ⟨e', n, k', hcount⟩ := ((s.goTo .held).log_ 0x30 0 p.1 p.2.toNat).count_eq .held
  rw [hcount, hlog]
  rfl

theorem State.resultHolds_thermalView (s : State) : s.resultHolds.thermalView = s.thermalView := by
  unfold State.resultHolds
  split
  · split
    · exact s.enterHeld_thermalView
    · dsimp only
      split <;> rfl
  · rfl

theorem State.retryMarks_thermalView (s : State) : s.retryMarks.thermalView = s.thermalView := by
  unfold State.retryMarks
  refine List.foldlRecOn (motive := fun x : State => x.thermalView = s.thermalView) _ _ rfl fun x hx o _ => ?_
  split
  · exact hx
  · exact hx

/-- The edge as a conversion window ends and the next begins. -/
def State.windowEnded (s : State) : State := s.onThm fun t => { t with window0 := s.now, points := t.points.take 1 }

/-- The result edge: the thermal group applies, the result is taken, the thresholds follow; nothing after that moves the thermal unit. -/
theorem State.result_thermalView (s : State) (mean : Int) (charge : List (Nat × Int × Int)) (pj : Nat) :
    (s.result mean charge pj).thermalView =
      ((s.windowEnded.applyThermal.takeResult mean (periodEnergy s.thm.points s.thm.window0 charge)).thresholds).thermalView := by
  unfold State.result
  dsimp only
  rw [State.retryMarks_thermalView, State.resultHolds_thermalView]
  rfl

/-- The thermal unit, the groups and their pending copies after a result edge. -/
theorem State.result_fields (s : State) (mean : Int) (charge : List (Nat × Int × Int)) (pj : Nat) {x : State}
    (hx : x = s.windowEnded.applyThermal.takeResult mean (periodEnergy s.thm.points s.thm.window0 charge)) :
    (s.result mean charge pj).thm = x.judged ∧ (s.result mean charge pj).applied = x.applied ∧ (s.result mean charge pj).pend = x.pend ∧
      (s.result mean charge pj).now = x.now := by
  have hview := s.result_thermalView mean charge pj
  obtain ⟨e, l, o, k, n, hthr⟩ := x.thresholds_eq
  rw [← hx, hthr] at hview
  exact ⟨congrArg Prod.fst hview, congrArg (·.2.1) hview, congrArg (·.2.2.1) hview, congrArg (·.2.2.2) hview⟩

/-- A thermal group committed on the result edge itself waits for the next (R306, step 1). -/
theorem State.applyThermal_early {s : State} {p : Pending ThermalGroup} (hp : s.pend.thermal = some p) (hle : s.now ≤ p.at0) :
    s.applyThermal = s := by
  unfold State.applyThermal
  rw [hp]
  exact if_neg (by omega)

/-- Settles O21: `frameEnd_taken` and `startUpdate_taken` for the drive group, `State.completeSupply_up` for the supply group,
`State.result_fields` for the thermal group. -/
theorem safePoints : Obligations.SafePoints := by
  unfold Obligations.SafePoints
  refine ⟨⟨fun s w dt p f h hp hf hw hpw => ?_, fun s w dt a b bad v f g p h hg hw hf hp hlt => ?_, fun s dt n p hstart hgate hf hp hlt => ?_⟩,
    fun s dt p h hp hup hlt => ?_, fun s w dt pj mean charge p h hw hp => ?_⟩
  · have hreach : max (p.at0 + 1) (f.start + f.len) ≤ w.now := hw ▸ State.waitUntil_reaches _ _ (State.answering_ticking h)
    refine ⟨_, exec_driveGroupApply h hp (by rw [hf]), ?_⟩
    rw [← hw, State.applyDrive_due hpw (by omega)]
    exact ⟨rfl, rfl, by dsimp only [State.checkAhead]; omega, by dsimp only [State.checkAhead]; omega⟩
  · obtain ⟨happlied, hnone⟩ := frameEnd_taken hp hlt f a b bad v
    exact ⟨_, exec_frameEnd h hg hw hf a b bad v, happlied, hnone⟩
  · obtain ⟨happlied, hnone⟩ := startUpdate_taken hp hlt n
    exact ⟨_, exec_updateStart hstart hgate (fun f he => by rw [hf] at he; cases he), happlied, hnone⟩
  · exact ⟨_, exec_supplyGroupApply h hp hlt, State.completeSupply_up hp hlt hup⟩
  · obtain ⟨hthm, happlied, hpend, -⟩ := w.result_fields mean charge pj rfl
    refine ⟨_, exec_conversionResult h hw mean charge pj, ?_⟩
    rw [hthm, happlied, hpend]
    by_cases hlt : p.at0 < w.now
    · rw [State.applyThermal_due (s := w.windowEnded) hp hlt]
      exact ⟨rfl, fun hle => by omega, fun _ => ⟨rfl, rfl, rfl, rfl, rfl, rfl⟩⟩
    · rw [State.applyThermal_early (s := w.windowEnded) hp (Nat.le_of_not_lt hlt)]
      exact ⟨rfl, fun _ => ⟨rfl, hp⟩, fun h => absurd h hlt⟩

end Sys2Proof.Machine

/-! SUPPORT. Power-on reset and RSTN. The proofs of O25 and O26. -/

namespace Sys2Proof.Machine

open Sys2Proof.Safety

/-- Nothing follows on an edge that does not pass. -/
theorem State.settle_standing {s : State} (h : s.ticking = false) : s.settle = s := by
  rw [State.settle, h]; rfl

/-! ### The immediate discharge -/

/-- The immediate discharge changes the outputs and the rails only. -/
theorem State.fastDischarge_eq (s : State) : ∃ d u, s.fastDischarge = { s with drv := d, sup := u } := by
  unfold State.fastDischarge
  dsimp only
  split
  · exact ⟨_, _, rfl⟩
  · split <;> exact ⟨_, _, rfl⟩

theorem State.fastDischarge_vlim (s : State) : s.fastDischarge.sup.vlim = s.sup.vlim :=
  (congrArg (fun t : State => t.sup.vlim) s.fastDischarge_kept :)

/-- The frame clock stops. -/
theorem State.fastDischarge_frames (s : State) : s.fastDischarge.drv.frames = none := by
  unfold State.fastDischarge
  dsimp only
  split
  · rfl
  · split <;> rfl

/-- Rails that have begun their ramp discharge at once, and count as up until they are off (Table 2.9). -/
theorem State.fastDischarge_begun {s : State} (h : s.sup.rampBegun = true) :
    s.fastDischarge.sup.phase = .fast ∧ s.fastDischarge.sup.railsUp = true := by
  unfold Supply.rampBegun at h
  rw [Bool.and_eq_true] at h
  obtain ⟨hup, hphase⟩ := h
  have hdrv (f : Drive → Drive) : (s.onDrv f).sup = s.sup := rfl
  unfold State.fastDischarge
  dsimp only
  rw [hdrv, if_neg (by rw [hup]; decide)]
  split
  next heq => rw [heq] at hphase; cases hphase
  next heq => rw [heq] at hphase; cases hphase
  next => exact ⟨rfl, hup⟩

/-- A sequencing just ends (R286). -/
theorem State.fastDischarge_sequencing {s : State} {k : Nat} (hup : s.sup.railsUp = true) (h : s.sup.phase = .sequencing k) :
    s.fastDischarge.sup.phase = .off ∧ s.fastDischarge.sup.railsUp = false := by
  have hdrv (f : Drive → Drive) : (s.onDrv f).sup = s.sup := rfl
  unfold State.fastDischarge
  dsimp only
  rw [hdrv, if_neg (by rw [hup]; decide), h]
  exact ⟨rfl, rfl⟩

/-! ### Power-on reset (R68) -/

theorem State.porState_readReg (s : State) (r : Reg) (hr : showsPins r = false) : s.porState.readReg r = resetValue r := by
  refine Eq.trans ?_ (reset_readReg r)
  cases r
  case pwrState | supStatus | thmStatus => exact absurd hr (by decide)
  all_goals rfl

/-- The levels of the pins are not the engine's. -/
theorem State.porState_mem (s : State) : s.porState.mem = { MemPort.reset with mrdy := s.mem.mrdy } := by
  obtain ⟨d, u, heq⟩ := s.fastDischarge_eq
  unfold State.porState
  rw [heq]

theorem State.porState_port (s : State) :
    s.porState.port = { SetupPort.reset with pinScl := s.port.pinScl, pinSda := s.port.pinSda } := by
  obtain ⟨d, u, heq⟩ := s.fastDischarge_eq
  unfold State.porState
  rw [heq]

theorem State.porState_rails (s : State) :
    s.porState.sup.phase = s.fastDischarge.sup.phase ∧ s.porState.sup.railsUp = s.fastDischarge.sup.railsUp := ⟨rfl, rfl⟩

theorem State.porState_standing (s : State) : s.porState.ticking = false := Bool.and_false _

theorem exec_powerOnReset (s : State) (dt : Nat) : exec (.powerOnReset dt) s = .next (s.arrive dt).porState :=
  (event_next dt _ s).trans (congrArg _ (State.settle_standing (State.porState_standing _)))

/-- Settles O25: every field is that of the reset state, or what the pins show; the rails are those of the immediate discharge. -/
theorem powerOnResetClears : Obligations.PowerOnResetClears := by
  unfold Obligations.PowerOnResetClears
  intro s dt
  obtain ⟨hphase, hup⟩ := (s.arrive dt).porState_rails
  refine ⟨_, exec_powerOnReset s dt, rfl, rfl, rfl, State.porState_readReg _, rfl, rfl, rfl, rfl, State.porState_mem _, State.porState_port _, rfl,
    rfl, rfl, fun h => ?_, fun k h hk => ?_⟩
  · rw [hphase, hup]
    exact State.fastDischarge_begun h
  · rw [hphase, hup]
    exact State.fastDischarge_sequencing h hk

/-! ### RSTN (R69) -/

/-- What neither the outputs nor the rails give is read the same after an immediate discharge. -/
theorem State.fastDischarge_readReg (s : State) (r : Reg) (hr : keptByRstn r = true) : s.fastDischarge.readReg r = s.readReg r := by
  have hvlim := s.fastDischarge_vlim
  obtain ⟨d, u, heq⟩ := s.fastDischarge_eq
  rw [heq] at hvlim ⊢
  cases r
  case vlim => exact hvlim
  case st r => rfl
  case tileId | lock | jnlBase | jnlSize => rfl
  all_goals cases hr

/-- A register that RSTN keeps reads what it read. -/
theorem State.rstnState_keeps (s : State) (r : Reg) (hr : keptByRstn r = true) : s.rstnState.readReg r = s.readReg r := by
  refine Eq.trans ?_ (s.fastDischarge_readReg r hr)
  cases r
  case st r =>
    cases r
    case winBase | winSize | winTgt | winCfg | warn | throt | wrange => rfl
    all_goals cases hr
  case tileId | lock | jnlBase | jnlSize | vlim => rfl
  all_goals cases hr

/-- Every other register reads its reset value: a ring that waits to be enabled again reads as one that was reset. -/
theorem State.rstnState_clears (s : State) (r : Reg) (hr : keptByRstn r = false) (hp : showsPins r = false) :
    s.rstnState.readReg r = resetValue r := by
  refine Eq.trans ?_ (reset_readReg r)
  cases r
  case tileId | lock | jnlBase | jnlSize | vlim => cases hr
  case pwrState | supStatus | thmStatus => cases hp
  case st r =>
    cases r
    case winBase | winSize | winTgt | winCfg | warn | throt | wrange => cases hr
    all_goals rfl
  case ringCtl n | ringBase n | ringTail n | ringHeadAddr n | ringPoll n | ringDoor n | ringHead n | ringStatus n =>
    fin_cases n <;> rfl
  all_goals rfl

/-- The immediate discharge leaves the pins and the TAP. -/
theorem State.rstnState_pins (s : State) :
    s.rstnState.pw.rstn = s.pw.rstn ∧ s.rstnState.ticking = s.ticking ∧ s.rstnState.tap = s.tap := by
  obtain ⟨d, u, heq⟩ := s.fastDischarge_eq
  have hpins : ∀ t : State, s.rstnState.pw.rstn = s.fastDischarge.pw.rstn ∧ s.rstnState.ticking = s.fastDischarge.ticking ∧
      s.rstnState.tap = s.fastDischarge.tap := fun _ => ⟨rfl, rfl, rfl⟩
  rw [heq] at hpins
  exact hpins s

/-- It recovers the engine where no register holds the host error any more (R7). -/
theorem State.rstnState_wild (s : State) : s.rstnState.wild = if s.rstnState.errorHeld then s.wild else none := rfl

/-- RSTN is low. -/
def State.rstnLow (s : State) : State := s.onPw fun p => { p with rstn := false }

theorem exec_rstnAssert {s : State} {dt : Nat} (h : (s.arrive dt).pw.por = false) :
    exec (.rstnAssert dt) s = .next (s.arrive dt).rstnLow.rstnState := by
  have hstand : (s.arrive dt).rstnLow.rstnState.ticking = false := by
    obtain ⟨-, hticking, -⟩ := (s.arrive dt).rstnLow.rstnState_pins
    rw [hticking, State.ticking, State.heldInReset, State.rstnLow]
    simp
  have hbody : exec (.rstnAssert dt) s =
      event dt (fun s => if s.rstnLow.pw.por then s.rstnLow else s.rstnLow.rstnState) s := rfl
  have hpor : (s.arrive dt).rstnLow.pw.por = false := h
  rw [hbody, event_next, hpor, if_neg Bool.false_ne_true, State.settle_standing hstand]

/-- Settles O26: every field is that of the reset state, or one that RSTN keeps; the rails are those of the immediate discharge. -/
theorem rstnKeepsLocks : Obligations.RstnKeepsLocks := by
  unfold Obligations.RstnKeepsLocks
  intro s dt hpor
  obtain ⟨hrstn, -, htap⟩ := (s.arrive dt).rstnLow.rstnState_pins
  have hwild := (s.arrive dt).rstnLow.rstnState_wild
  have hkeeps (r : Reg) (hr : keptByRstn r = true) : (s.arrive dt).rstnLow.readReg r = (s.arrive dt).readReg r := by
    cases r <;> rfl
  refine ⟨_, exec_rstnAssert hpor, hrstn, rfl, fun he => ?_, fun he => ?_, fun r hr => (State.rstnState_keeps _ r hr).trans (hkeeps r hr),
    State.rstnState_clears _, rfl, rfl, rfl, htap.trans ?_,
    fun h => State.fastDischarge_begun (s := (s.arrive dt).rstnLow) h⟩
  · rw [hwild, he]
    rfl
  · rw [hwild, he]
    rfl
  · rw [State.rstnLow, State.onPw_tap, State.arrive_tap]

end Sys2Proof.Machine

/-! SUPPORT. The clockings: edge 1, the trims, the strap samples, the address latch and the end of a wake. The proofs of O27, O28 and O29. -/

namespace Sys2Proof.Machine

open Sys2Proof.Safety

/-- The trims are loaded or not. -/
def TrimIs (b : Bool) (s : State) : Prop := s.pw.trim = b

theorem trimIs_stable (b : Bool) : Stable (TrimIs b) where
  frame h e := (congrArg (fun x : State => x.pw.trim) e :).trans h
  count _ h := h
  log _ _ h := h
  modifyLog _ _ h := h
  clearLog h := h
  wraps _ h := h
  drive _ h := h
  supply _ h := h
  dropSupply h := h
  window _ h := h
  thermal _ h := h

/-- An edge loads the trims where it is edge 16 of a first clocking or later (Table 4.3). -/
theorem State.advance_trim (s : State) : s.advance.pw.trim = (s.pw.trim || s.trimBy (s.now + 1)) := by
  have hS := trimIs_stable (s.pw.trim || s.trimBy (s.now + 1))
  unfold State.advance
  dsimp only
  refine hS.settle (hS.takeSupply (holds_foldl (fun _ _ hx => hS.runDeferred hx) (hS.drawLogic ?_)))
  rfl

/-- Nothing follows on an edge of a qualifier. -/
theorem State.settle_qualifying {s : State} (h : s.pw.qual = true) : s.settle = s := by
  rw [State.settle, h, Bool.not_true, Bool.and_false]; rfl

/-! ### Edge 1 (R48, R68, R70) -/

/-- What precedes edge 1. -/
def State.beforeFirst (s : State) : State :=
  (s.onPw fun p =>
    { p with
      qual := true, clk0 := s.now, trim := !p.first && p.trim
      strap1 := if p.first then none else p.strap1, strap2 := if p.first then none else p.strap2 }).onEdge fun e =>
    { e with sampled := true }

theorem State.firstEdge_eq (s : State) : s.firstEdge = s.beforeFirst.elapse 1 := rfl

theorem State.firstEdge_fields {s : State} (h : s.ticking = true) :
    s.firstEdge.pw.qual = true ∧ s.firstEdge.edgeNo = 1 ∧ s.firstEdge.pw.por = s.pw.por ∧ s.firstEdge.pw.rstn = s.pw.rstn ∧
      s.firstEdge.pw.hck = s.pw.hck ∧ s.firstEdge.pw.first = s.pw.first := by
  have hticking : s.beforeFirst.ticking = true := h
  have hnow : s.firstEdge.now = s.now + 1 := State.elapse_now _ _ hticking
  have hclk0 : s.firstEdge.pw.clk0 = s.now := State.elapse_clk0 _ _
  refine ⟨State.elapse_qual _ _, ?_, State.elapse_por _ _, State.elapse_rstn _ _, State.elapse_hck _ _, State.elapse_first _ _⟩
  rw [State.edgeNo, hnow, hclk0]
  omega

/-- A first clocking has no trims and no strap samples yet. -/
theorem State.firstEdge_first {s : State} (h : s.ticking = true) (hf : s.pw.first = true) :
    s.firstEdge.pw.strap1 = none ∧ s.firstEdge.pw.strap2 = none ∧ s.firstEdge.pw.trim = false := by
  have hnone : s.beforeFirst.pw.strap1 = none ∧ s.beforeFirst.pw.strap2 = none ∧ s.beforeFirst.pw.trim = false := by
    unfold State.beforeFirst
    simp [hf]
  obtain ⟨hs1, hs2, htrim⟩ := hnone
  refine ⟨(State.elapse_strap1 _ _).trans hs1, (State.elapse_strap2 _ _).trans hs2, ?_⟩
  have htick : s.firstEdge = s.beforeFirst.tick := s.beforeFirst.elapse_one h
  have hclosed : s.beforeFirst.closeEdge = s.beforeFirst := rfl
  have hadvance : s.beforeFirst.tick.pw.trim = s.beforeFirst.advance.pw.trim := by rw [State.tick, hclosed]; rfl
  rw [htick, hadvance, State.advance_trim, htrim, Bool.false_or, State.trimBy]
  have hlate : ¬ s.beforeFirst.pw.clk0 + 16 ≤ s.beforeFirst.now + 1 := by
    show ¬ s.now + 16 ≤ s.now + 1
    omega
  rw [decide_eq_false hlate, Bool.and_false]

/-- Power-on reset is released. -/
def State.porHigh (s : State) : State := s.onPw fun p => { p with por := false, first := true, st := .dormant, qual := false }

/-- RSTN is released. -/
def State.rstnHigh (s : State) : State := s.onPw fun p => { p with rstn := true, first := true }

/-- HCK runs. -/
def State.hckHigh (s : State) : State := s.onPw fun p => { p with hck := true }

/-- The clocking that a release begins where HCK runs. -/
def State.clocked (s : State) : State := if s.ticking then s.firstEdge else s

theorem State.clocked_ticking {s : State} (h : s.ticking = true) : s.clocked = s.firstEdge := if_pos h

theorem State.clocked_standing {s : State} (h : s.ticking = false) : s.clocked = s := if_neg (by rw [h]; decide)

/-- No flag follows on edge 1, nor without a clock. -/
theorem State.clocked_settle (s : State) : s.clocked.settle = s.clocked := by
  cases h : s.ticking with
  | true =>
    obtain ⟨hqual, -⟩ := State.firstEdge_fields h
    rw [State.clocked_ticking h, State.settle_qualifying hqual]
  | false => rw [State.clocked_standing h, State.settle_standing h]

theorem exec_porRelease {s : State} {dt : Nat} (h : (s.arrive dt).pw.por = true) :
    exec (.porRelease dt) s = .next (s.arrive dt).porHigh.clocked := by
  have hbody : exec (.porRelease dt) s = event dt (fun s => if s.pw.por then s.porHigh.clocked else s) s := rfl
  rw [hbody, event_next, h, if_pos rfl, State.clocked_settle]

theorem exec_rstnRelease {s : State} {dt : Nat} (h : (s.arrive dt).pw.rstn = false) :
    exec (.rstnRelease dt) s = .next (s.arrive dt).rstnHigh.clocked := by
  have hbody : exec (.rstnRelease dt) s = event dt (fun s => if s.pw.rstn then s else s.rstnHigh.clocked) s := rfl
  rw [hbody, event_next, h, if_neg Bool.false_ne_true, State.clocked_settle]

theorem exec_hckStart {s : State} {dt : Nat} (h : (s.arrive dt).pw.hck = false) :
    exec (.hckStart dt) s = .next (s.arrive dt).hckHigh.clocked := by
  have hbody : exec (.hckStart dt) s = event dt (fun s => if s.pw.hck then s else s.hckHigh.clocked) s := rfl
  rw [hbody, event_next, h, if_neg Bool.false_ne_true, State.clocked_settle]

theorem State.porHigh_ticking {s : State} (hr : s.pw.rstn = true) (ht : testMode s.tap.ir = false) (hh : s.pw.hck = true) :
    s.porHigh.ticking = true := by
  simp [State.ticking, State.heldInReset, State.porHigh, hr, ht, hh]

theorem State.rstnHigh_ticking {s : State} (hp : s.pw.por = false) (ht : testMode s.tap.ir = false) (hh : s.pw.hck = true) :
    s.rstnHigh.ticking = true := by
  simp [State.ticking, State.heldInReset, State.rstnHigh, hp, ht, hh]

theorem State.hckHigh_ticking {s : State} (h : s.heldInReset = false) : s.hckHigh.ticking = true := by
  have hheld : s.hckHigh.heldInReset = false := h
  rw [State.ticking, hheld]
  rfl

/-- Without HCK nothing ticks. -/
theorem State.ticking_unclocked {s : State} (h : s.pw.hck = false) : s.ticking = false := by rw [State.ticking, h, Bool.false_and]

theorem porRelease_begins (s : State) (dt : Nat) (hpor : (s.arrive dt).pw.por = true) (hr : (s.arrive dt).pw.rstn = true)
    (ht : testMode (s.arrive dt).tap.ir = false) (hh : (s.arrive dt).pw.hck = true) :
    ∃ t, exec (.porRelease dt) s = .next t ∧ t.pw.por = false ∧ t.pw.first = true ∧ t.pw.qual = true ∧ t.edgeNo = 1 ∧ t.pw.trim = false := by
  have hticking := State.porHigh_ticking hr ht hh
  obtain ⟨hqual, hedge, hpor', -, -, hfirst⟩ := State.firstEdge_fields hticking
  obtain ⟨-, -, htrim⟩ := State.firstEdge_first hticking rfl
  exact ⟨_, (exec_porRelease hpor).trans (congrArg _ (State.clocked_ticking hticking)), hpor', hfirst, hqual, hedge, htrim⟩

theorem porRelease_waits (s : State) (dt : Nat) (hpor : (s.arrive dt).pw.por = true) (hh : (s.arrive dt).pw.hck = false) :
    ∃ t, exec (.porRelease dt) s = .next t ∧ t.pw.por = false ∧ t.pw.first = true ∧ t.pw.qual = false ∧ t.pw.st = .dormant := by
  have hstand : (s.arrive dt).porHigh.ticking = false := State.ticking_unclocked hh
  exact ⟨_, (exec_porRelease hpor).trans (congrArg _ (State.clocked_standing hstand)), rfl, rfl, rfl, rfl⟩

theorem rstnRelease_begins (s : State) (dt : Nat) (hr : (s.arrive dt).pw.rstn = false) (hpor : (s.arrive dt).pw.por = false)
    (ht : testMode (s.arrive dt).tap.ir = false) (hh : (s.arrive dt).pw.hck = true) :
    ∃ t, exec (.rstnRelease dt) s = .next t ∧ t.pw.rstn = true ∧ t.pw.first = true ∧ t.pw.qual = true ∧ t.edgeNo = 1 ∧ t.pw.trim = false := by
  have hticking := State.rstnHigh_ticking hpor ht hh
  obtain ⟨hqual, hedge, -, hrstn, -, hfirst⟩ := State.firstEdge_fields hticking
  obtain ⟨-, -, htrim⟩ := State.firstEdge_first hticking rfl
  exact ⟨_, (exec_rstnRelease hr).trans (congrArg _ (State.clocked_ticking hticking)), hrstn, hfirst, hqual, hedge, htrim⟩

theorem rstnRelease_waits (s : State) (dt : Nat) (hr : (s.arrive dt).pw.rstn = false) (hh : (s.arrive dt).pw.hck = false) :
    ∃ t, exec (.rstnRelease dt) s = .next t ∧ t.pw.rstn = true ∧ t.pw.first = true := by
  have hstand : (s.arrive dt).rstnHigh.ticking = false := State.ticking_unclocked hh
  exact ⟨_, (exec_rstnRelease hr).trans (congrArg _ (State.clocked_standing hstand)), rfl, rfl⟩

theorem hckStart_begins (s : State) (dt : Nat) (hh : (s.arrive dt).pw.hck = false) (hheld : (s.arrive dt).heldInReset = false) :
    ∃ t, exec (.hckStart dt) s = .next t ∧ t.pw.hck = true ∧ t.pw.qual = true ∧ t.edgeNo = 1 ∧
      t.pw.first = (s.arrive dt).pw.first ∧
      ((s.arrive dt).pw.first = true → t.pw.strap1 = none ∧ t.pw.strap2 = none ∧ t.pw.trim = false) := by
  have hticking := State.hckHigh_ticking hheld
  obtain ⟨hqual, hedge, -, -, hhck, hfirst⟩ := State.firstEdge_fields hticking
  exact ⟨_, (exec_hckStart hh).trans (congrArg _ (State.clocked_ticking hticking)), hhck, hqual, hedge, hfirst,
    fun hf => State.firstEdge_first hticking hf⟩

/-- Settles O27: a clocking begins with `State.firstEdge`, one tick after what it resets. -/
theorem clockingBegins : Obligations.ClockingBegins := by
  unfold Obligations.ClockingBegins
  exact ⟨porRelease_begins, porRelease_waits, rstnRelease_begins, rstnRelease_waits, hckStart_begins⟩

end Sys2Proof.Machine

/-! SUPPORT. What marks, interruptions, abandonments and the turn to RECOVERY leave alone: all but the state, the causes, the log, the
counters, the journal and what the rings run. -/

namespace Sys2Proof.Machine

open Sys2Proof.Safety

/-- A ring without what it runs. -/
def Ring.aloof (r : Ring) : Ring := { r with work := none, comp := 0, headDue := false, hole := false }

/-- The state without what the journal, an interruption and an abandonment touch. -/
def State.aloof (s : State) : State :=
  { s with
    edge := EdgeRec.none
    pw := { s.pw with st := .dormant, status := 0 }
    cause := 0
    mem := { s.mem with cur := s.mem.cur.map fun o => { o with drop := true }, parked := [] }
    rings := s.rings.map Ring.aloof
    jnl := Journal.reset
    cnt := State.reset.cnt
    log := []
    overflow := 0 }

namespace State

@[simp] theorem setCause_aloof (s : State) (m : Word) : (s.setCause m).aloof = s.aloof := rfl
@[simp] theorem setStatus_aloof (s : State) (m : Word) : (s.setStatus m).aloof = s.aloof := rfl
@[simp] theorem goTo_aloof (s : State) (st : EngState) : (s.goTo st).aloof = s.aloof := rfl
@[simp] theorem onJnl_aloof (s : State) (f : Journal → Journal) : (s.onJnl f).aloof = s.aloof := rfl
@[simp] theorem onEdge_aloof (s : State) (f : EdgeRec → EdgeRec) : (s.onEdge f).aloof = s.aloof := rfl
@[simp] theorem onSlot_aloof (s : State) (q : Nat) (f : OpenSlot → OpenSlot) : (s.onSlot q f).aloof = s.aloof := rfl
@[simp] theorem enqueue_aloof (s : State) (a : Access) : (s.enqueue a).aloof = s.aloof := rfl

@[simp] theorem log_aloof (s : State) (code detail : Nat) (n : RingNo) (i : Nat) : (s.log_ code detail n i).aloof = s.aloof := by
  unfold log_
  split <;> rfl

@[simp] theorem count_aloof (s : State) (c : Cnt) : (s.count c).aloof = s.aloof := by
  obtain ⟨e, n, k, heq⟩ := s.count_eq c
  rw [heq]
  rfl

theorem onRing_aloof (s : State) (n : RingNo) (f : Ring → Ring) (hf : (f s.rings[n]).aloof = s.rings[n].aloof) :
    (s.onRing n f).aloof = s.aloof := by
  simp only [aloof, onRing, map_set_of_eq _ _ _ _ hf]

@[simp] theorem onUpdate_aloof (s : State) (n : RingNo) (f : Update → Update) : (s.onUpdate n f).aloof = s.aloof := by
  refine s.onRing_aloof n _ ?_
  split <;> rfl

@[simp] theorem finishEntry_aloof (s : State) (n : RingNo) (i : BitVec 16) : (s.finishEntry n i).aloof = s.aloof :=
  (onEdge_aloof _ _).trans (s.onRing_aloof n _ rfl)

@[simp] theorem requestMark_aloof (s : State) (q : Nat) (a : Asker) : (s.requestMark q a).aloof = s.aloof := by
  unfold requestMark
  split
  · rfl
  · split
    · split
      · rfl
      · rfl
    · rfl

@[simp] theorem tombstone_aloof (s : State) (q : Nat) : (s.tombstone q).aloof = s.aloof := by
  unfold tombstone
  dsimp only
  split
  · rfl
  · rw [requestMark_aloof, onSlot_aloof]

/-- Marking some reads as dropped is not seen. -/
theorem map_drop_aloof (p : OpenAccess → Bool) (c : Option OpenAccess) :
    (c.map fun o => if p o then { o with drop := true } else o).map (fun o => { o with drop := true }) =
      c.map fun o => { o with drop := true } := by
  rw [Option.map_map]
  refine congrArg (fun f => c.map f) (funext fun o => ?_)
  dsimp only [Function.comp]
  split <;> rfl

@[simp] theorem dropReads_aloof (s : State) (n : RingNo) (p : Asker → Bool) : (s.dropReads n p).aloof = s.aloof := by
  have hcur := map_drop_aloof (fun o => decide (o.acc.ring = n) && p o.acc.asker) s.mem.cur
  unfold dropReads
  simp only [aloof, onMem, hcur]

@[simp] theorem discardUpdate_aloof (s : State) (n : RingNo) : (s.discardUpdate n).aloof = s.aloof := by
  unfold discardUpdate
  split
  · dsimp only
    split
    · rw [tombstone_aloof, dropReads_aloof, onRing_aloof _ _ _ rfl]
    · rw [dropReads_aloof, onRing_aloof _ _ _ rfl]
  · rfl

@[simp] theorem interruptRing_aloof (s : State) (c : Cut) (n : RingNo) : (s.interruptRing c n).aloof = s.aloof := by
  unfold interruptRing
  split
  · split
    · dsimp only
      split <;> simp
    · rfl
  · rfl

@[simp] theorem abandonRing_aloof (s : State) (p : Cut → Bool) (n : RingNo) : (s.abandonRing p n).aloof = s.aloof := by
  unfold abandonRing
  split
  · split
    · split
      · rfl
      · simp
    · rfl
  · rfl

/-- A run over the rings of which every step leaves the rest alone. -/
theorem foldl_aloof {α : Type} {f : State → α → State} (hf : ∀ s a, (f s a).aloof = s.aloof) (l : List α) (s : State) :
    (l.foldl f s).aloof = s.aloof :=
  List.foldlRecOn (motive := fun t => t.aloof = s.aloof) l f rfl fun t ht a _ => (hf t a).trans ht

@[simp] theorem interruptAll_aloof (s : State) (c : Cut) : (s.interruptAll c).aloof = s.aloof := foldl_aloof (fun s n => s.interruptRing_aloof c n) _ s

@[simp] theorem abandonCut_aloof (s : State) (p : Cut → Bool) : (s.abandonCut p).aloof = s.aloof := foldl_aloof (fun s n => s.abandonRing_aloof p n) _ s

@[simp] theorem abandonAll_aloof (s : State) : s.abandonAll.aloof = s.aloof := s.abandonCut_aloof _

@[simp] theorem askIntent_aloof (s : State) : s.askIntent.aloof = s.aloof := by
  unfold askIntent
  split
  · split <;> rfl
  · rfl

@[simp] theorem startReplay_aloof (s : State) : s.startReplay.aloof = s.aloof := by
  unfold startReplay
  simp

@[simp] theorem stopReplay_aloof (s : State) : s.stopReplay.aloof = s.aloof := by
  have hcur := map_drop_aloof (fun o => o.acc.asker.isReplay) s.mem.cur
  unfold stopReplay
  simp only [aloof, hcur]

@[simp] theorem replayOver_aloof (s : State) : s.replayOver.aloof = s.aloof := by
  unfold replayOver
  dsimp only
  split <;> rfl

@[simp] theorem resume_aloof (s : State) : s.resume.aloof = s.aloof := by
  unfold resume
  split
  · simp
  · split <;> simp

end State

/-! ### What it says of single fields -/

section
variable {s t : State} (h : t.aloof = s.aloof)
include h

theorem barrier_of_aloof (n : RingNo) : t.rings[n].barrier = s.rings[n].barrier := by
  have hrings := congrArg (fun x : State => x.rings[n].barrier) h
  simpa [State.aloof, Ring.aloof] using hrings

theorem now_of_aloof : t.now = s.now := (congrArg (fun x : State => x.now) h :)
theorem thm_of_aloof : t.thm = s.thm := (congrArg (fun x : State => x.thm) h :)
theorem sup_of_aloof : t.sup = s.sup := (congrArg (fun x : State => x.sup) h :)
theorem drv_of_aloof : t.drv = s.drv := (congrArg (fun x : State => x.drv) h :)
theorem later_of_aloof : t.later = s.later := (congrArg (fun x : State => x.later) h :)
theorem port_of_aloof : t.port = s.port := (congrArg (fun x : State => x.port) h :)
theorem txn_of_aloof : t.mem.txn = s.mem.txn := (congrArg (fun x : State => x.mem.txn) h :)
theorem jopen_of_aloof : t.pw.jopen = s.pw.jopen := (congrArg (fun x : State => x.pw.jopen) h :)

theorem uvlo_of_aloof : t.pw.uvlo = s.pw.uvlo := (congrArg (fun x : State => x.pw.uvlo) h :)

/-- Power but the state and its status. -/
theorem power_of_aloof : t.pw.qual = s.pw.qual ∧ t.pw.clk0 = s.pw.clk0 ∧ t.pw.addr = s.pw.addr ∧ t.pw.sd = s.pw.sd ∧ t.pw.hck = s.pw.hck :=
  ⟨(congrArg (fun x : State => x.pw.qual) h :), (congrArg (fun x : State => x.pw.clk0) h :), (congrArg (fun x : State => x.pw.addr) h :),
    (congrArg (fun x : State => x.pw.sd) h :), (congrArg (fun x : State => x.pw.hck) h :)⟩

end

end Sys2Proof.Machine

/-! SUPPORT. Edges 16, 24, 56 and 64 of a first clocking, and edge 64 of a wake. The proofs of O28 and O29. -/

namespace Sys2Proof.Machine

open Sys2Proof.Safety

/-! ### A first clocking (R58, R59, R76) -/

/-- The set-up port's part of an edge leaves the clocking as it is. -/
theorem State.closeEdge_clocking (s : State) :
    s.closeEdge.pw.first = s.pw.first ∧ s.closeEdge.pw.qual = s.pw.qual ∧ s.closeEdge.pw.clk0 = s.pw.clk0 := by
  have h := s.closeEdge_rooted
  exact ⟨(congrArg (fun t : State => t.pw.first) h :), (congrArg (fun t : State => t.pw.qual) h :), (congrArg (fun t : State => t.pw.clk0) h :)⟩

theorem trim_by_edge_16 (s : State) (hf : s.pw.first = true) (hq : s.pw.qual = true) (h : s.pw.clk0 + 16 ≤ s.now + 1) :
    s.tick.pw.trim = true := by
  obtain ⟨hfirst, hqual, hclk0⟩ := s.closeEdge_clocking
  have htick : s.tick.pw.trim = s.closeEdge.advance.pw.trim := rfl
  rw [htick, State.advance_trim, State.trimBy, hfirst, hqual, hclk0, State.closeEdge_now, hf, hq, decide_eq_true h]
  exact Bool.or_true _

theorem strapFirstSample_takes (s : State) (dt : Nat) (x y : Bool) (ht : (s.arrive dt).ticking = true) (hq : (s.arrive dt).pw.qual = true)
    (hf : (s.arrive dt).pw.first = true) (h1 : (s.arrive dt).pw.strap1 = none) :
    ∃ t, exec (.strapFirstSample dt x y) s = .next t ∧ t.pw.strap1 = some (x, y) ∧ t.pw.clk0 + 24 ≤ t.now := by
  set w := (s.arrive dt).waitUntil ((s.arrive dt).pw.clk0 + 24) with hw
  have hclk0 : w.pw.clk0 = (s.arrive dt).pw.clk0 := State.elapse_clk0 _ _
  have hqual : w.pw.qual = true := (State.elapse_qual _ _).trans hq
  refine ⟨w.onPw fun p => { p with strap1 := some (x, y) }, ?_, rfl, ?_⟩
  · show execStrapFirstSample dt x y s = _
    unfold execStrapFirstSample
    rw [event_next, ht, hq, hf, h1]
    exact congrArg _ (State.settle_qualifying hqual)
  · show w.pw.clk0 + 24 ≤ w.now
    rw [hclk0]
    exact State.waitUntil_reaches _ _ ht

theorem strapPull_opposite (s : State) (a0 a1 : Bool) (hf : s.pw.first = true) (hq : s.pw.qual = true) (h1 : s.pw.strap1 = some (a0, a1)) :
    (s.pw.clk0 + 25 ≤ s.now → s.now < s.pw.clk0 + 57 → s.strapPull 0 = some (!a0) ∧ s.strapPull 1 = some (!a1)) ∧
      (s.now < s.pw.clk0 + 25 ∨ s.pw.clk0 + 57 ≤ s.now → s.strapPull 0 = none ∧ s.strapPull 1 = none) := by
  unfold State.strapPull
  rw [h1, hf, hq]
  constructor
  · intro hlo hhi
    simp [hlo, hhi]
  · intro hout
    have hno : ¬ (s.pw.clk0 + 25 ≤ s.now ∧ s.now < s.pw.clk0 + 57) := by omega
    constructor <;> simpa using hno

theorem strapSecondSample_takes (s : State) (dt : Nat) (x y : Bool) (ht : (s.arrive dt).ticking = true) (hq : (s.arrive dt).pw.qual = true)
    (hf : (s.arrive dt).pw.first = true) (h1 : (s.arrive dt).pw.strap1.isSome = true) (h2 : (s.arrive dt).pw.strap2 = none) :
    ∃ t, exec (.strapSecondSample dt x y) s = .next t ∧ t.pw.strap2 = some (x, y) ∧ t.pw.clk0 + 56 ≤ t.now := by
  set w := (s.arrive dt).waitUntil ((s.arrive dt).pw.clk0 + 56) with hw
  have hclk0 : w.pw.clk0 = (s.arrive dt).pw.clk0 := State.elapse_clk0 _ _
  have hqual : w.pw.qual = true := (State.elapse_qual _ _).trans hq
  refine ⟨w.onPw fun p => { p with strap2 := some (x, y) }, ?_, rfl, ?_⟩
  · show execStrapSecondSample dt x y s = _
    unfold execStrapSecondSample
    rw [event_next, ht, hq, hf, h1, h2]
    exact congrArg _ (State.settle_qualifying hqual)
  · show w.pw.clk0 + 56 ≤ w.now
    rw [hclk0]
    exact State.waitUntil_reaches _ _ ht

/-- The address of two strap levels fits its register. -/
theorem address_toNat (l0 l1 : BitVec 2) : (BitVec.ofNat 7 (0x60 + 4 * l1.toNat + l0.toNat)).toNat = 0x60 + 4 * l1.toNat + l0.toNat := by
  rw [BitVec.toNat_ofNat]
  omega

theorem addressLatch_takes (s : State) (dt : Nat) (a0 a1 b0 b1 : Bool) (ht : (s.arrive dt).ticking = true)
    (hq : (s.arrive dt).pw.qual = true) (hf : (s.arrive dt).pw.first = true) (h1 : (s.arrive dt).pw.strap1 = some (a0, a1))
    (h2 : (s.arrive dt).pw.strap2 = some (b0, b1)) :
    ∃ b : State, exec (.addressLatch dt) s = .next b.settle ∧ b.pw.l0 = strapLevel a0 b0 ∧ b.pw.l1 = strapLevel a1 b1 ∧
      b.pw.addr.toNat = 0x60 + 4 * b.pw.l1.toNat + b.pw.l0.toNat ∧ b.pw.qual = false ∧ b.pw.first = false ∧
      b.pw.st = (if (s.arrive dt).pw.sd then .shutdown else .idle) ∧ b.pw.clk0 + 64 ≤ b.now ∧ b.thm.window0 = b.now := by
  set w := (s.arrive dt).waitUntil ((s.arrive dt).pw.clk0 + 64) with hw
  have hclk0 : w.pw.clk0 = (s.arrive dt).pw.clk0 := State.elapse_clk0 _ _
  have hsd : w.pw.sd = (s.arrive dt).pw.sd := State.elapse_sd _ _
  have hnow : w.pw.clk0 + 64 ≤ w.now := hclk0 ▸ State.waitUntil_reaches _ _ ht
  refine ⟨((w.onPw fun p => { p with
      st := if p.sd then .shutdown else .idle, qual := false, first := false, l0 := strapLevel a0 b0, l1 := strapLevel a1 b1
      addr := BitVec.ofNat 7 (0x60 + 4 * (strapLevel a1 b1).toNat + (strapLevel a0 b0).toNat) }).onThm fun t =>
        { t with window0 := w.now }).evalWrange, ?_, rfl, rfl, address_toNat _ _, rfl, rfl, ?_, hnow, rfl⟩
  · show execAddressLatch dt s = _
    unfold execAddressLatch
    rw [event_next, h1, h2, ht, hq, hf]
    rfl
  · rw [← hsd]
    rfl

/-- Settles O28: the samples and the latch wait for their edges of the clocking, and `State.advance_trim` gives the trims. -/
theorem strapsGiveAddress : Obligations.StrapsGiveAddress := by
  unfold Obligations.StrapsGiveAddress
  exact ⟨trim_by_edge_16, strapFirstSample_takes, strapPull_opposite, strapSecondSample_takes, addressLatch_takes⟩

/-! ### A wake (R36, R46, R305, R349) -/

/-- A dropped barrier changes the rings alone. -/
theorem State.dropBarriers_eq (s : State) : ∃ r, s.dropBarriers = { s with rings := r } := by
  unfold State.dropBarriers
  refine List.foldlRecOn (motive := fun t : State => ∃ r, t = { s with rings := r }) _ _ ⟨_, rfl⟩ fun t ht n _ => ?_
  obtain ⟨r, rfl⟩ := ht
  exact ⟨_, rfl⟩

theorem State.dropBarrier_barrier (s : State) (n m : RingNo) :
    (s.dropBarrier n).rings[m].barrier = if m = n then none else s.rings[m].barrier := by
  unfold State.dropBarrier State.onUpdate State.onRing
  simp only [Vector.getElem_set, Fin.getElem_fin]
  by_cases h : m = n
  · subst h
    simp
    split <;> rfl
  · have hne : ¬ (n : Nat) = m := fun e => h (Fin.ext e.symm)
    simp [h, hne]

/-- No ring keeps a barrier. -/
theorem State.dropBarriers_barrier (s : State) (m : RingNo) : s.dropBarriers.rings[m].barrier = none := by
  have hall : ∀ (l : List RingNo) (t : State), m ∈ l ∨ t.rings[m].barrier = none →
      (l.foldl (fun s n => s.dropBarrier n) t).rings[m].barrier = none := by
    intro l
    induction l with
    | nil => exact fun t h => h.resolve_left List.not_mem_nil
    | cons n l ih =>
      intro t h
      refine ih _ ?_
      rw [State.dropBarrier_barrier]
      by_cases hmn : m = n
      · exact .inr (if_pos hmn)
      · rw [if_neg hmn]
        exact h.imp_left fun hm => (List.mem_cons.1 hm).resolve_left hmn
  exact hall _ _ (.inl (List.mem_finRange m))

/-- RECOVERY or IDLE, by the journal-open flag (Table 2.4). -/
theorem State.askIntent_pw (s : State) : s.askIntent.pw = s.pw := by
  unfold State.askIntent
  split
  · split <;> rfl
  · rfl

theorem State.startReplay_st (s : State) : s.startReplay.pw.st = .recovery := by
  unfold State.startReplay
  dsimp only
  rw [State.askIntent_pw]
  rfl

theorem State.replayOver_pw (s : State) : s.replayOver.pw = s.pw := by
  unfold State.replayOver
  dsimp only
  split <;> rfl

theorem State.resume_st (s : State) : s.resume.pw.st = if s.pw.jopen then .recovery else .idle := by
  unfold State.resume
  split
  · exact s.startReplay_st
  · split
    · rw [State.replayOver_pw]
      rfl
    · rfl

/-- Edge 64 of a wake, before the state is left. -/
def State.woken (s : State) : State :=
  (((s.onThm fun t => { t with valid := false, rise := 0, current := false, window0 := s.now }).evalWrange).onPw fun p =>
    { p with qual := false }).dropBarriers

theorem exec_wakeQualifierEnd {s w : State} {dt : Nat} (ht : (s.arrive dt).ticking = true) (hq : (s.arrive dt).pw.qual = true)
    (hf : (s.arrive dt).pw.first = false) (hw : w = (s.arrive dt).waitUntil ((s.arrive dt).pw.clk0 + 64)) :
    exec (.wakeQualifierEnd dt) s = .next (if w.woken.pw.sd then w.woken.goTo .shutdown else w.woken.abandonAll.resume).settle := by
  have hbody : exec (.wakeQualifierEnd dt) s = event dt (fun s => if s.ticking && s.pw.qual && !s.pw.first then
      if (s.waitUntil (s.pw.clk0 + 64)).woken.pw.sd then (s.waitUntil (s.pw.clk0 + 64)).woken.goTo .shutdown
      else (s.waitUntil (s.pw.clk0 + 64)).woken.abandonAll.resume
    else s) s := rfl
  rw [hbody, event_next, ht, hq, hf, hw]
  rfl

/-- What edge 64 leaves: the qualifier has ended, the values of the wake are dropped, and with them the barriers (R46, R305, R349). -/
theorem State.woken_fields (w : State) :
    w.woken.pw = { w.pw with qual := false } ∧ w.woken.now = w.now ∧
      w.woken.thm = { w.thm with valid := false, rise := 0, current := false, window0 := w.now, wrangeOut := true } := by
  unfold State.woken
  obtain ⟨r, hdrop⟩ := (((w.onThm fun t => { t with valid := false, rise := 0, current := false, window0 := w.now }).evalWrange).onPw fun p =>
    { p with qual := false }).dropBarriers_eq
  rw [hdrop]
  exact ⟨rfl, rfl, rfl⟩

/-- The state after edge 64 of a wake. -/
def State.afterWake (w : State) : State := if w.woken.pw.sd then w.woken.goTo .shutdown else w.woken.abandonAll.resume

theorem State.afterWake_aloof (w : State) : w.afterWake.aloof = w.woken.aloof := by
  unfold State.afterWake
  split <;> simp

theorem State.afterWake_st (w : State) : w.afterWake.pw.st = if w.pw.sd then .shutdown else if w.pw.jopen then .recovery else .idle := by
  obtain ⟨hpw, -, -⟩ := w.woken_fields
  have hjopen : w.woken.abandonAll.pw.jopen = w.pw.jopen := by
    rw [jopen_of_aloof w.woken.abandonAll_aloof, hpw]
  have hsd : w.woken.pw.sd = w.pw.sd := by rw [hpw]
  unfold State.afterWake
  rw [hsd]
  split
  · rfl
  · rw [State.resume_st, hjopen]

/-- Settles O29: the abandonments and the turn to RECOVERY leave the clocking, the address, the thermal values and the barriers as edge 64 has
set them (`State.afterWake_aloof`). -/
theorem wakeEnds : Obligations.WakeEnds := by
  unfold Obligations.WakeEnds
  intro s w dt ht hq hf hw
  have hclk0 : w.pw.clk0 = (s.arrive dt).pw.clk0 := hw ▸ State.elapse_clk0 _ _
  have haddr : w.pw.addr = (s.arrive dt).pw.addr := hw ▸ State.elapse_addr _ _
  have hnow : (s.arrive dt).pw.clk0 + 64 ≤ w.now := hw ▸ State.waitUntil_reaches _ _ ht
  have haloof := w.afterWake_aloof
  obtain ⟨hpw, hnow', hthm⟩ := w.woken_fields
  obtain ⟨hq', hc', ha', -⟩ := power_of_aloof haloof
  rw [hpw] at hq' hc' ha'
  have hb : w.afterWake.now = w.now := (now_of_aloof haloof).trans hnow'
  have hthm' := (thm_of_aloof haloof).trans hthm
  refine ⟨w.afterWake, exec_wakeQualifierEnd ht hq hf hw, hq', ?_, ha'.trans haddr, ?_, ?_, ?_, ?_, ?_, fun n => ?_, w.afterWake_st⟩
  · rw [hc', hb, hclk0]
    exact hnow
  · rw [hthm']
  · rw [hthm']
  · rw [hthm']
  · rw [hthm']
  · rw [hthm', hb]
  · rw [barrier_of_aloof haloof]
    exact State.dropBarriers_barrier _ n

end Sys2Proof.Machine

/-! SUPPORT. Clock loss (R45, R396, Table 2.9). The proof of O30. -/

namespace Sys2Proof.Machine

open Sys2Proof.Safety

/-! ### Interrupted updates (R396) -/

/-- An interruption changes what the rings run and marks open slots. -/
theorem State.interruptRing_eq (s : State) (c : Cut) (n : RingNo) :
    ∃ r o, s.interruptRing c n = { s with rings := r, jnl := { s.jnl with slots := o } } := by
  unfold State.interruptRing
  split
  · split
    · dsimp only
      split <;> exact ⟨_, _, rfl⟩
    · exact ⟨_, _, rfl⟩
  · exact ⟨_, _, rfl⟩

theorem State.interruptAll_eq (s : State) (c : Cut) :
    ∃ r o, s.interruptAll c = { s with rings := r, jnl := { s.jnl with slots := o } } := by
  unfold State.interruptAll
  refine List.foldlRecOn (motive := fun t : State => ∃ r o, t = { s with rings := r, jnl := { s.jnl with slots := o } }) _ _ ⟨_, _, rfl⟩
    fun t ht n _ => ?_
  obtain ⟨r, o, rfl⟩ := ht
  obtain ⟨r', o', heq⟩ := State.interruptRing_eq { s with rings := r, jnl := { s.jnl with slots := o } } c n
  exact ⟨r', o', heq⟩

/-- What an interruption makes of an update. -/
def Update.cutBy (c : Cut) (u : Update) : Update := if u.interruptible then { u with stage := .cut c, gated := false } else u

theorem Update.cutBy_cutBy (c : Cut) (u : Update) : (u.cutBy c).cutBy c = u.cutBy c := by
  unfold Update.cutBy
  split
  · rfl
  · rfl

/-- A change of a ring's update keeps its index, and the other rings. -/
theorem State.onUpdate_update (s : State) (m n : RingNo) (f : Update → Update) :
    (s.onUpdate m f).rings[n].update? = if m = n then (s.rings[n].update?).map fun e => (e.1, f e.2) else s.rings[n].update? := by
  unfold State.onUpdate
  simp only [State.onRing_rings, Fin.getElem_fin, Vector.getElem_set]
  by_cases h : m = n
  · subst h
    rw [if_pos rfl, if_pos rfl]
    split
    next i u hw => simp [Ring.update?, hw]
    next hno =>
      have hnone : s.rings[(m : Nat)].update? = none := by
        unfold Ring.update?
        split
        next i u hw => exact absurd hw (hno i u)
        next => rfl
      rw [hnone]
      rfl
  · rw [if_neg (fun e => h (Fin.ext e)), if_neg h]

theorem State.interruptRing_update (s : State) (c : Cut) (m n : RingNo) :
    (s.interruptRing c m).rings[n].update? =
      if m = n then (s.rings[n].update?).map fun e => (e.1, e.2.cutBy c) else s.rings[n].update? := by
  unfold State.interruptRing
  split
  next i u hu =>
    split
    next hcut =>
      have hupdate := s.onUpdate_update m n fun u => { u with stage := .cut c, gated := false }
      have hmap : (s.rings[m].update?).map (fun e => (e.1, e.2.cutBy c)) =
          (s.rings[m].update?).map fun e => (e.1, { e.2 with stage := .cut c, gated := false }) := by
        rw [hu]
        simp [Update.cutBy, hcut]
      dsimp only
      split
      all_goals
        by_cases h : m = n
        · subst h
          rw [if_pos rfl] at hupdate ⊢
          rw [hmap]
          exact hupdate
        · rw [if_neg h] at hupdate ⊢
          exact hupdate
    next hcut =>
      by_cases h : m = n
      · subst h
        rw [if_pos rfl, hu]
        simp [Update.cutBy, hcut]
      · rw [if_neg h]
  next hu =>
    by_cases h : m = n
    · subst h
      rw [if_pos rfl, hu]
      rfl
    · rw [if_neg h]

/-- Every update that an interruption hits is cut, at its place (R396). -/
theorem State.interruptAll_update (s : State) (c : Cut) (n : RingNo) :
    (s.interruptAll c).rings[n].update? = (s.rings[n].update?).map fun e => (e.1, e.2.cutBy c) := by
  have hall : ∀ (l : List RingNo) (t : State),
      (n ∈ l ∧ t.rings[n].update? = s.rings[n].update?) ∨ t.rings[n].update? = (s.rings[n].update?).map (fun e => (e.1, e.2.cutBy c)) →
      (l.foldl (fun s n => s.interruptRing c n) t).rings[n].update? = (s.rings[n].update?).map fun e => (e.1, e.2.cutBy c) := by
    intro l
    induction l with
    | nil => exact fun t h => h.resolve_left fun h => List.not_mem_nil h.1
    | cons m l ih =>
      intro t h
      refine ih _ ?_
      rw [State.interruptRing_update]
      by_cases hmn : m = n
      · rw [if_pos hmn]
        right
        obtain ⟨-, h⟩ | h := h
        · rw [h]
        · rw [h, Option.map_map]
          exact congrArg (fun f => (s.rings[n].update?).map f) (funext fun e => by simp [Update.cutBy_cutBy])
      · rw [if_neg hmn]
        exact h.imp_left fun h => ⟨(List.mem_cons.1 h.1).resolve_left (Ne.symm hmn), h.2⟩
  exact hall _ _ (.inl ⟨List.mem_finRange n, rfl⟩)

/-! ### The actions (R45, Table 2.9) -/

theorem setStatus_bit (s : State) {i : Nat} (h : i < 36) : bitOf (s.setStatus (bitMask i)).pw.status i = true := by
  show bitOf (s.pw.status ||| bitMask i) i = true
  rw [bitOf_or, bitOf_bitMask h, Bool.or_true]

/-- A replay that an interruption meets starts again later (R336). -/
def State.replayStopped (s : State) : State := if s.jnl.replay.isSome then s.stopReplay else s

theorem State.replayStopped_aloof (s : State) : s.replayStopped.aloof = s.aloof := by
  unfold State.replayStopped
  split
  · exact s.stopReplay_aloof
  · rfl

/-- It stops nothing but the replay and its reads. -/
theorem State.replayStopped_eq (s : State) : ∃ j m, s.replayStopped = { s with jnl := j, mem := m } ∧ j.replay = none := by
  unfold State.replayStopped
  split
  next => exact ⟨_, _, rfl, rfl⟩
  next h => exact ⟨s.jnl, s.mem, rfl, Option.not_isSome_iff_eq_none.1 h⟩

/-- The engine is DORMANT and lets the set-up bus go (Table 2.9). -/
def State.unclocked (s : State) : State :=
  (s.replayStopped.dropBus.goTo .dormant).onPw fun p => { p with qual := false }

/-- What a clock loss makes of the last HCK edge. -/
def State.lost (s : State) : State :=
  if s.sup.railsUp then (s.unclocked.cutPower .clockLoss).setStatus (bitMask 0) else s.unclocked.interruptAll .clockLoss

/-- HCK stops. -/
def State.hckLow (s : State) : State := s.onPw fun p => { p with hck := false }

/-- The clock is gone, and with it the replay and the transaction on the set-up bus. -/
theorem State.unclocked_fields (s : State) :
    s.unclocked.pw = { s.pw with st := .dormant, qual := false } ∧ s.unclocked.jnl.replay = none ∧ s.unclocked.rings = s.rings ∧
      s.unclocked.sup = s.sup ∧ s.unclocked.cause = s.cause ∧ s.unclocked.now = s.now ∧ s.unclocked.mem.txn = s.mem.txn ∧
      s.unclocked.port.phase = .idle ∧ s.unclocked.port.buf = none ∧ s.unclocked.port.hold = none ∧ s.unclocked.port.sdaLow = false := by
  have haloof := txn_of_aloof s.replayStopped_aloof
  obtain ⟨j, m, heq, hj⟩ := s.replayStopped_eq
  unfold State.unclocked
  rw [heq] at haloof ⊢
  exact ⟨rfl, hj, rfl, rfl, rfl, rfl, haloof, rfl, rfl, rfl, rfl⟩

/-- Whether or not the rails are up, the engine is as `State.unclocked` has left it, its updates cut. -/
theorem State.lost_fields (s : State) :
    s.lost.pw.hck = s.pw.hck ∧ s.lost.pw.st = .dormant ∧ s.lost.port = s.unclocked.port ∧ s.lost.jnl.replay = none ∧ s.lost.now = s.now ∧
      s.lost.mem.txn = s.mem.txn ∧
      (∀ n : RingNo, s.lost.rings[n].update? = (s.rings[n].update?).map fun e => (e.1, e.2.cutBy .clockLoss)) := by
  obtain ⟨hpw, hreplay, hrings, -, -, hnow, htxn, -⟩ := s.unclocked_fields
  have hupdate := s.unclocked.interruptAll_update .clockLoss
  rw [hrings] at hupdate
  obtain ⟨r, o, hcut⟩ := s.unclocked.interruptAll_eq .clockLoss
  obtain ⟨d, u, hfast⟩ := (s.unclocked.interruptAll .clockLoss).fastDischarge_eq
  unfold State.lost State.cutPower
  rw [hfast]
  rw [hcut] at hupdate ⊢
  have hhck : s.unclocked.pw.hck = s.pw.hck := by rw [hpw]
  have hst : s.unclocked.pw.st = .dormant := by rw [hpw]
  split <;> exact ⟨hhck, hst, rfl, hreplay, hnow, htxn, hupdate⟩

/-- With the rails up: the status with its cause, and the immediate discharge. -/
theorem State.lost_up {s : State} (h : s.sup.railsUp = true) :
    bitOf s.lost.pw.status 0 = true ∧ bitOf s.lost.cause 0 = true ∧ s.lost.drv.frames = none ∧
      (s.sup.rampBegun = true → s.lost.sup.phase = .fast) := by
  obtain ⟨-, -, -, hsup, -⟩ := s.unclocked_fields
  obtain ⟨r, o, hcut⟩ := s.unclocked.interruptAll_eq .clockLoss
  have hlost : s.lost = ((s.unclocked.interruptAll .clockLoss).fastDischarge).setStatus (bitMask 0) := if_pos h
  have hbegun : (s.unclocked.interruptAll .clockLoss).sup = s.sup := by rw [hcut]; exact hsup
  have hfast := State.fastDischarge_begun (s := s.unclocked.interruptAll .clockLoss)
  rw [hbegun] at hfast
  rw [hlost]
  exact ⟨setStatus_bit _ (by decide), setCause_bit _ (by decide), State.fastDischarge_frames _, fun hb => (hfast hb).1⟩

/-- With the rails off: neither. -/
theorem State.lost_off {s : State} (h : s.sup.railsUp = false) :
    s.lost.pw.status = s.pw.status ∧ s.lost.cause = s.cause ∧ s.lost.sup = s.sup := by
  obtain ⟨hpw, -, -, hsup, hcause, -⟩ := s.unclocked_fields
  obtain ⟨r, o, hcut⟩ := s.unclocked.interruptAll_eq .clockLoss
  have hlost : s.lost = s.unclocked.interruptAll .clockLoss := if_neg (by rw [h]; decide)
  rw [hlost, hcut]
  have hstatus : s.unclocked.pw.status = s.pw.status := by rw [hpw]
  exact ⟨hstatus, hcause, hsup⟩

theorem exec_clockLoss {s : State} {dt : Nat} (hh : (s.arrive dt).closeEdge.pw.hck = true)
    (hheld : (s.arrive dt).closeEdge.heldInReset = false) :
    exec (.clockLoss dt) s = .next (s.arrive dt).closeEdge.hckLow.lost := by
  have hbody : exec (.clockLoss dt) s = event dt (fun s => if !s.pw.hck then s
    else if s.closeEdge.hckLow.heldInReset then s.closeEdge.hckLow else s.closeEdge.hckLow.lost) s := rfl
  have hon : (s.arrive dt).pw.hck = true :=
    (congrArg (fun t : State => t.pw.hck) (s.arrive dt).closeEdge_rooted :).symm.trans hh
  have hlow : (s.arrive dt).closeEdge.hckLow.heldInReset = false := hheld
  have hstand : (s.arrive dt).closeEdge.hckLow.lost.ticking = false := State.ticking_unclocked (State.lost_fields _).1
  rw [hbody, event_next, hon, hlow, Bool.not_true, if_neg Bool.false_ne_true, if_neg Bool.false_ne_true, State.settle_standing hstand]

/-- Settles O30: the actions by `State.lost_fields`, what the rails decide by `State.lost_up` and `State.lost_off`. -/
theorem clockLossActions : Obligations.ClockLossActions := by
  unfold Obligations.ClockLossActions
  intro s w dt hw hh hheld
  subst hw
  obtain ⟨hhck, hst, hport, hreplay, hnow, htxn, hupdate⟩ := ((s.arrive dt).closeEdge.hckLow).lost_fields
  obtain ⟨-, -, -, -, -, -, -, hphase, hbuf, hhold, hsda⟩ := ((s.arrive dt).closeEdge.hckLow).unclocked_fields
  have hup := State.lost_up (s := (s.arrive dt).closeEdge.hckLow)
  have hoff := State.lost_off (s := (s.arrive dt).closeEdge.hckLow)
  refine ⟨_, exec_clockLoss hh hheld, hhck, hst, ?_, ?_, ?_, ?_, hreplay, hnow, htxn, fun n i u hu hcut => ?_, hup, hoff⟩
  · rw [hport, hphase]
  · rw [hport, hbuf]
  · rw [hport, hhold]
  · rw [hport, hsda]
  · have hu' : (s.arrive dt).closeEdge.hckLow.rings[n].update? = some (i, u) := hu
    refine ⟨u.cutBy .clockLoss, ?_, ?_, ?_⟩
    · rw [hupdate, hu']
      rfl
    · rw [Update.cutBy, if_pos hcut]
    · rw [Update.cutBy, if_pos hcut]

end Sys2Proof.Machine

/-! SUPPORT. Thermal shutdown and VIN undervoltage (R47, R75, R317 to R319). The proof of O31. -/

namespace Sys2Proof.Machine

open Sys2Proof.Safety

/-! ### Bits of a status register -/

theorem bitOf_bitIf (c : Bool) (i j : Nat) (hj : j < 36) : bitOf (bitIf c i) j = (c && decide (i = j)) := by
  unfold bitIf bitMask bitOf
  cases c
  · simp
  · rw [if_pos rfl, BitVec.getLsbD_ofNat, decide_eq_true hj, Nat.testBit_two_pow]

theorem bitOf_put_low (v lo j : Nat) (h : j < lo) : bitOf (put v lo) j = false := by
  unfold put bitOf
  rw [BitVec.getLsbD_ofNat, Nat.testBit_mul_two_pow, decide_eq_false (by omega : ¬ lo ≤ j), Bool.false_and, Bool.and_false]

/-- SUP_STATUS.uvlo (Table 7.17). -/
theorem supStatus_uvlo (s : State) : bitOf (s.readReg .supStatus) 4 = s.pw.uvlo := by
  have hput := bitOf_put_low s.sup.limited.length 5 4 (by decide)
  show bitOf s.supStatus 4 = _
  simp only [State.supStatus, bitOf_or, bitOf_bitIf _ _ 4 (by decide), hput]
  simp

/-- THM_STATUS.sd (Table 7.19). -/
theorem thmStatus_sd (s : State) : bitOf (s.readReg .thmStatus) 4 = s.pw.sd := by
  show bitOf s.thmStatus 4 = _
  simp only [State.thmStatus, bitOf_or, bitOf_bitIf _ _ 4 (by decide)]
  simp

/-! ### Causes and the log only grow -/

/-- The causes that are set stay set, and the log keeps its entries. -/
def Adds (s t : State) : Prop := (∀ i, bitOf s.cause i = true → bitOf t.cause i = true) ∧ s.log <+: t.log

theorem Adds.refl (s : State) : Adds s s := ⟨fun _ h => h, List.prefix_rfl⟩

theorem Adds.trans {a b c : State} (h : Adds a b) (h' : Adds b c) : Adds a c := ⟨fun i hi => h'.1 i (h.1 i hi), h.2.trans h'.2⟩

theorem Adds.of_eq {s t : State} (hc : t.cause = s.cause) (hl : t.log = s.log) : Adds s t := ⟨fun _ h => hc ▸ h, hl ▸ List.prefix_rfl⟩

namespace State

theorem setCause_adds (s : State) (m : Word) : Adds s (s.setCause m) := by
  refine ⟨fun i h => ?_, List.prefix_rfl⟩
  rw [setCause_cause, bitOf_or, h, Bool.true_or]

theorem setStatus_adds (s : State) (m : Word) : Adds s (s.setStatus m) := .trans (.of_eq rfl rfl) (setCause_adds _ m)

theorem log_adds (s : State) (code detail : Nat) (n : RingNo) (i : Nat) : Adds s (s.log_ code detail n i) := by
  unfold log_
  split
  · exact ⟨fun _ h => h, List.prefix_append _ _⟩
  · exact .trans (.of_eq rfl rfl) (setCause_adds _ _)

theorem dropBarriers_adds (s : State) : Adds s s.dropBarriers := by
  obtain ⟨r, heq⟩ := s.dropBarriers_eq
  rw [heq]
  exact .of_eq rfl rfl

/-- The abandonment of one update sets its status, with its cause, and logs it. -/
theorem abandonRing_adds (s : State) (p : Cut → Bool) (n : RingNo) : Adds s (s.abandonRing p n) := by
  unfold abandonRing
  split
  · split
    · split
      · exact .refl s
      · exact ((s.setStatus_adds _).trans (log_adds _ _ _ _ _)).trans (.of_eq rfl rfl)
    · exact .refl s
  · exact .refl s

theorem abandonRing_pw (s : State) (p : Cut → Bool) (n : RingNo) : ∃ w, (s.abandonRing p n).pw = { s.pw with status := w } := by
  unfold abandonRing
  split
  · split
    · split
      · exact ⟨_, rfl⟩
      · obtain ⟨e, l, o, k, hlog⟩ := (s.setStatus (bitMask 2)).log_eq _ _ _ _
        rw [hlog]
        exact ⟨_, rfl⟩
    · exact ⟨_, rfl⟩
  · exact ⟨_, rfl⟩

theorem abandonCut_adds (s : State) (p : Cut → Bool) : Adds s (s.abandonCut p) :=
  List.foldlRecOn (motive := Adds s) _ _ (.refl s) fun t ht n _ => ht.trans (t.abandonRing_adds p n)

theorem abandonCut_pw (s : State) (p : Cut → Bool) : ∃ w, (s.abandonCut p).pw = { s.pw with status := w } := by
  refine List.foldlRecOn (motive := fun t : State => ∃ w, t.pw = { s.pw with status := w }) _ _ ⟨_, rfl⟩ fun t ht n _ => ?_
  obtain ⟨w, hw⟩ := ht
  obtain ⟨w', hw'⟩ := t.abandonRing_pw p n
  exact ⟨w', by rw [hw', hw]⟩

theorem askIntent_adds (s : State) : Adds s s.askIntent := by
  unfold askIntent
  split
  · split <;> exact .of_eq rfl rfl
  · exact .refl s

theorem startReplay_adds (s : State) : Adds s s.startReplay :=
  .trans (b := (s.goTo .recovery).onJnl _) (.of_eq rfl rfl) (askIntent_adds _)

theorem replayOver_adds (s : State) : Adds s s.replayOver := by
  refine .trans (s.setCause_adds (bitMask 8)) ?_
  unfold replayOver
  dsimp only
  split <;> exact .of_eq rfl rfl

theorem resume_adds (s : State) : Adds s s.resume := by
  unfold resume
  split
  · exact s.startReplay_adds
  · split
    · exact .trans (b := s.goTo .idle) (.of_eq rfl rfl) (replayOver_adds _)
    · exact .of_eq rfl rfl

/-! ### Thermal shutdown (R47) -/

/-- An interruption with the immediate discharge changes what the rings run, the slots, the outputs and the rails. -/
theorem cutPower_eq (s : State) (c : Cut) :
    ∃ r o d u, s.cutPower c = { s with rings := r, jnl := { s.jnl with slots := o }, drv := d, sup := u } := by
  obtain ⟨r, o, hcut⟩ := s.interruptAll_eq c
  obtain ⟨d, u, hfast⟩ := (s.interruptAll c).fastDischarge_eq
  unfold cutPower
  rw [hfast, hcut]
  exact ⟨_, _, _, _, rfl⟩

theorem cutPower_begun {s : State} (c : Cut) (h : s.sup.rampBegun = true) : (s.cutPower c).sup.phase = .fast := by
  obtain ⟨r, o, hcut⟩ := s.interruptAll_eq c
  have hsup : (s.interruptAll c).sup = s.sup := by rw [hcut]
  have hfast := fastDischarge_begun (s := s.interruptAll c)
  rw [hsup] at hfast
  exact (hfast h).1

/-- The comparator shows a trip. -/
def sdHigh (s : State) : State := s.onPw fun p => { p with sd := true }

/-- A trip before the state is left: the discharge where there is something to interrupt, and the status. -/
def tripped (s : State) : State :=
  (if s.sup.railsUp || decide (s.pw.st ≠ .dormant) then s.cutPower .shutdown else s).setStatus (bitMask 1)

/-- The state after a trip. -/
def shutDown (s : State) : State :=
  if s.tripped.pw.st = .dormant then s.tripped
  else (s.tripped.replayStopped.dropBarriers.goTo .shutdown).onPw fun p => { p with shut := p.shut || p.busy }

end State

theorem exec_shutdownTrip {s : State} {dt : Nat} (hsd : (s.arrive dt).pw.sd = false) (hheld : (s.arrive dt).heldInReset = false) :
    exec (.shutdownTrip dt) s = .next (s.arrive dt).sdHigh.shutDown.settle := by
  have hbody : exec (.shutdownTrip dt) s = event dt (fun s => if s.pw.sd then s else if s.sdHigh.heldInReset then s.sdHigh else s.sdHigh.shutDown) s :=
    rfl
  have hheld' : (s.arrive dt).sdHigh.heldInReset = false := hheld
  rw [hbody, event_next, hsd, hheld', if_neg Bool.false_ne_true, if_neg Bool.false_ne_true]

/-- The discharge and the status leave the state of the engine. -/
theorem State.tripped_fields (s : State) :
    s.tripped.pw.st = s.pw.st ∧ s.tripped.pw.sd = s.pw.sd ∧ bitOf s.tripped.pw.status 1 = true ∧ bitOf s.tripped.cause 1 = true ∧
      (s.sup.rampBegun = true → s.tripped.sup.phase = .fast) := by
  obtain ⟨r, o, d, u, hcut⟩ := s.cutPower_eq .shutdown
  have hpw : (if s.sup.railsUp || decide (s.pw.st ≠ .dormant) then s.cutPower .shutdown else s).pw = s.pw := by
    split
    · rw [hcut]
    · rfl
  refine ⟨(congrArg Power.st hpw :), (congrArg Power.sd hpw :), setStatus_bit _ (by decide), setCause_bit _ (by decide), fun h => ?_⟩
  have hup : s.sup.railsUp = true := (Bool.and_eq_true_iff.1 h).1
  have htrip : s.tripped = (s.cutPower .shutdown).setStatus (bitMask 1) := by
    unfold State.tripped
    rw [hup, Bool.true_or, if_pos rfl]
  rw [htrip]
  exact s.cutPower_begun _ h

theorem shutdownTrip_enters (s : State) (dt : Nat) (hsd : (s.arrive dt).pw.sd = false) (hheld : (s.arrive dt).heldInReset = false) :
    ∃ b : State, exec (.shutdownTrip dt) s = .next b.settle ∧ b.pw.sd = true ∧ bitOf b.pw.status 1 = true ∧ bitOf b.cause 1 = true ∧
      b.pw.st = (if (s.arrive dt).pw.st = .dormant then .dormant else .shutdown) ∧
      ((s.arrive dt).pw.st ≠ .dormant → ∀ n : RingNo, b.rings[n].barrier = none) ∧
      ((s.arrive dt).sup.rampBegun = true → b.sup.phase = .fast) := by
  obtain ⟨hst, hsd', hstatus, hcause, hfast⟩ := (s.arrive dt).sdHigh.tripped_fields
  have hst' : (s.arrive dt).sdHigh.tripped.pw.st = (s.arrive dt).pw.st := hst
  refine ⟨_, exec_shutdownTrip hsd hheld, ?_⟩
  unfold State.shutDown
  rw [hst']
  by_cases hd : (s.arrive dt).pw.st = .dormant
  · rw [if_pos hd, if_pos hd]
    exact ⟨hsd', hstatus, hcause, hst'.trans hd, fun h => absurd hd h, hfast⟩
  · obtain ⟨j, m, hstop, -⟩ := (s.arrive dt).sdHigh.tripped.replayStopped_eq
    have hnone := (s.arrive dt).sdHigh.tripped.replayStopped.dropBarriers_barrier
    obtain ⟨r, hdrop⟩ := (s.arrive dt).sdHigh.tripped.replayStopped.dropBarriers_eq
    rw [hdrop] at hnone
    rw [if_neg hd, if_neg hd, hdrop, hstop]
    exact ⟨hsd', hstatus, hcause, rfl, fun _ => hnone, hfast⟩

theorem shutdownRelease_clears (s : State) (dt : Nat) (hsd : (s.arrive dt).pw.sd = true) :
    ∃ b : State, exec (.shutdownRelease dt) s = .next b.settle ∧ b.pw.sd = false ∧ b.pw.sdClear = b.now ∧
      bitOf (b.readReg .thmStatus) 4 = false ∧ b.pw.st = (s.arrive dt).pw.st :=
  ⟨(s.arrive dt).onPw fun p => { p with sd := false, sdClear := (s.arrive dt).now }, event_body (if_pos hsd), rfl, rfl, thmStatus_sd _, rfl⟩

/-- A function-wide reset that SHUTDOWN has met ends with the exit (R72). -/
def State.exitBusy (s : State) : State :=
  if s.pw.busy && (match s.pw.drain with | some d => decide (d + 16 ≤ s.now) | none => false) then
    s.onPw fun p => { p with busy := false, drain := none, shut := false } else s

theorem State.exitBusy_fields (s : State) : s.exitBusy.pw.jopen = s.pw.jopen ∧ s.exitBusy.now = s.now := by
  unfold State.exitBusy
  generalize (s.pw.busy && _) = c
  cases c <;> exact ⟨rfl, rfl⟩

theorem exec_shutdownExit {s w : State} {dt : Nat} (ha : (s.arrive dt).answering = true) (hst : (s.arrive dt).pw.st = .shutdown)
    (hsd : (s.arrive dt).pw.sd = false) (hw : w = (s.arrive dt).waitUntil ((s.arrive dt).pw.sdClear + 64)) :
    exec (.shutdownExit dt) s = .next w.exitBusy.abandonAll.resume.settle := by
  have hbody : exec (.shutdownExit dt) s = event dt (fun s => if s.answering && decide (s.pw.st = .shutdown) && !s.pw.sd then
      (s.waitUntil (s.pw.sdClear + 64)).exitBusy.abandonAll.resume else s) s := rfl
  rw [hbody, event_next, ha, hst, hsd, hw]
  rfl

theorem shutdownExit_goes (s w : State) (dt : Nat) (ha : (s.arrive dt).answering = true) (hst : (s.arrive dt).pw.st = .shutdown)
    (hsd : (s.arrive dt).pw.sd = false) (hw : w = (s.arrive dt).waitUntil ((s.arrive dt).pw.sdClear + 64)) :
    ∃ b : State, exec (.shutdownExit dt) s = .next b.settle ∧ (s.arrive dt).pw.sdClear + 64 ≤ b.now ∧
      b.pw.st = (if w.pw.jopen then .recovery else .idle) := by
  obtain ⟨hjopen, hnow⟩ := w.exitBusy_fields
  have haloof : w.exitBusy.abandonAll.resume.aloof = w.exitBusy.aloof := by rw [State.resume_aloof, State.abandonAll_aloof]
  refine ⟨_, exec_shutdownExit ha hst hsd hw, ?_, ?_⟩
  · rw [now_of_aloof haloof, hnow, hw]
    exact State.waitUntil_reaches _ _ (State.answering_ticking ha)
  · rw [State.resume_st, jopen_of_aloof w.exitBusy.abandonAll_aloof, hjopen]

/-! ### VIN undervoltage (R75) -/

/-- The comparator shows an undervoltage. -/
def State.uvloHigh (s : State) : State := s.onPw fun p => { p with uvlo := true }

/-- The immediate discharge of rails that have begun their ramp. -/
def State.uvloCut (s : State) (hit : Bool) : State := if hit then s.cutPower .uvlo else s

theorem exec_uvloAssert {s : State} {dt : Nat} (hu : (s.arrive dt).pw.uvlo = false) (hheld : (s.arrive dt).heldInReset = false) :
    exec (.uvloAssert dt) s =
      .next (if (s.arrive dt).ticking then ((s.arrive dt).uvloHigh.uvloCut (s.arrive dt).sup.rampBegun).uvloSync (s.arrive dt).sup.rampBegun
        else ((s.arrive dt).uvloHigh.uvloCut (s.arrive dt).sup.rampBegun).defer (.uvloSeen (s.arrive dt).sup.rampBegun)).settle := by
  have hbody : exec (.uvloAssert dt) s = event dt (fun s => if s.pw.uvlo then s else if s.uvloHigh.heldInReset then s.uvloHigh else
      if (s.uvloHigh.uvloCut s.sup.rampBegun).ticking then (s.uvloHigh.uvloCut s.sup.rampBegun).uvloSync s.sup.rampBegun
      else (s.uvloHigh.uvloCut s.sup.rampBegun).defer (.uvloSeen s.sup.rampBegun)) s := rfl
  have hheld' : (s.arrive dt).uvloHigh.heldInReset = false := hheld
  have hticking : ((s.arrive dt).uvloHigh.uvloCut (s.arrive dt).sup.rampBegun).ticking = (s.arrive dt).ticking := by
    obtain ⟨r, o, d, u, hcut⟩ := (s.arrive dt).uvloHigh.cutPower_eq .uvlo
    unfold State.uvloCut
    rw [hcut]
    split <;> rfl
  rw [hbody, event_next, hu, hheld', hticking, if_neg Bool.false_ne_true, if_neg Bool.false_ne_true]

/-- What the engine sees of an undervoltage on its edge, before its state turns. -/
def State.uvloNoted (s : State) : State := (((s.setCause (bitMask 12)).log_ 8 0 0 0).dropBarriers).abandonCut (· == .uvlo)

/-- The state after an undervoltage (Table 2.4). -/
def State.uvloTurn (s : State) : State :=
  match s.pw.st with
  | .armed => s.resume
  | .driving => s.resume
  | .parking => s.resume
  | .recovery => s.stopReplay.startReplay
  | _ => s

theorem State.uvloSync_hit (s : State) : s.uvloSync true = s.uvloNoted.uvloTurn := by
  unfold State.uvloSync State.uvloNoted State.uvloTurn
  generalize hx : (((s.setCause (bitMask 12)).log_ 8 0 0 0).dropBarriers).abandonCut (· == .uvlo) = x
  rw [Bool.not_true, if_neg Bool.false_ne_true, hx] <;> rfl

theorem State.uvloTurn_aloof (s : State) : s.uvloTurn.aloof = s.aloof := by
  unfold State.uvloTurn
  split <;> simp

theorem State.uvloTurn_adds (s : State) : Adds s s.uvloTurn := by
  unfold State.uvloTurn
  split
  · exact s.resume_adds
  · exact s.resume_adds
  · exact s.resume_adds
  · exact .trans (b := s.stopReplay) (.of_eq rfl rfl) (State.startReplay_adds _)
  · exact .refl s

theorem State.uvloNoted_adds (s : State) : Adds (s.setCause (bitMask 12)) s.uvloNoted :=
  ((State.log_adds _ _ _ _ _).trans (State.dropBarriers_adds _)).trans (State.abandonCut_adds _ _)

theorem State.uvloNoted_barrier (s : State) (n : RingNo) : s.uvloNoted.rings[n].barrier = none := by
  unfold State.uvloNoted
  rw [barrier_of_aloof (State.abandonCut_aloof _ _)]
  exact State.dropBarriers_barrier _ n

theorem State.uvloNoted_sup (s : State) : s.uvloNoted.sup = s.sup ∧ ∃ w, s.uvloNoted.pw = { s.pw with status := w } := by
  obtain ⟨w, hw⟩ := (((s.setCause (bitMask 12)).log_ 8 0 0 0).dropBarriers).abandonCut_pw (· == .uvlo)
  have hsup := sup_of_aloof ((((s.setCause (bitMask 12)).log_ 8 0 0 0).dropBarriers).abandonCut_aloof (· == .uvlo))
  obtain ⟨r, hdrop⟩ := ((s.setCause (bitMask 12)).log_ 8 0 0 0).dropBarriers_eq
  obtain ⟨e, l, o, k, hlog⟩ := (s.setCause (bitMask 12)).log_eq 8 0 0 0
  rw [hdrop, hlog] at hsup hw
  unfold State.uvloNoted
  rw [hdrop, hlog]
  exact ⟨hsup, w, hw⟩

/-- On an HCK edge the cause is set, whatever the rails do. -/
theorem State.uvloSync_cause (s : State) (hit : Bool) : bitOf (s.uvloSync hit).cause 12 = true := by
  have hset := setCause_bit s (i := 12) (by decide)
  cases hit with
  | false => exact hset
  | true =>
    rw [State.uvloSync_hit]
    exact (s.uvloNoted_adds.trans s.uvloNoted.uvloTurn_adds).1 12 hset

/-- RECOVERY or IDLE from ARMED, DRIVING and PARKING (Table 2.4). -/
theorem State.uvloTurn_st {s : State} (h : s.pw.st = .armed ∨ s.pw.st = .driving ∨ s.pw.st = .parking) :
    s.uvloTurn.pw.st = if s.pw.jopen then .recovery else .idle := by
  have hresume : s.uvloTurn = s.resume := by
    unfold State.uvloTurn
    obtain h | h | h := h <;> rw [h]
  rw [hresume, State.resume_st]

/-- The first entry of an empty log is code 0x08. -/
theorem State.uvloNoted_log {s : State} (h : s.log = []) : ∃ e l, s.uvloNoted.log = e :: l ∧ fld e.a 0 8 = 8 := by
  obtain ⟨e, hlog, -, hword⟩ := log_of_room (s.setCause (bitMask 12)) 8 0 0 0 (by rw [State.setCause_log, h]; decide)
  obtain ⟨hcode, -⟩ := hword (by decide) (by decide) (by decide)
  obtain ⟨l, hl⟩ := ((State.dropBarriers_adds ((s.setCause (bitMask 12)).log_ 8 0 0 0)).trans (State.abandonCut_adds _ (· == .uvlo))).2
  refine ⟨e, l, ?_, hcode⟩
  unfold State.uvloNoted
  rw [← hl, hlog, State.setCause_log, h]
  rfl

/-- On an HCK edge, rails that have begun their ramp: the barriers are dropped, and the state is left. -/
theorem State.uvloSync_fields (s : State) :
    (∀ n : RingNo, (s.uvloSync true).rings[n].barrier = none) ∧ (s.log = [] → ∃ e l, (s.uvloSync true).log = e :: l ∧ fld e.a 0 8 = 8) ∧
      (s.pw.st = .armed ∨ s.pw.st = .driving ∨ s.pw.st = .parking →
        (s.uvloSync true).pw.st = if s.pw.jopen then .recovery else .idle) ∧
      (s.uvloSync true).sup = s.sup ∧ (s.uvloSync true).pw.uvlo = s.pw.uvlo := by
  obtain ⟨hsup, w, hw⟩ := s.uvloNoted_sup
  have haloof := s.uvloNoted.uvloTurn_aloof
  have hst : s.uvloNoted.pw.st = s.pw.st := by rw [hw]
  have hjopen : s.uvloNoted.pw.jopen = s.pw.jopen := by rw [hw]
  have huvlo : s.uvloNoted.pw.uvlo = s.pw.uvlo := by rw [hw]
  rw [State.uvloSync_hit]
  refine ⟨fun n => (barrier_of_aloof haloof n).trans (s.uvloNoted_barrier n), fun h => ?_, fun h => ?_, (sup_of_aloof haloof).trans hsup,
    (uvlo_of_aloof haloof).trans huvlo⟩
  · obtain ⟨e, l, hl, he⟩ := State.uvloNoted_log h
    obtain ⟨l', hl'⟩ := s.uvloNoted.uvloTurn_adds.2
    exact ⟨e, l ++ l', by rw [← hl', hl]; rfl, he⟩
  · rw [State.uvloTurn_st (by rw [hst]; exact h), hjopen]

theorem State.uvloCut_fields (s : State) (hit : Bool) :
    (s.uvloCut hit).pw = s.pw ∧ (s.uvloCut hit).log = s.log ∧ (s.sup.rampBegun = true → hit = true → (s.uvloCut hit).sup.phase = .fast) := by
  cases hit with
  | false => exact ⟨rfl, rfl, fun _ h => nomatch h⟩
  | true =>
    obtain ⟨r, o, d, u, hcut⟩ := s.cutPower_eq .uvlo
    have heq : s.uvloCut true = s.cutPower .uvlo := rfl
    refine ⟨?_, ?_, fun h _ => heq ▸ State.cutPower_begun _ h⟩ <;> rw [heq, hcut]

theorem uvloAssert_acts (s : State) (dt : Nat) (hu : (s.arrive dt).pw.uvlo = false) (hheld : (s.arrive dt).heldInReset = false) :
    ∃ b : State, exec (.uvloAssert dt) s = .next b.settle ∧ bitOf (b.readReg .supStatus) 4 = true ∧
      ((s.arrive dt).ticking = true → bitOf b.cause 12 = true) ∧
      ((s.arrive dt).ticking = false → ∃ hit, Deferred.uvloSeen hit ∈ b.later) ∧
      ((s.arrive dt).sup.rampBegun = false → b.pw.st = (s.arrive dt).pw.st ∧ b.log = (s.arrive dt).log) ∧
      ((s.arrive dt).sup.rampBegun = true →
        b.sup.phase = .fast ∧
        ((s.arrive dt).ticking = true → (∀ n : RingNo, b.rings[n].barrier = none) ∧
          ((s.arrive dt).log = [] → ∃ e l, b.log = e :: l ∧ fld e.a 0 8 = 8) ∧
          ((s.arrive dt).pw.st = .armed ∨ (s.arrive dt).pw.st = .driving ∨ (s.arrive dt).pw.st = .parking →
            b.pw.st = (if (s.arrive dt).pw.jopen then .recovery else .idle)))) := by
  have hexec := exec_uvloAssert hu hheld
  obtain ⟨hpw, hlog, hfast⟩ := (s.arrive dt).uvloHigh.uvloCut_fields (s.arrive dt).sup.rampBegun
  generalize hhit : (s.arrive dt).sup.rampBegun = hit at *
  generalize (s.arrive dt).uvloHigh.uvloCut hit = x at *
  have huvlo : x.pw.uvlo = true := by rw [hpw]; rfl
  have hst : x.pw.st = (s.arrive dt).pw.st := by rw [hpw]; rfl
  have hjopen : x.pw.jopen = (s.arrive dt).pw.jopen := by rw [hpw]; rfl
  have hlog' : x.log = (s.arrive dt).log := hlog
  have hfast' : hit = true → x.sup.phase = .fast := fun h => hfast (hhit.trans h) h
  rw [← hst, ← hjopen, ← hlog']
  cases ht : (s.arrive dt).ticking with
  | false =>
    rw [ht, if_neg Bool.false_ne_true] at hexec
    exact ⟨_, hexec, (supStatus_uvlo _).trans huvlo, nofun, fun _ => ⟨hit, List.mem_append_right _ (List.mem_singleton_self _)⟩,
      fun _ => ⟨rfl, rfl⟩, fun h => ⟨hfast' h, nofun⟩⟩
  | true =>
    rw [ht, if_pos rfl] at hexec
    cases hit with
    | false => exact ⟨_, hexec, (supStatus_uvlo _).trans huvlo, fun _ => x.uvloSync_cause false, nofun, fun _ => ⟨rfl, rfl⟩, nofun⟩
    | true =>
      obtain ⟨hbar, hfirst, hturn, hsup, hu'⟩ := x.uvloSync_fields
      exact ⟨_, hexec, (supStatus_uvlo _).trans (hu'.trans huvlo), fun _ => x.uvloSync_cause true, nofun, nofun,
        fun _ => ⟨(congrArg Supply.phase hsup).trans (hfast' rfl), fun _ => ⟨hbar, hfirst, hturn⟩⟩⟩

/-- The comparator shows no undervoltage any more. -/
def State.uvloLow (s : State) : State := s.onPw fun p => { p with uvlo := false }

theorem uvloRelease_clears (s : State) (dt : Nat) :
    ∃ b : State, exec (.uvloRelease dt) s = .next b.settle ∧ bitOf (b.readReg .supStatus) 4 = false ∧
      b.pw.st = (if (s.arrive dt).answering && (s.arrive dt).replayOwed && !(s.arrive dt).pw.busy && !(s.arrive dt).checking then .recovery
        else (s.arrive dt).pw.st) := by
  have hbody : exec (.uvloRelease dt) s = event dt (fun s => if s.answering && s.replayOwed && !s.pw.busy && !s.checking then
      s.uvloLow.startReplay else s.uvloLow) s := rfl
  rw [hbody]
  generalize hc : ((s.arrive dt).answering && (s.arrive dt).replayOwed && !(s.arrive dt).pw.busy && !(s.arrive dt).checking) = c
  cases c with
  | false => exact ⟨_, event_body (if_neg (by rw [hc]; decide)), supStatus_uvlo _, rfl⟩
  | true =>
    refine ⟨_, event_body (if_pos hc), ?_, State.startReplay_st _⟩
    rw [supStatus_uvlo, uvlo_of_aloof (State.startReplay_aloof _)]
    rfl

/-- Settles O31: a trip by `State.tripped_fields`, an undervoltage by `State.uvloSync_fields`, both with what the turn to another state leaves
alone (`State.aloof`). -/
theorem shutdownAndUvlo : Obligations.ShutdownAndUvlo := by
  unfold Obligations.ShutdownAndUvlo
  exact ⟨⟨shutdownTrip_enters, shutdownRelease_clears, shutdownExit_goes⟩, uvloAssert_acts, State.uvloSync_cause, uvloRelease_clears⟩

end Sys2Proof.Machine

/-! SUPPORT. The steps of a function-wide reset, and PARKING (R72, R247, R294). The proof of O32. -/

namespace Sys2Proof.Machine

open Sys2Proof.Safety

/-! ### The end of the drain (R72, step 2) -/

/-- Step 3 is put one edge later where the rails are up, but not in SHUTDOWN (R82). -/
theorem State.resetPark_eq (s : State) :
    s.resetPark = { s with later := if s.sup.railsUp && decide (s.pw.st ≠ .shutdown) then s.later ++ [.enterParking] else s.later } := by
  unfold State.resetPark
  split <;> rfl

theorem exec_resetDrainEnd {s : State} {dt : Nat} (ha : (s.arrive dt).answering = true) (hb : (s.arrive dt).pw.busy = true)
    (hd : (s.arrive dt).pw.drain = none) (hc : (s.arrive dt).mem.cur = none) (ht : (s.arrive dt).mem.txn = none) :
    exec (.resetDrainEnd dt) s = .next (s.arrive dt).drainEnd.settle := by
  show execResetDrainEnd dt s = _
  unfold execResetDrainEnd
  refine event_body (if_pos ?_)
  rw [ha, hb, hd, hc, ht]
  rfl

theorem resetDrainEnd_ends (s : State) (dt : Nat) (ha : (s.arrive dt).answering = true) (hb : (s.arrive dt).pw.busy = true)
    (hd : (s.arrive dt).pw.drain = none) (hc : (s.arrive dt).mem.cur = none) (ht : (s.arrive dt).mem.txn = none) :
    ∃ b : State, exec (.resetDrainEnd dt) s = .next b.settle ∧ b.pw.drain = some (s.arrive dt).now ∧
      (∀ o ∈ b.mem.parked, o.acc.prio < 3) ∧ (∀ o ∈ (s.arrive dt).mem.parked, o.acc.prio < 3 → o ∈ b.mem.parked) ∧
      ((s.arrive dt).sup.railsUp = true → (s.arrive dt).pw.st ≠ .shutdown → Deferred.enterParking ∈ b.later) ∧
      ((s.arrive dt).pw.st = .shutdown → b.later = (s.arrive dt).later) := by
  refine ⟨_, exec_resetDrainEnd ha hb hd hc ht, ?_⟩
  unfold State.drainEnd
  rw [State.resetPark_eq]
  refine ⟨rfl, fun o ho => ?_, fun o ho hp => ?_, fun hup hst => ?_, fun hst => ?_⟩
  · exact of_decide_eq_true (List.mem_filter.1 ho).2
  · exact List.mem_filter.2 ⟨ho, decide_eq_true hp⟩
  · simp [hup, hst]
  · simp [hst]

/-! ### PARKING (R72, step 3) -/

theorem State.resetRing_aloof (s : State) (n : RingNo) : (s.resetRing n).aloof = s.aloof := by
  unfold State.resetRing
  dsimp only
  split
  · split
    · split
      · simp
      · rw [State.onRing_aloof _ _ _ rfl]
        simp
    · simp
  · simp

/-- The updates that a function-wide reset stops; without one, the rings go on. -/
def State.resetRings (s : State) : State := if s.pw.busy then (List.finRange 4).foldl State.resetRing s else s

theorem State.resetRings_aloof (s : State) : s.resetRings.aloof = s.aloof := by
  unfold State.resetRings
  split
  · exact State.foldl_aloof State.resetRing_aloof _ s
  · rfl

/-- What PARKING makes of the rails: those that switch begin the controlled discharge, a discharge goes on (R294, R72). -/
def State.parkRails (s : State) : State :=
  match s.sup.phase with
  | .ramp _ _ => (s.goTo .parking).startDischarge
  | .up => (s.goTo .parking).startDischarge
  | .discharge _ _ _ => s.goTo .parking
  | .bleed => s.goTo .parking
  | .fast => if s.pw.busy then s.goTo .parking else s
  | _ => s

theorem State.enterParking_due {s : State} (h : s.parkingDue = true) : s.enterParking = s.resetRings.parkRails := by
  unfold State.enterParking
  rw [h, Bool.not_true, if_neg Bool.false_ne_true] <;> rfl

theorem State.parkRails_ramps {s : State} (h : s.sup.ramps = true) : s.parkRails = (s.goTo .parking).startDischarge := by
  unfold Supply.ramps at h
  unfold State.parkRails
  split at h
  next hp => rw [hp]
  next hp => rw [hp]
  next => cases h

/-- In a function-wide reset a discharge of whatever kind goes on. -/
theorem State.parkRails_discharging {s : State} (hb : s.pw.busy = true) (hbegun : s.sup.rampBegun = true) (h : s.sup.ramps = false) :
    s.parkRails = s.goTo .parking := by
  obtain ⟨-, hphase⟩ := Bool.and_eq_true_iff.1 hbegun
  unfold Supply.ramps at h
  unfold State.parkRails
  generalize s.sup.phase = p at *
  cases p with
  | off => cases hphase
  | sequencing k => cases hphase
  | ramp _ _ => cases h
  | up => cases h
  | discharge _ _ _ => rfl
  | bleed => rfl
  | fast => rw [hb, if_pos rfl]

theorem busy_of_aloof {s t : State} (h : t.aloof = s.aloof) : t.pw.busy = s.pw.busy := (congrArg (fun x : State => x.pw.busy) h :)

theorem drain_of_aloof {s t : State} (h : t.aloof = s.aloof) : t.pw.drain = s.pw.drain := (congrArg (fun x : State => x.pw.drain) h :)

theorem enterParking_parks (s : State) (hb : s.pw.busy = true) (hst : s.pw.st ≠ .shutdown) (hd : s.pw.st ≠ .dormant)
    (hbegun : s.sup.rampBegun = true) :
    (s.runDeferred .enterParking).pw.st = .parking ∧
      (s.sup.ramps = true → (s.runDeferred .enterParking).sup.phase = .discharge s.now s.sup.dac.natAbs 0) ∧
      (s.sup.ramps = false → (s.runDeferred .enterParking).sup.phase = s.sup.phase) := by
  have hdue : s.parkingDue = true := by
    unfold State.parkingDue
    rw [hb, decide_eq_true hst, decide_eq_true hd]
    rfl
  have hsup := sup_of_aloof s.resetRings_aloof
  have hnow := now_of_aloof s.resetRings_aloof
  have hrun : s.runDeferred .enterParking = s.resetRings.parkRails := State.enterParking_due hdue
  rw [hrun]
  cases h : s.sup.ramps with
  | true =>
    rw [State.parkRails_ramps (by rw [hsup, h])]
    refine ⟨rfl, fun _ => ?_, nofun⟩
    show RailPhase.discharge s.resetRings.now s.resetRings.sup.dac.natAbs 0 = _
    rw [hnow, hsup]
  | false =>
    rw [State.parkRails_discharging ((busy_of_aloof s.resetRings_aloof).trans hb) (by rw [hsup, hbegun]) (by rw [hsup, h])]
    exact ⟨rfl, nofun, fun _ => congrArg Supply.phase hsup⟩

/-! ### The end (R72, step 4) -/

/-- The reset is over. -/
def State.resetOver (s : State) : State := s.onPw fun p => { p with busy := false, drain := none, shut := false }

/-- With the rails off the reset ends in RECOVERY or IDLE; where a replay is in progress, in its RECOVERY. -/
def State.resetEnds (s : State) : State := if s.jnl.replay.isSome then s else s.resume

theorem exec_resetBusyEnd (s : State) (dt : Nat) :
    exec (.resetBusyEnd dt) s = event dt (fun s => match s.pw.drain with
      | some d =>
        if !(s.answering && s.pw.busy) || decide (s.pw.st = .shutdown) then s
        else if s.pw.shut then (s.waitUntil (d + 16)).resetOver
        else if !s.sup.railsUp && !s.later.contains .enterParking then (s.waitUntil (max d s.pw.off0 + 16)).resetOver.resetEnds
        else s
      | none => s) s := rfl

theorem resetBusyEnd_rests (s y : State) (dt d : Nat) (hy : y = (s.arrive dt).waitUntil (max d (s.arrive dt).pw.off0 + 16))
    (ha : (s.arrive dt).answering = true) (hb : (s.arrive dt).pw.busy = true) (hd : (s.arrive dt).pw.drain = some d)
    (hs : (s.arrive dt).pw.shut = false) (hup : (s.arrive dt).sup.railsUp = false) (hl : Deferred.enterParking ∉ (s.arrive dt).later)
    (hst : (s.arrive dt).pw.st ≠ .shutdown) (hr : y.jnl.replay = none) :
    ∃ b : State, exec (.resetBusyEnd dt) s = .next b.settle ∧ b.pw.busy = false ∧ b.pw.drain = none ∧ d + 16 ≤ b.now ∧
      (s.arrive dt).pw.off0 + 16 ≤ b.now ∧ b.pw.st = (if y.pw.jopen then .recovery else .idle) := by
  have hnow : max d (s.arrive dt).pw.off0 + 16 ≤ y.now := hy ▸ State.waitUntil_reaches _ _ (State.answering_ticking ha)
  have hends : y.resetOver.resetEnds = y.resetOver.resume := if_neg (by
    have hr' : y.resetOver.jnl.replay = none := hr
    rw [hr']
    decide)
  have haloof := y.resetOver.resume_aloof
  have hnow' := now_of_aloof haloof
  have hlater : (s.arrive dt).later.contains .enterParking = false := by simpa using hl
  refine ⟨y.resetOver.resume, ?_, busy_of_aloof haloof, drain_of_aloof haloof, ?_, ?_, y.resetOver.resume_st⟩
  · rw [exec_resetBusyEnd, ← hends, hy]
    refine event_body ?_
    rw [hd]
    dsimp only
    rw [ha, hb, decide_eq_false hst, hs, hup, hlater]
    rfl
  · rw [hnow']
    exact (by omega : d + 16 ≤ max d (s.arrive dt).pw.off0 + 16).trans hnow
  · rw [hnow']
    exact (by omega : (s.arrive dt).pw.off0 + 16 ≤ max d (s.arrive dt).pw.off0 + 16).trans hnow

theorem resetBusyEnd_shut (s y : State) (dt d : Nat) (hy : y = (s.arrive dt).waitUntil (d + 16)) (ha : (s.arrive dt).answering = true)
    (hb : (s.arrive dt).pw.busy = true) (hd : (s.arrive dt).pw.drain = some d) (hs : (s.arrive dt).pw.shut = true)
    (hst : (s.arrive dt).pw.st ≠ .shutdown) :
    ∃ b : State, exec (.resetBusyEnd dt) s = .next b.settle ∧ b.pw.busy = false ∧ b.pw.drain = none ∧ d + 16 ≤ b.now ∧ b.pw.st = y.pw.st := by
  have hnow : d + 16 ≤ y.now := hy ▸ State.waitUntil_reaches _ _ (State.answering_ticking ha)
  refine ⟨y.resetOver, ?_, rfl, rfl, hnow, rfl⟩
  rw [exec_resetBusyEnd, hy]
  refine event_body ?_
  rw [hd]
  dsimp only
  rw [ha, hb, decide_eq_false hst, hs]
  rfl

/-- The exit from SHUTDOWN ends a reset whose drain is 16 hc past. -/
theorem shutdownExit_busy (s w : State) (dt d : Nat) (ha : (s.arrive dt).answering = true) (hst : (s.arrive dt).pw.st = .shutdown)
    (hsd : (s.arrive dt).pw.sd = false) (hw : w = (s.arrive dt).waitUntil ((s.arrive dt).pw.sdClear + 64)) (hb : w.pw.busy = true)
    (hd : w.pw.drain = some d) :
    ∃ b : State, exec (.shutdownExit dt) s = .next b.settle ∧ b.pw.busy = !decide (d + 16 ≤ w.now) := by
  have haloof : w.exitBusy.abandonAll.resume.aloof = w.exitBusy.aloof := by rw [State.resume_aloof, State.abandonAll_aloof]
  refine ⟨_, exec_shutdownExit ha hst hsd hw, ?_⟩
  rw [busy_of_aloof haloof]
  unfold State.exitBusy
  rw [hb, hd]
  by_cases h : d + 16 ≤ w.now
  · simp [h]
  · simp [h, hb]

/-- Settles O32: the drain, PARKING by `State.parkRails`, and the ends of the reset with what the turn to RECOVERY or IDLE leaves alone. -/
theorem functionResetSteps : Obligations.FunctionResetSteps := by
  unfold Obligations.FunctionResetSteps
  exact ⟨⟨resetDrainEnd_ends, enterParking_parks⟩, resetBusyEnd_rests, resetBusyEnd_shut, shutdownExit_busy⟩

end Sys2Proof.Machine

/-! SUPPORT. What a committed slot sets going: doorbells, the journal's check, the clears, the disable of a ring, the registers of a
disabled ring (R78 to R80, R132, R133, R203, R225). The proof of O23. -/

namespace Sys2Proof.Machine

open Sys2Proof.Safety

/-! ### Doorbells (R203) -/

theorem writeReg_ringDoor (s : State) (n : RingNo) (v : Word) (h : bitOf v 0 = true) :
    (s.rings[n].enabled = true →
      (s.writeReg (.ringDoor n) v).rings[n].bell = true ∧ bitOf (s.writeReg (.ringDoor n) v).scNext (4 + n.val) = true) ∧
      (s.rings[n].enabled = false → s.writeReg (.ringDoor n) v = s) := by
  constructor
  · intro he
    have hwrite : s.writeReg (.ringDoor n) v = (s.onRing n fun r => { r with bell := true }).scReads (bitMask (scDoor n)) :=
      if_pos (by rw [h, he]; rfl)
    rw [hwrite]
    refine ⟨by simp [State.scReads], ?_⟩
    show bitOf (s.scNext ||| bitMask (4 + n.val)) (4 + n.val) = true
    rw [bitOf_or, bitOf_bitMask (by omega), Bool.or_true]
  · intro he
    exact if_neg (by rw [he, Bool.and_false]; decide)

/-! ### The journal's check (R78 to R80, R334) -/

/-- JNL_CTL with its new value, before its check. -/
def State.jnlCtlWritten (s : State) (v : Word) : State :=
  (if (s.jnl.ctl ^^^ v) &&& 0x7C ≠ 0 ∧ (s.pw.jopen || !s.jnl.slots.isEmpty) = true then s.err .journalGeometry else s).onJnl fun j =>
    { j with ctl := v &&& 0x7D }

theorem State.writeJnlCtl_eq (s : State) (v : Word) :
    s.writeJnlCtl v = if bitOf v 1 then (s.jnlCtlWritten v).journalCheck else s.jnlCtlWritten v := rfl

theorem State.jnlCtlWritten_fields (s : State) (v : Word) :
    (s.jnlCtlWritten v).jnl = { s.jnl with ctl := v &&& 0x7D } ∧ (s.jnlCtlWritten v).later = s.later ∧ (s.jnlCtlWritten v).pw = s.pw := by
  unfold State.jnlCtlWritten
  split <;> exact ⟨rfl, rfl, rfl⟩

/-- While a check or a replay is in progress, or slots are open behind an open gate, a check does nothing. -/
theorem State.journalCheck_idle {s : State} (h : s.checking = true ∨ (s.pw.jopen = true ∧ s.jnl.gate = true)) : s.journalCheck = s := by
  unfold State.journalCheck
  obtain h | ⟨hopen, hgate⟩ := h
  · rw [h]
    rfl
  · rw [hopen, hgate, Bool.and_self, Bool.or_true]
    rfl

/-- The scan begins with the region's first 512 bytes (R334). -/
theorem State.journalCheck_scans {s : State} (hno : s.checking = false) (hgate : (s.pw.jopen && s.jnl.gate) = false)
    (hen : bitOf s.jnl.ctl 0 = true) :
    s.journalCheck.jnl =
      { s.jnl with
        scan := some ⟨s.jnl.gate, []⟩
        queue := s.jnl.queue ++ [jnlAccess .scan 0 0 (fld s.jnl.base 0 32) 512 0 false []] } := by
  have hsize : 4096 ≤ regionBytes s.jnl.size := by
    unfold regionBytes clampN
    omega
  unfold State.journalCheck
  rw [hno, hgate, hen, Bool.or_self, if_neg Bool.false_ne_true, if_pos rfl]
  generalize hx : (if s.regionOk then s else s.err .journalRegion) = x
  have hjnl : x.jnl = s.jnl := by
    rw [← hx]
    split <;> rfl
  show ((x.onJnl fun j => { j with scan := some ⟨j.gate, []⟩ }).askScan).jnl = _
  have hlen : ([] : List Byte).length = 0 := rfl
  have hmin : min 512 (regionBytes s.jnl.size - 0) = 512 := by omega
  have hpos : 0 < regionBytes s.jnl.size := by omega
  simp only [State.askScan, State.onJnl, State.enqueue, hjnl, hlen, hmin, if_pos hpos, Nat.add_zero]

/-- With journaling disabled and the gate closed the check puts the gate's opening, and the end of what is held as open, on the next edge. -/
theorem State.journalCheck_opens {s : State} (hno : s.checking = false) (hen : bitOf s.jnl.ctl 0 = false) (hgate : s.jnl.gate = false) :
    s.journalCheck.jnl.scanFail = false ∧ s.journalCheck.later = s.later ++ [.openGate, .forgetSlots] := by
  have hcheck : s.journalCheck =
      (((s.onJnl fun j => { j with scanFail := false }).defer .openGate).defer .forgetSlots).scReads (bitMask 10) := by
    unfold State.journalCheck
    rw [hno, hen, hgate, Bool.and_false, Bool.or_self, if_neg Bool.false_ne_true, if_neg Bool.false_ne_true, if_neg Bool.false_ne_true]
  rw [hcheck]
  exact ⟨rfl, List.append_assoc _ _ _⟩

/-- The enable bit of JNL_CTL's new value. -/
theorem bitOf_jnlCtl (v : Word) : bitOf (v &&& 0x7D) 0 = bitOf v 0 := by
  simp [bitOf]

theorem writeReg_jnlCtl_checks (s t : State) (v : Word) (ht : t = s.writeReg .jnlCtl v) (h1 : bitOf v 1 = true) (hscan : s.jnl.scan = none)
    (hreplay : s.jnl.replay = none) (hshut : s.pw.jopen = false ∨ s.jnl.gate = false) :
    (bitOf v 0 = true → t.jnl.scan = some ⟨s.jnl.gate, []⟩ ∧
      ∃ a, t.jnl.queue = s.jnl.queue ++ [a] ∧ a.asker = .scan ∧ a.addr = fld s.jnl.base 0 32 ∧ a.len = 512 ∧ a.write = false ∧ a.prio = 1) ∧
      (bitOf v 0 = false → s.jnl.gate = false → t.jnl.scanFail = false ∧ t.later = s.later ++ [.openGate, .forgetSlots]) := by
  obtain ⟨hjnl, hlater, hpw⟩ := s.jnlCtlWritten_fields v
  have hwrite : t = (s.jnlCtlWritten v).journalCheck := by
    rw [ht]
    exact (s.writeJnlCtl_eq v).trans (if_pos h1)
  have hno : (s.jnlCtlWritten v).checking = false := by
    rw [State.checking, hjnl, hscan, hreplay]
    rfl
  have hctl : bitOf (s.jnlCtlWritten v).jnl.ctl 0 = bitOf v 0 := by
    rw [hjnl]
    exact bitOf_jnlCtl v
  constructor
  · intro h0
    have hshut' : ((s.jnlCtlWritten v).pw.jopen && (s.jnlCtlWritten v).jnl.gate) = false := by
      rw [hpw, hjnl]
      obtain h | h := hshut
      · rw [h]
        rfl
      · exact (congrArg (s.pw.jopen && ·) h).trans (Bool.and_false _)
    rw [hwrite, State.journalCheck_scans hno hshut' (hctl.trans h0), hjnl]
    exact ⟨rfl, _, rfl, rfl, rfl, rfl, rfl, rfl⟩
  · intro h0 hgate
    have hgate' : (s.jnlCtlWritten v).jnl.gate = false := by
      rw [hjnl]
      exact hgate
    obtain ⟨hfail, hl⟩ := State.journalCheck_opens hno (hctl.trans h0) hgate'
    rw [hwrite, hl, hlater]
    exact ⟨hfail, rfl⟩

theorem writeReg_jnlCtl_ignored (s t : State) (v : Word) (ht : t = s.writeReg .jnlCtl v)
    (h : s.jnl.scan.isSome = true ∨ s.jnl.replay.isSome = true ∨ (s.pw.jopen = true ∧ s.jnl.gate = true)) :
    t.jnl = { s.jnl with ctl := v &&& 0x7D } ∧ t.later = s.later := by
  obtain ⟨hjnl, hlater, hpw⟩ := s.jnlCtlWritten_fields v
  have hwrite : t = s.jnlCtlWritten v := by
    rw [ht]
    refine (s.writeJnlCtl_eq v).trans ?_
    split
    · refine State.journalCheck_idle ?_
      rw [State.checking, hjnl, hpw]
      obtain h | h | h := h
      · exact .inl (by simp [h])
      · exact .inl (by simp [h])
      · exact .inr h
    · rfl
  rw [hwrite]
  exact ⟨hjnl, hlater⟩

/-- An abandonment leaves the journal. -/
theorem State.abandonCut_jnl (s : State) (p : Cut → Bool) : (s.abandonCut p).jnl = s.jnl := by
  refine List.foldlRecOn (motive := fun t : State => t.jnl = s.jnl) _ _ rfl fun t ht n _ => Eq.trans ?_ ht
  unfold State.abandonRing
  split
  · split
    · split
      · rfl
      · obtain ⟨e, l, o, k, hlog⟩ := (t.setStatus (bitMask 2)).log_eq _ _ _ _
        rw [hlog]
        rfl
    · rfl
  · rfl

/-- The updates whose slots are no longer held go; the journal and the flag stay. -/
theorem State.forgetUpdates_fields (s : State) : s.forgetUpdates.jnl = s.jnl ∧ s.forgetUpdates.pw.jopen = s.pw.jopen := by
  unfold State.forgetUpdates
  dsimp only
  generalize hx : List.foldl _ s _ = x
  have hfold : x.jnl = s.jnl ∧ x.pw = s.pw := by
    rw [← hx]
    exact List.foldlRecOn (motive := fun t : State => t.jnl = s.jnl ∧ t.pw = s.pw) _ _ ⟨rfl, rfl⟩ fun t ht n _ => ht
  obtain ⟨hjnl, hpw⟩ := hfold
  exact ⟨(x.abandonCut_jnl _).trans hjnl, (jopen_of_aloof x.abandonAll_aloof).trans (congrArg Power.jopen hpw)⟩

theorem openGate_forgetSlots (s : State) :
    (s.runDeferred .openGate).jnl.gate = true ∧ (s.runDeferred .forgetSlots).jnl.slots = [] ∧
      (s.runDeferred .forgetSlots).pw.jopen = false := by
  obtain ⟨hjnl, hjopen⟩ := ((s.onJnl fun j => { j with slots := [] }).onPw fun p => { p with jopen := false }).forgetUpdates_fields
  exact ⟨rfl, (congrArg Journal.slots hjnl :), hjopen⟩

/-! ### The clears (R137, R147) -/

theorem writeReg_clears (s : State) (v : Word) (h : bitOf v 0 = true) :
    Deferred.clearDcb ∈ (s.writeReg .dcbClr v).later ∧ Deferred.clearLog ∈ (s.writeReg .logClr v).later ∧
      (s.writeReg .dcbClr v).drv = s.drv ∧ (s.writeReg .logClr v).log = s.log := by
  have hdcb : s.writeReg .dcbClr v = (s.defer .clearDcb).scReads (bitMask 8) := if_pos h
  have hlog : s.writeReg .logClr v = (s.defer .clearLog).scReads (bitMask 9) := if_pos h
  rw [hdcb, hlog]
  exact ⟨List.mem_append_right _ (List.mem_singleton_self _), List.mem_append_right _ (List.mem_singleton_self _), rfl, rfl⟩

theorem runDeferred_clears (s : State) (n : Nat) :
    (s.runDeferred .clearDcb).drv.dcb.getD n 0 = 0 ∧ (s.runDeferred .clearLog).log = [] ∧ (s.runDeferred .clearLog).overflow = 0 := by
  refine ⟨?_, rfl, rfl⟩
  show (List.replicate 288 (0 : BitVec 16)).getD n 0 = 0
  rw [List.getD_eq_getElem?_getD, List.getElem?_replicate]
  split <;> rfl

/-! ### The disable of a ring (R225) -/

/-- An open read of ring n that meets p is to be discarded. -/
def Dropped (n : RingNo) (p : Asker → Bool) (s : State) : Prop :=
  ∀ o, s.mem.cur = some o → o.acc.ring = n → p o.acc.asker = true → o.drop = true

theorem Dropped.of_mem {n : RingNo} {p : Asker → Bool} {s t : State} (h : Dropped n p s) (hm : t.mem = s.mem) : Dropped n p t := by
  rw [Dropped, hm]
  exact h

theorem State.dropReads_dropped (s : State) (n : RingNo) (p : Asker → Bool) : Dropped n p (s.dropReads n p) := by
  intro o ho hn hp
  obtain ⟨o', -, rfl⟩ := Option.map_eq_some_iff.1 (show s.mem.cur.map _ = some o from ho)
  by_cases h : (decide (o'.acc.ring = n) && p o'.acc.asker) = true
  · rw [if_pos h]
  · rw [if_neg h] at hn hp
    exact absurd (by rw [decide_eq_true hn, hp]; rfl) h

/-- What is to be discarded stays so when further reads are dropped. -/
theorem Dropped.dropReads {n : RingNo} {p : Asker → Bool} {s : State} (h : Dropped n p s) (m : RingNo) (q : Asker → Bool) :
    Dropped n p (s.dropReads m q) := by
  intro o ho hn hp
  obtain ⟨o', ho', rfl⟩ := Option.map_eq_some_iff.1 (show s.mem.cur.map _ = some o from ho)
  by_cases hc : (decide (o'.acc.ring = m) && q o'.acc.asker) = true
  · rw [if_pos hc]
  · rw [if_neg hc] at hn hp ⊢
    exact h o' ho' hn hp

theorem State.requestMark_mem (s : State) (q : Nat) (a : Asker) : (s.requestMark q a).mem = s.mem := by
  unfold State.requestMark
  split
  · rfl
  · split
    · split <;> rfl
    · rfl

theorem State.tombstone_mem (s : State) (q : Nat) : (s.tombstone q).mem = s.mem := by
  unfold State.tombstone
  dsimp only
  split
  · rfl
  · exact State.requestMark_mem _ _ _

theorem Dropped.discardUpdate {n : RingNo} {p : Asker → Bool} {s : State} (h : Dropped n p s) (m : RingNo) :
    Dropped n p (s.discardUpdate m) := by
  unfold State.discardUpdate
  split
  · have hdrop : Dropped n p ((s.onRing m fun r => { r with work := none, hole := true }).dropReads m Asker.isUpdateRead) :=
      Dropped.dropReads (h.of_mem rfl) m _
    dsimp only
    split
    · exact hdrop.of_mem (State.tombstone_mem _ _)
    · exact hdrop
  · exact h

/-- A discarded update leaves the ring without work. -/
theorem State.discardUpdate_work {s : State} {n : RingNo} {i : BitVec 16} {u : Update} (h : s.rings[n].update? = some (i, u)) :
    (s.discardUpdate n).rings[n].work = none := by
  have hwork : s.rings[n].work = some (i, .update u) := by
    unfold Ring.update? at h
    split at h
    next i' u' hw =>
      cases h
      exact hw
    next => cases h
  unfold State.discardUpdate
  rw [hwork]
  dsimp only
  have hrings (t : State) : (t.dropReads n Asker.isUpdateRead).rings = t.rings := rfl
  split
  · rw [State.tombstone_rings, hrings]
    simp
  · rw [hrings]
    simp

/-- A ring that has stopped, before its update is looked at. -/
def State.ringStopped (s : State) (n : RingNo) : State :=
  (s.onRing n fun r =>
    { r with bell := false, fetching := .none, fetched := [], probe := false, timer := none, barrier := none, syncNext := false }).dropReads n Asker.isFetch

theorem State.ringStopped_update (s : State) (n : RingNo) : (s.ringStopped n).rings[n].update? = s.rings[n].update? := by
  have hrings : (s.ringStopped n).rings = (s.onRing n fun r =>
    { r with bell := false, fetching := .none, fetched := [], probe := false, timer := none, barrier := none, syncNext := false }).rings := rfl
  rw [hrings]
  simp [Ring.update?]

theorem State.stopRing_eq (s : State) (n : RingNo) :
    s.stopRing n = match (s.ringStopped n).rings[n].update? with
      | some (_, u) =>
        if u.stage.unstarted then (s.ringStopped n).discardUpdate n else (s.ringStopped n).onUpdate n fun u => { u with gated := false }
      | none => s.ringStopped n := rfl

theorem State.stopRing_dropped (s : State) (n : RingNo) : Dropped n Asker.isFetch (s.stopRing n) := by
  have hdrop : Dropped n Asker.isFetch (s.ringStopped n) := State.dropReads_dropped _ n _
  rw [State.stopRing_eq]
  split
  · split
    · exact hdrop.discardUpdate n
    · exact hdrop.of_mem rfl
  · exact hdrop

/-- Its update is discarded before frame 1, and goes on after it. -/
theorem State.stopRing_update {s : State} {n : RingNo} {i : BitVec 16} {u : Update} (h : s.rings[n].update? = some (i, u)) :
    (u.stage.unstarted = true → (s.stopRing n).rings[n].work = none) ∧
      (u.stage.unstarted = false → (s.stopRing n).rings[n].update? = some (i, { u with gated := false })) := by
  have hupdate := (s.ringStopped_update n).trans h
  constructor
  · intro hu
    have hstop : s.stopRing n = (s.ringStopped n).discardUpdate n := by
      rw [State.stopRing_eq, hupdate]
      exact if_pos hu
    rw [hstop]
    exact State.discardUpdate_work hupdate
  · intro hu
    have hstop : s.stopRing n = (s.ringStopped n).onUpdate n fun u => { u with gated := false } := by
      rw [State.stopRing_eq, hupdate]
      exact if_neg (by rw [hu]; decide)
    rw [hstop, State.onUpdate_update, if_pos rfl, hupdate]
    rfl

theorem writeReg_ringCtl_disables (s t : State) (n : RingNo) (v : Word) (ht : t = s.writeReg (.ringCtl n) v)
    (hen : s.rings[n].enabled = true) (h0 : bitOf v 0 = false) (hhard : s.rings[n].hard = false)
    (hedge : s.edge.enableCleared.getLsbD n.val = false) :
    t.rings[n].enabled = false ∧ t.rings[n].fetched = [] ∧ t.rings[n].bell = false ∧ t.rings[n].barrier = none ∧
      t.rings[n].probe = false ∧ (∀ o, t.mem.cur = some o → o.acc.ring = n → o.acc.asker.isFetch = true → o.drop = true) ∧
      (∀ i u, s.rings[n].update? = some (i, u) →
        (u.stage.unstarted = true → t.rings[n].work = none) ∧
        (u.stage.unstarted = false → t.rings[n].update? = some (i, { u with gated := false }))) := by
  have hwrite : t = (s.onRing n fun r => { r with ctl := r.ctl &&& ~~~(1#36) }).stopRing n := by
    rw [ht]
    exact (s.writeRingCtl_enabled hen v).trans (if_neg (by rw [h0, hhard, hedge]; decide))
  have hclear : (s.writeRingCtl n v).rings[n].enabled = false := by
    rw [(s.writeRingCtl_enabled_fields hen v).2.1, h0, hhard, hedge]
    rfl
  have hupdate : (s.onRing n fun r => { r with ctl := r.ctl &&& ~~~(1#36) }).rings[n].update? = s.rings[n].update? := by
    simp [Ring.update?]
  obtain ⟨w, b, hrings⟩ := (s.onRing n fun r => { r with ctl := r.ctl &&& ~~~(1#36) }).stopRing_rings n
  rw [← hwrite] at hrings
  refine ⟨by rw [ht]; exact hclear, ?_, ?_, ?_, ?_, by rw [hwrite]; exact State.stopRing_dropped _ n, fun i u hu => ?_⟩
  · simp [hrings]
  · simp [hrings]
  · simp [hrings]
  · simp [hrings]
  · rw [hwrite]
    exact State.stopRing_update (hupdate.trans hu)

/-! ### The registers of a disabled ring (R132, R133) -/

theorem writeReg_disabled_ring (s : State) (n : RingNo) (v : Word) (hoff : s.rings[n].enabled = false) :
    (s.writeReg (.ringBase n) v).rings[n].base = v &&& 0xFFFFFFFF ∧ (s.writeReg (.ringTail n) v).rings[n].tailAddr = v &&& 0xFFFFFFFF ∧
      (s.writeReg (.ringHeadAddr n) v).rings[n].headAddr = v &&& 0xFFFFFFFF ∧
      (s.rings[n].work = none → s.edge.headTaken.getLsbD n.val = false → (s.writeReg (.ringHead n) v).rings[n].head = v.extractLsb' 0 16) ∧
      (bitOf v 0 = false → s.edge.enableCleared.getLsbD n.val = false → (s.writeReg (.ringCtl n) v).rings[n].ctl = v &&& 0xF7 ∧
        (s.writeReg (.ringCtl n) v).rings[n].fetch = s.rings[n].fetch) := by
  have hno : ¬ s.rings[n].enabled = true := by rw [hoff]; decide
  have hbase : s.writeReg (.ringBase n) v = s.onRing n fun r => { r with base := v &&& 0xFFFFFFFF } := if_neg hno
  have htail : s.writeReg (.ringTail n) v = s.onRing n fun r => { r with tailAddr := v &&& 0xFFFFFFFF } := if_neg hno
  have hheadAddr : s.writeReg (.ringHeadAddr n) v = s.onRing n fun r => { r with headAddr := v &&& 0xFFFFFFFF } := if_neg hno
  refine ⟨by simp [hbase], by simp [htail], by simp [hheadAddr], fun hwork htaken => ?_, fun h0 hedge => ?_⟩
  · have hhead : s.writeReg (.ringHead n) v = s.onRing n fun r => r.setHead (BitVec.ofNat 16 (fld v 0 16)) (s.headOpen n) :=
      if_neg (by rw [hoff, hwork, htaken]; decide)
    rw [hhead]
    simp [Ring.setHead, ofNat_fld_low]
  · have hctl : ∃ t : State, t.rings = s.rings ∧ s.writeReg (.ringCtl n) v = t.onRing n fun r => { r with ctl := v &&& 0xF7 } := by
      refine ⟨if ringExp v < 2 ∨ 12 < ringExp v then s.err .ringSize else s, by split <;> rfl, ?_⟩
      show s.writeRingCtl n v = _
      unfold State.writeRingCtl
      simp only [hedge, hoff, h0, Bool.false_and, Bool.false_eq_true, if_false]
    obtain ⟨t, hrings, hwrite⟩ := hctl
    rw [hwrite]
    simp [hrings]

/-- Settles O23: each write by its case of the model; a disable by `State.stopRing_update` and `State.stopRing_dropped`. -/
theorem slotActions : Obligations.SlotActions := by
  unfold Obligations.SlotActions
  exact ⟨writeReg_ringDoor, ⟨writeReg_jnlCtl_checks, writeReg_jnlCtl_ignored, openGate_forgetSlots⟩, ⟨writeReg_clears, runDeferred_clears⟩,
    writeReg_ringCtl_disables, writeReg_disabled_ring⟩

end Sys2Proof.Machine

/-! SUPPORT. Poll timers and head writes (R209, R221, R248, R356). The proof of O37. -/

namespace Sys2Proof.Machine

open Sys2Proof.Safety

theorem pollTimerExpiry_probes (s w : State) (dt k : Nat) (n : RingNo) (ha : (s.arrive dt).answering = true)
    (hk : (s.arrive dt).rings[n].timer = some k)
    (hw : w = (s.arrive dt).waitUntil (k + pollInterval (s.arrive dt).rings[n].poll)) (hkw : w.rings[n].timer = some k) :
    ∃ b : State, exec (.pollTimerExpiry dt n) s = .next b.settle ∧ b.rings[n].probe = true ∧ b.rings[n].timer = none ∧
      k + pollInterval (s.arrive dt).rings[n].poll ≤ b.now := by
  refine ⟨w.onRing n fun r => { r with timer := none, probe := true }, ?_, by simp, by simp, ?_⟩
  · show execPollTimerExpiry dt n s = _
    unfold execPollTimerExpiry
    refine event_body ?_
    rw [hk]
    dsimp only
    rw [if_pos ha, ← hw, if_pos hkw]
  · rw [State.onRing_now, hw]
    exact State.waitUntil_reaches _ _ (State.answering_ticking ha)

/-- A ring after its change. -/
theorem State.onRing_same (s : State) (n : RingNo) (f : Ring → Ring) : (s.onRing n f).rings[n] = f s.rings[n] := by
  rw [State.onRing_rings]
  exact Vector.getElem_set_self _

/-- A head that the value v passes lies less than 2^15 behind it. -/
def passedBy (v i : BitVec 16) : Bool := decide ((v - 1 - i).toNat < 2 ^ 15)

/-- What a complete head write makes of its ring. -/
def Ring.published (r : Ring) (v : BitVec 16) : Ring :=
  { r with
    head := v
    headDue := r.headDue || decide (r.comp ≠ v)
    marks := r.marks.filter fun i => !passedBy v i
    parkHead := r.parkHead.bind fun i => if passedBy v i then none else some i }

/-- A complete head write, ring and cause (R221, R248, R356). -/
theorem State.headDone_fields (s : State) (n : RingNo) (v : BitVec 16) :
    (s.headDone n v).rings[n] = s.rings[n].published v ∧
      (s.headDone n v).cause = if s.rings[n].marks.any (passedBy v) then s.cause ||| bitMask (16 + n.val) else s.cause := by
  unfold State.headDone
  dsimp only
  split
  next h =>
    have hany : s.rings[n].marks.any (passedBy v) = true := h
    rw [hany, if_pos rfl]
    exact ⟨State.onRing_same (s.setCause _) n fun r => r.published v, rfl⟩
  next h =>
    have hany : ¬ s.rings[n].marks.any (passedBy v) = true := h
    rw [if_neg hany]
    exact ⟨State.onRing_same s n fun r => r.published v, rfl⟩

theorem headDone_publishes (s : State) (n : RingNo) (v : BitVec 16) :
    (s.headDone n v).rings[n].head = v ∧
      ((s.headDone n v).rings[n].headDue = (s.rings[n].headDue || decide (s.rings[n].comp ≠ v))) ∧
      (∀ i ∈ s.rings[n].marks, (v - 1 - i).toNat < 2 ^ 15 →
        bitOf (s.headDone n v).cause (16 + n.val) = true ∧ i ∉ (s.headDone n v).rings[n].marks) ∧
      (∀ i ∈ s.rings[n].marks, 2 ^ 15 ≤ (v - 1 - i).toNat → i ∈ (s.headDone n v).rings[n].marks) ∧
      (s.rings[n].marks = [] → (s.headDone n v).cause = s.cause) ∧
      (∀ i, s.rings[n].parkHead = some i →
        (s.headDone n v).rings[n].parkHead = (if (v - 1 - i).toNat < 2 ^ 15 then none else some i)) := by
  obtain ⟨hring, hcause⟩ := s.headDone_fields n v
  rw [hring, hcause]
  refine ⟨rfl, rfl, fun i hi hlt => ⟨?_, fun hmem => ?_⟩, fun i hi hle => ?_, fun h => ?_, fun i hi => ?_⟩
  · have hpass : passedBy v i = true := decide_eq_true hlt
    rw [if_pos (List.any_eq_true.2 ⟨i, hi, hpass⟩), bitOf_or, bitOf_bitMask (by omega), Bool.or_true]
  · have hpass : passedBy v i = true := decide_eq_true hlt
    have hkept := (List.mem_filter.1 hmem).2
    rw [hpass] at hkept
    cases hkept
  · have hpass : passedBy v i = false := decide_eq_false (by omega)
    exact List.mem_filter.2 ⟨hi, by rw [hpass]; rfl⟩
  · rw [h]
    rfl
  · show s.rings[n].parkHead.bind (fun i => if passedBy v i then none else some i) = _
    rw [hi, Option.bind_some, passedBy]
    simp only [decide_eq_true_eq]

/-- Settles O37. -/
theorem pollingAndHeads : Obligations.PollingAndHeads := by
  unfold Obligations.PollingAndHeads
  exact ⟨pollTimerExpiry_probes, headDone_publishes⟩

end Sys2Proof.Machine

/-! SUPPORT. The admission edge, and the entries that finish on it or begin there: NOP, MARK, TEMP, SYNC, PARK, UPDATE and CLEAR (R218, R234,
R235, R244 to R249, R262). The proofs of O38, O39, O40 and O42. -/

namespace Sys2Proof.Machine

open Sys2Proof.Safety

/-- A field as a vector of its own. -/
theorem toNat_fld (w : Word) (lo n : Nat) : (BitVec.ofNat n (fld w lo n)).toNat = fld w lo n := by
  rw [BitVec.toNat_ofNat]
  exact Nat.mod_eq_of_lt (Nat.mod_lt _ (Nat.two_pow_pos n))

/-! ### The admission edge (R218, R235) -/

/-- The ring that the edge admits has an edge left for it. -/
theorem State.chosen_edge {s : State} {n : RingNo} (h : s.chosen n = true) :
    (s.edge.noAdmit.getLsbD n.val || s.edge.admitted) = false := by
  unfold State.chosen State.admissible at h
  simp only [Bool.and_eq_true, Bool.not_eq_true'] at h
  obtain ⟨⟨⟨⟨⟨-, hno⟩, hadm⟩, -⟩, -⟩, -⟩ := h
  rw [hno, hadm]
  rfl

/-- A chosen entry of the row's opcode is taken, and its body runs; an entry in place of the update that a SYNC waits for is a host error. -/
theorem admitRow_chosen {s : State} {dt : Nat} {n : RingNo} {f : Fetched} {rest : List Fetched} {ok : Fetched → Bool}
    {body : Fetched → State → State} (ha : (s.arrive dt).answering = true) (hf : (s.arrive dt).rings[n].fetched = f :: rest)
    (hc : (s.arrive dt).chosen n = true) (hok : ok f = true) :
    admitRow dt n ok body s = .next (body f (State.takeEntry
      (if f.runsHere && (((s.arrive dt).rings[n].syncNext && !f.entry.isUpdate) || ((s.arrive dt).rings[n].barrier.isSome && f.entry.op == 5))
        then (s.arrive dt).err .syncOrder else s.arrive dt) n)).settle := by
  unfold admitRow
  refine event_body ?_
  rw [ha, State.chosen_edge hc]
  dsimp only
  rw [Bool.not_true, if_neg Bool.false_ne_true, if_neg Bool.false_ne_true, hf]
  dsimp only
  rw [hc, hok]
  rfl

/-- The usual case: nothing of a SYNC is in the way. -/
theorem admitRow_plain {s : State} {dt : Nat} {n : RingNo} {f : Fetched} {rest : List Fetched} {ok : Fetched → Bool}
    {body : Fetched → State → State} (ha : (s.arrive dt).answering = true) (hf : (s.arrive dt).rings[n].fetched = f :: rest)
    (hc : (s.arrive dt).chosen n = true) (hok : ok f = true)
    (hsync : (f.runsHere && (((s.arrive dt).rings[n].syncNext && !f.entry.isUpdate) ||
      ((s.arrive dt).rings[n].barrier.isSome && f.entry.op == 5))) = false) :
    admitRow dt n ok body s = .next (body f ((s.arrive dt).takeEntry n)).settle := by
  rw [admitRow_chosen ha hf hc hok, hsync, if_neg Bool.false_ne_true]

/-- A ring whose oldest entry is taken. -/
def Ring.taken (r : Ring) : Ring := { r with fetched := r.fetched.tail }

/-- A ring whose entry has finished (R220). -/
def Ring.finished (r : Ring) (i : BitVec 16) : Ring :=
  { r with work := none, comp := r.compAfter i, headDue := r.headDue || decide (r.compAfter i ≠ r.comp) }

theorem State.takeEntry_ring (s : State) (n : RingNo) : (s.takeEntry n).rings[n] = s.rings[n].taken := s.onRing_same n Ring.taken

theorem State.finishEntry_ring (s : State) (n : RingNo) (i : BitVec 16) : (s.finishEntry n i).rings[n] = s.rings[n].finished i :=
  s.onRing_same n fun r => r.finished i

/-! ### NOP, MARK and TEMP (R234, R244, R248, R249) -/

theorem nop_finishes (s : State) (dt : Nat) (n : RingNo) (f : Fetched) (rest : List Fetched) (ha : (s.arrive dt).answering = true)
    (hf : (s.arrive dt).rings[n].fetched = f :: rest) (hc : (s.arrive dt).chosen n = true)
    (h : f.runsHere = false ∨ (f.entry.op = 0 ∧ (s.arrive dt).rings[n].syncNext = false)) :
    exec (.nop dt n) s = .next (((s.arrive dt).takeEntry n).finishEntry n f.index).settle := by
  have hok : (!f.runsHere || f.entry.op == 0 || decide (8 ≤ f.entry.op)) = true := by
    obtain h | ⟨h, -⟩ := h <;> simp [h]
  have hlow : (f.runsHere && decide (8 ≤ f.entry.op)) = false := by
    obtain h | ⟨h, -⟩ := h <;> simp [h]
  have hsync : (f.runsHere && (((s.arrive dt).rings[n].syncNext && !f.entry.isUpdate) ||
      ((s.arrive dt).rings[n].barrier.isSome && f.entry.op == 5))) = false := by
    obtain h | ⟨h, h'⟩ := h
    · rw [h, Bool.false_and]
    · rw [h, h']
      simp
  show execNop dt n s = _
  unfold execNop
  rw [admitRow_plain ha hf hc hok hsync]
  dsimp only
  rw [hlow, if_neg Bool.false_ne_true]

/-- What a SYNC leaves in the way of an entry that is no update: nothing, where it has not gated it and the entry is no SYNC. -/
theorem ungated {f : Fetched} {r : Ring} (hs : r.syncNext = false) (h5 : f.entry.op ≠ 5) :
    (f.runsHere && ((r.syncNext && !f.entry.isUpdate) || (r.barrier.isSome && f.entry.op == 5))) = false := by
  rw [hs, beq_false_of_ne h5]
  simp

theorem mark_finishes (s : State) (dt : Nat) (n : RingNo) (f : Fetched) (rest : List Fetched) (ha : (s.arrive dt).answering = true)
    (hf : (s.arrive dt).rings[n].fetched = f :: rest) (hc : (s.arrive dt).chosen n = true) (hr : f.runsHere = true) (ho : f.entry.op = 7)
    (hs : (s.arrive dt).rings[n].syncNext = false) :
    exec (.mark dt n) s = .next ((((s.arrive dt).takeEntry n).onRing n fun r => { r with marks := r.marks ++ [f.index] }).finishEntry
      n f.index).settle := by
  show execMark dt n s = _
  unfold execMark
  rw [admitRow_plain ha hf hc (by rw [hr, ho]; rfl) (ungated hs (by rw [ho]; decide))]

/-- TEMP on its edge. -/
def State.admitTemp (s : State) (n : RingNo) (f : Fetched) : State :=
  ((s.onThm fun t => { t with arriving := BitVec.ofNat 12 (fld f.entry.w1 0 12) }).defer .tempCurrent).finishEntry n f.index

theorem temp_finishes (s : State) (dt : Nat) (n : RingNo) (f : Fetched) (rest : List Fetched) (ha : (s.arrive dt).answering = true)
    (hf : (s.arrive dt).rings[n].fetched = f :: rest) (hc : (s.arrive dt).chosen n = true) (hr : f.runsHere = true) (ho : f.entry.op = 4)
    (hs : (s.arrive dt).rings[n].syncNext = false) :
    ∃ b : State, exec (.temp dt n) s = .next b.settle ∧ b.thm.arriving.toNat = fld f.entry.w1 0 12 ∧ Deferred.tempCurrent ∈ b.later ∧
      b.thm.host = (s.arrive dt).thm.host ∧ b.rings[n].work = none ∧ b.rings[n].comp = (s.arrive dt).rings[n].compAfter f.index := by
  have hring : (((s.arrive dt).takeEntry n).admitTemp n f).rings[n] = ((s.arrive dt).takeEntry n).rings[n].finished f.index :=
    State.finishEntry_ring _ n _
  have hexec : exec (.temp dt n) s = .next (((s.arrive dt).takeEntry n).admitTemp n f).settle := by
    show execTemp dt n s = _
    unfold execTemp State.admitTemp
    rw [admitRow_plain ha hf hc (by rw [hr, ho]; rfl) (ungated hs (by rw [ho]; decide))]
  refine ⟨((s.arrive dt).takeEntry n).admitTemp n f, hexec, ?_,
    List.mem_append_right _ (List.mem_singleton_self _), rfl, ?_, ?_⟩
  · show (BitVec.ofNat 12 (fld f.entry.w1 0 12)).toNat = _
    exact toNat_fld _ _ _
  · rw [hring]
    rfl
  · rw [hring, State.takeEntry_ring]
    rfl

/-! ### RINGn_STATUS.running and the completion point (R220, R221, R235) -/

theorem ringBit_self (n : RingNo) : (ringBit n).getLsbD n.val = true := by
  fin_cases n <;> rfl

theorem finishEntry_running (b : State) (n : RingNo) (i : BitVec 16) :
    bitOf (((b.takeEntry n).finishEntry n i).readReg (.ringStatus n)) 20 = true := by
  have hran : ((b.takeEntry n).finishEntry n i).edge.ran.getLsbD n.val = true := by
    show (b.edge.ran ||| ringBit n).getLsbD n.val = true
    rw [BitVec.getLsbD_or, ringBit_self, Bool.or_true]
  show bitOf (State.ringStatus _ n) 20 = true
  unfold State.ringStatus
  dsimp only
  simp only [hran, bitOf_or, bitOf_bitIf _ _ 20 (by decide), Bool.or_true]
  simp

theorem finishEntry_completes (b : State) (n : RingNo) (i : BitVec 16) :
    (b.finishEntry n i).rings[n].work = none ∧
      (b.rings[n].hole = false → b.rings[n].comp = i →
        (b.finishEntry n i).rings[n].comp = i + 1 ∧ (b.finishEntry n i).rings[n].headDue = true) ∧
      (b.rings[n].hole = true → (b.finishEntry n i).rings[n].comp = b.rings[n].comp) := by
  rw [State.finishEntry_ring]
  refine ⟨rfl, fun hhole hcomp => ?_, fun hhole => ?_⟩
  · have hone : (i + 1 - i).toNat = 1 := by bv_omega
    have hnext : b.rings[n].compAfter i = i + 1 := by
      unfold Ring.compAfter
      rw [hhole, hcomp, hone]
      rfl
    have hne : i + 1 ≠ i := by bv_omega
    refine ⟨hnext, ?_⟩
    show (_ || decide (b.rings[n].compAfter i ≠ b.rings[n].comp)) = true
    rw [hnext, hcomp, decide_eq_true hne, Bool.or_true]
  · show b.rings[n].compAfter i = _
    unfold Ring.compAfter
    rw [hhole]
    rfl

/-- THM_HOST and Tpan take a TEMP value on the edge after (R309). -/
theorem tempCurrent_takes (s : State) :
    (s.runDeferred .tempCurrent).thm.host = s.thm.arriving ∧ (s.runDeferred .tempCurrent).thm.current = true ∧
      (s.runDeferred .tempCurrent).thm.age = 0 ∧
      (bitOf s.applied.thermal.ctl 0 = true → s.pw.qual = false →
        (s.runDeferred .tempCurrent).thm.tpan = s.thm.arriving ∧ (s.runDeferred .tempCurrent).thm.source = true) ∧
      (bitOf s.applied.thermal.ctl 0 = false → (s.runDeferred .tempCurrent).thm.tpan = s.thm.tpan) := by
  show s.tempTakes.thm.host = _ ∧ s.tempTakes.thm.current = _ ∧ s.tempTakes.thm.age = _ ∧
    (_ → _ → s.tempTakes.thm.tpan = _ ∧ s.tempTakes.thm.source = _) ∧ (_ → s.tempTakes.thm.tpan = _)
  unfold State.tempTakes
  dsimp only
  split
  next h =>
    refine ⟨rfl, rfl, rfl, fun _ _ => ⟨rfl, rfl⟩, fun hsrc => ?_⟩
    exact absurd (Bool.and_eq_true_iff.1 h).1 (by rw [State.onThm_applied, hsrc]; decide)
  next h =>
    refine ⟨rfl, rfl, rfl, fun hsrc hqual => absurd ?_ h, fun _ => rfl⟩
    rw [State.onThm_applied, State.onThm_pw, hsrc, hqual]
    rfl

/-- Settles O38: the admission edge by `admitRow_plain`, the completion point by `finishEntry_completes`. -/
theorem entriesThatFinish : Obligations.EntriesThatFinish := by
  unfold Obligations.EntriesThatFinish
  refine ⟨⟨fun s dt n f rest ha hf hc => ⟨nop_finishes s dt n f rest ha hf hc, mark_finishes s dt n f rest ha hf hc,
    temp_finishes s dt n f rest ha hf hc⟩, fun b n i => ⟨finishEntry_running b n i, finishEntry_completes b n i⟩⟩, tempCurrent_takes⟩

/-! ### SYNC (R245, R246, R348) -/

/-- SYNC on its edge. -/
def State.admitSync (s : State) (n : RingNo) (f : Fetched) : State :=
  (s.onRing n fun r => { r with
    syncNext := true
    barrier := some ⟨s.now, fld s.cnv.barto 0 24, f.entry.flag, BitVec.ofNat 32 (fld f.entry.w1 0 32), none⟩ }).finishEntry n f.index

theorem State.admitSync_ring (s : State) (n : RingNo) (f : Fetched) :
    (s.admitSync n f).rings[n] = Ring.finished { s.rings[n] with
      syncNext := true
      barrier := some ⟨s.now, fld s.cnv.barto 0 24, f.entry.flag, BitVec.ofNat 32 (fld f.entry.w1 0 32), none⟩ } f.index := by
  refine (State.finishEntry_ring _ n _).trans ?_
  rw [State.onRing_same s n fun r => { r with
    syncNext := true
    barrier := some ⟨s.now, fld s.cnv.barto 0 24, f.entry.flag, BitVec.ofNat 32 (fld f.entry.w1 0 32), none⟩ }]

theorem sync_arms (s : State) (dt : Nat) (n : RingNo) (f : Fetched) (rest : List Fetched) (ha : (s.arrive dt).answering = true)
    (hf : (s.arrive dt).rings[n].fetched = f :: rest) (hc : (s.arrive dt).chosen n = true) (hr : f.runsHere = true) (ho : f.entry.op = 5)
    (hb : (s.arrive dt).rings[n].barrier = none) (hs : (s.arrive dt).rings[n].syncNext = false) :
    ∃ b x, exec (.sync dt n) s = .next (State.settle b) ∧ b.rings[n].barrier = some x ∧ x.at0 = (s.arrive dt).now ∧
      x.limit = fld (s.arrive dt).cnv.barto 0 24 ∧ x.eload = f.entry.flag ∧ x.epoch.toNat = fld f.entry.w1 0 32 ∧ x.go = none ∧
      b.armed = true ∧ b.rings[n].syncNext = true ∧ b.rings[n].comp = (s.arrive dt).rings[n].compAfter f.index ∧
      b.wild = (s.arrive dt).wild := by
  have hsync : (f.runsHere && (((s.arrive dt).rings[n].syncNext && !f.entry.isUpdate) ||
      ((s.arrive dt).rings[n].barrier.isSome && f.entry.op == 5))) = false := by
    rw [hs, hb]
    simp
  have hring := ((s.arrive dt).takeEntry n).admitSync_ring n f
  have hbar : (((s.arrive dt).takeEntry n).admitSync n f).rings[n].barrier =
      some ⟨(s.arrive dt).now, fld (s.arrive dt).cnv.barto 0 24, f.entry.flag, BitVec.ofNat 32 (fld f.entry.w1 0 32), none⟩ := by
    rw [hring]
    rfl
  have hexec : exec (.sync dt n) s = .next (((s.arrive dt).takeEntry n).admitSync n f).settle := by
    show execSync dt n s = _
    unfold execSync State.admitSync
    rw [admitRow_plain ha hf hc (by rw [hr, ho]; rfl) hsync]
  generalize s.arrive dt = x at *
  refine ⟨(x.takeEntry n).admitSync n f, _, hexec, hbar, rfl, rfl, rfl, ?_, rfl, ?_, ?_,
    ?_, rfl⟩
  · exact toNat_fld _ _ _
  · exact List.any_eq_true.2 ⟨_, Vector.mem_toList_iff.2 (Vector.getElem_mem n.isLt), by
      rw [← Fin.getElem_fin, hbar]
      rfl⟩
  · rw [hring]
    rfl
  · rw [hring, State.takeEntry_ring]
    rfl

/-- A second SYNC in place of the update that the first one waits for is a host error (R246). -/
theorem sync_twice (s : State) (dt : Nat) (n : RingNo) (f : Fetched) (rest : List Fetched) (ha : (s.arrive dt).answering = true)
    (hf : (s.arrive dt).rings[n].fetched = f :: rest) (hc : (s.arrive dt).chosen n = true) (hr : f.runsHere = true) (ho : f.entry.op = 5)
    (h : (s.arrive dt).rings[n].barrier.isSome = true ∨ (s.arrive dt).rings[n].syncNext = true) (hw : (s.arrive dt).wild = none) :
    ∃ t, exec (.sync dt n) s = .next t ∧ t.wild = some .syncOrder := by
  have hwrong : (f.runsHere && (((s.arrive dt).rings[n].syncNext && !f.entry.isUpdate) ||
      ((s.arrive dt).rings[n].barrier.isSome && f.entry.op == 5))) = true := by
    have hupdate : f.entry.isUpdate = false := by rw [Entry.isUpdate, ho]; rfl
    rw [hr, ho, hupdate]
    obtain h | h := h <;> rw [h] <;> simp
  have hexec : exec (.sync dt n) s = .next ((((s.arrive dt).err .syncOrder).takeEntry n).admitSync n f).settle := by
    show execSync dt n s = _
    unfold execSync State.admitSync
    rw [admitRow_chosen ha hf hc (by rw [hr, ho]; rfl), hwrong, if_pos rfl]
  refine ⟨_, hexec, ?_⟩
  rw [State.settle_wild]
  show ((s.arrive dt).wild).or (some .syncOrder) = _
  rw [hw]
  rfl

/-- Settles O39. -/
theorem syncArmsBarrier : Obligations.SyncArmsBarrier := by
  unfold Obligations.SyncArmsBarrier
  exact fun s dt n f rest ha hf hc hr ho => ⟨sync_arms s dt n f rest ha hf hc hr ho, sync_twice s dt n f rest ha hf hc hr ho⟩

/-! ### PARK (R247, R52) -/

theorem finishPark_ring (s : State) (n : RingNo) (i : BitVec 16) :
    (s.finishPark n i).rings[n] = { s.rings[n].finished i with parkHead := some i } := by
  refine (State.onRing_same (s.finishEntry n i) n fun r => { r with parkHead := some i }).trans ?_
  rw [State.finishEntry_ring]

theorem park_admitted (s : State) (dt : Nat) (n : RingNo) (f : Fetched) (rest : List Fetched) (ha : (s.arrive dt).answering = true)
    (hf : (s.arrive dt).rings[n].fetched = f :: rest) (hc : (s.arrive dt).chosen n = true) (hs : (s.arrive dt).rings[n].syncNext = false)
    (hr : f.runsHere = true) (ho : f.entry.op = 6) :
    ∃ b : State, exec (.park dt n) s = .next b.settle ∧
      ((s.arrive dt).sup.railsUp = false → b.rings[n].work = none ∧
        b.rings[n].comp = (s.arrive dt).rings[n].compAfter f.index ∧ b.rings[n].parkHead = some f.index) ∧
      ((s.arrive dt).sup.railsUp = true → b.rings[n].work = some (f.index, .park) ∧ Deferred.enterParking ∈ b.later) := by
  have hexec : exec (.park dt n) s = .next (if ((s.arrive dt).takeEntry n).sup.railsUp then
      (((s.arrive dt).takeEntry n).onRing n fun r => { r with work := some (f.index, .park) }).defer .enterParking
      else ((s.arrive dt).takeEntry n).finishPark n f.index).settle := by
    show execPark dt n s = _
    unfold execPark
    rw [admitRow_plain ha hf hc (by rw [hr, ho]; rfl) (ungated hs (by rw [ho]; decide))]
  have hsup : ((s.arrive dt).takeEntry n).sup = (s.arrive dt).sup := rfl
  rw [hsup] at hexec
  cases hup : (s.arrive dt).sup.railsUp with
  | false =>
    rw [hup, if_neg Bool.false_ne_true] at hexec
    refine ⟨_, hexec, fun _ => ?_, nofun⟩
    rw [finishPark_ring, State.takeEntry_ring]
    exact ⟨rfl, rfl, rfl⟩
  | true =>
    rw [hup, if_pos rfl] at hexec
    refine ⟨_, hexec, nofun, fun _ => ⟨?_, List.mem_append_right _ (List.mem_singleton_self _)⟩⟩
    have hring := ((s.arrive dt).takeEntry n).onRing_same n fun r => { r with work := some (f.index, .park) }
    exact congrArg Ring.work hring

/-- PARKING in ARMED, with the controlled discharge (R247). -/
theorem enterParking_of_park (s : State) (n : RingNo) (i : BitVec 16) (hb : s.pw.busy = false) (hst : s.pw.st = .armed)
    (hp : s.sup.phase = .up) (hw : s.rings[n].work = some (i, .park)) :
    (s.runDeferred .enterParking).pw.st = .parking ∧
      (s.runDeferred .enterParking).sup.phase = .discharge s.now s.sup.dac.natAbs 0 ∧ (s.runDeferred .enterParking).drv.frames = none := by
  have hpark : s.rings.toList.any (fun r => decide (r.work.map (·.2) = some .park)) = true :=
    List.any_eq_true.2 ⟨_, Vector.mem_toList_iff.2 (Vector.getElem_mem n.isLt), by
      rw [← Fin.getElem_fin, hw]
      rfl⟩
  have hdue : s.parkingDue = true := by
    unfold State.parkingDue
    rw [hst, hb, hpark]
    rfl
  have hrings : s.resetRings = s := if_neg (by rw [hb]; decide)
  have hrun : s.runDeferred .enterParking = s.parkRails := (State.enterParking_due hdue).trans (congrArg State.parkRails hrings)
  rw [hrun, State.parkRails_ramps (by rw [Supply.ramps, hp])]
  exact ⟨rfl, rfl, rfl⟩

/-- No update has come in the way (R52). -/
theorem enterParking_late (s : State) (hb : s.pw.busy = false) (hu : s.anyUpdate = true)
    (hw : ∀ (n : RingNo) (i : BitVec 16), s.rings[n].work ≠ some (i, .park)) : s.runDeferred .enterParking = s := by
  have hpark : s.rings.toList.any (fun r => decide (r.work.map (·.2) = some .park)) = false := by
    refine List.any_eq_false.2 fun r hr => ?_
    obtain ⟨k, hk, rfl⟩ := Vector.getElem_of_mem (Vector.mem_toList_iff.1 hr)
    rw [decide_eq_true_eq, Option.map_eq_some_iff]
    rintro ⟨⟨i, w⟩, hwork, rfl⟩
    exact hw ⟨k, hk⟩ i hwork
  have hdue : s.parkingDue = false := by
    unfold State.parkingDue
    rw [hb, hpark, hu, Bool.not_true, Bool.or_self, Bool.or_self, Bool.and_false]
  show s.enterParking = s
  unfold State.enterParking
  rw [hdue]
  rfl

/-- Settles O40. -/
theorem parkParks : Obligations.ParkParks := by
  unfold Obligations.ParkParks
  exact ⟨park_admitted, enterParking_of_park, enterParking_late⟩

/-! ### UPDATE and CLEAR (R240, R261, R262, R267) -/

theorem exec_updateOrClear {s : State} {dt : Nat} {n : RingNo} {f : Fetched} {rest : List Fetched} (ha : (s.arrive dt).answering = true)
    (hf : (s.arrive dt).rings[n].fetched = f :: rest) (hc : (s.arrive dt).chosen n = true) (hr : f.runsHere = true) {c : Bool}
    (ho : f.entry.op = if c then 2 else 1) :
    exec (if c then .clear dt n else .update dt n) s = .next (((s.arrive dt).takeEntry n).admitUpdate n f).settle := by
  have hupdate : f.entry.isUpdate = true := by cases c <;> (rw [Entry.isUpdate, ho]; rfl)
  have hno5 : (f.entry.op == 5) = false := by cases c <;> (rw [ho]; rfl)
  have hsync : (f.runsHere && (((s.arrive dt).rings[n].syncNext && !f.entry.isUpdate) ||
      ((s.arrive dt).rings[n].barrier.isSome && f.entry.op == 5))) = false := by
    rw [hupdate, hno5]
    simp
  cases c with
  | true =>
    show execClear dt n s = _
    unfold execClear
    rw [admitRow_plain ha hf hc (by rw [hr, ho]; rfl) hsync]
  | false =>
    show execUpdate dt n s = _
    unfold execUpdate
    rw [admitRow_plain ha hf hc (by rw [hr, ho]; rfl) hsync]

theorem State.admitUpdate_trusted {s : State} {n : RingNo} {f : Fetched} (h : (f.entry.frags f.table).all Frag.trusted = true) :
    s.admitUpdate n f = (s.onRing n fun r => { r with work := some (f.index, .update (s.newUpdate n f)), syncNext := false }).onSup
      fun p => { p with noPreRamp := false } := by
  have hfrags : (s.newUpdate n f).frags = f.entry.frags f.table := rfl
  unfold State.admitUpdate
  dsimp only
  rw [hfrags, h, if_pos rfl]

/-- Settles O42: the update is the one that `State.newUpdate` takes from the admission edge. -/
theorem updateAdmitted : Obligations.UpdateAdmitted := by
  unfold Obligations.UpdateAdmitted
  intro s dt n f rest ha hf hc hr ht c ho
  have hexec := exec_updateOrClear ha hf hc hr ho
  rw [State.admitUpdate_trusted ht] at hexec
  have hring := ((s.arrive dt).takeEntry n).onRing_same n fun r =>
    { r with work := some (f.index, .update (((s.arrive dt).takeEntry n).newUpdate n f)), syncNext := false }
  have htaken := (s.arrive dt).takeEntry_ring n
  generalize s.arrive dt = x at *
  refine ⟨_, (x.takeEntry n).newUpdate n f, hexec, congrArg Ring.work hring, ?_, rfl, rfl, ?_, rfl, rfl, rfl, rfl, rfl, ?_,
    congrArg Ring.syncNext hring, rfl, rfl, rfl⟩
  · show (f.entry.op == 2) = c
    rw [ho]
    cases c <;> rfl
  · show (x.takeEntry n).rings[n].gatesNext = _
    rw [htaken]
    rfl
  · refine (congrArg Ring.fetched hring).trans ?_
    show (x.takeEntry n).rings[n].fetched = rest
    rw [htaken, Ring.taken, hf]
    rfl

end Sys2Proof.Machine

/-! SUPPORT. The end of a replay, the close of a slot, and the replay that a check owes (R78, R271, R334, R336). The proof of O45. -/

namespace Sys2Proof.Machine

open Sys2Proof.Safety

/-! ### What the journal's replay reaches -/

/-- Nothing but the journal, the rails, the outputs and the effects put later differ, and the same slots are open. -/
def Replays (s t : State) : Prop :=
  ∃ l u d j, t = { s with later := l, sup := u, drv := d, jnl := j } ∧ j.slots.map (·.q) = s.jnl.slots.map (·.q)

theorem Replays.refl (s : State) : Replays s s := ⟨_, _, _, _, rfl, rfl⟩

theorem Replays.trans {a b c : State} (h : Replays a b) (h' : Replays b c) : Replays a c := by
  obtain ⟨l, u, d, j, rfl, hj⟩ := h
  obtain ⟨l', u', d', j', rfl, hj'⟩ := h'
  exact ⟨l', u', d', j', rfl, hj'.trans hj⟩

namespace State

theorem onJnl_replays (s : State) (f : Journal → Journal) (hf : (f s.jnl).slots = s.jnl.slots) : Replays s (s.onJnl f) :=
  ⟨_, _, _, _, rfl, by rw [hf]⟩

theorem defer_replays (s : State) (d : Deferred) : Replays s (s.defer d) := ⟨_, _, _, _, rfl, rfl⟩

theorem startDischarge_replays (s : State) : Replays s s.startDischarge := ⟨_, _, _, _, rfl, rfl⟩

theorem onSlot_replays (s : State) (q : Nat) (f : OpenSlot → OpenSlot) (hf : ∀ o, (f o).q = o.q) : Replays s (s.onSlot q f) := by
  refine ⟨_, _, _, _, rfl, ?_⟩
  show (s.jnl.slots.map _).map _ = _
  rw [List.map_map]
  refine List.map_congr_left fun o _ => ?_
  dsimp only [Function.comp]
  split
  · exact hf o
  · rfl

theorem requestMark_replays (s : State) (q : Nat) (a : Asker) : Replays s (s.requestMark q a) := by
  unfold requestMark
  split
  · exact .refl s
  · split
    · split
      · exact .refl s
      · exact (s.onJnl_replays _ rfl).trans (onSlot_replays _ q _ fun _ => rfl)
    · exact (s.onJnl_replays _ rfl).trans (onSlot_replays _ q _ fun _ => rfl)

theorem askIntent_replays (s : State) : Replays s s.askIntent := by
  unfold askIntent
  split
  · split
    · exact s.onJnl_replays _ rfl
    · exact .refl s
  · exact .refl s

theorem replayCloses_replays (s : State) : Replays s s.replayCloses := by
  unfold replayCloses
  split
  · refine List.foldlRecOn (motive := Replays s) _ _ (s.onJnl_replays _ rfl) fun t ht q _ => ht.trans ?_
    dsimp only
    split
    · exact t.onSlot_replays q _ fun _ => rfl
    · exact (t.onSlot_replays q (fun o => { o with replayed := true }) fun _ => rfl).trans (requestMark_replays _ _ _)
  · exact .refl s

theorem replayDischarge_replays (s : State) : Replays s s.replayDischarge := by
  unfold replayDischarge
  dsimp only
  generalize hx : s.onJnl _ = x
  have h : Replays s x := hx ▸ s.onJnl_replays _ rfl
  have hl : Replays s (match x.jnl.replay with
      | some r => if r.failed then x.defer .endRecovery else x.replayCloses
      | none => x) := by
    split
    · split
      · exact h.trans (x.defer_replays _)
      · exact h.trans x.replayCloses_replays
    · exact h
  split
  · exact h.trans x.startDischarge_replays
  · exact h.trans x.startDischarge_replays
  · exact hl
  · exact hl
  · exact h

theorem replayNext_replays (s : State) (b : Bool) : Replays s (s.replayNext b) := by
  unfold replayNext
  split
  · dsimp only
    split
    · exact (s.onJnl_replays _ rfl).trans (replayDischarge_replays _)
    · exact (s.onJnl_replays _ rfl).trans (askIntent_replays _)
  · exact .refl s

theorem dropReplaySlot_replays (s : State) (q : Nat) : Replays s (s.dropReplaySlot q) := by
  unfold dropReplaySlot
  dsimp only
  generalize hx : s.onJnl _ = x
  have h : Replays s x := hx ▸ s.onJnl_replays _ rfl
  split
  · split
    · exact h.trans (x.replayNext_replays false)
    · exact h
  · exact h

/-! ### The close of a slot (R39, R271) -/

/-- The flag clears with the last slot; nothing else. -/
theorem updateOpen_eq (s : State) :
    s.updateOpen = { s with pw := { s.pw with jopen := s.pw.jopen && !s.jnl.slots.isEmpty } } := by
  unfold updateOpen
  split
  next h => rw [h, Bool.not_true, Bool.and_false]; rfl
  next h => rw [Bool.eq_false_iff.2 h, Bool.not_false, Bool.and_true]

theorem closeSlot_fields (s : State) (q : Nat) :
    (s.closeSlot q).rings = s.rings ∧ (s.closeSlot q).cnt = s.cnt ∧
      (s.closeSlot q).pw.jopen = (s.pw.jopen && !(s.jnl.slots.filter fun o => o.q != q).isEmpty) ∧
      (s.closeSlot q).jnl.slots.map (·.q) = (s.jnl.slots.filter fun o => o.q != q).map (·.q) := by
  unfold closeSlot
  obtain ⟨l, u, d, j, heq, hj⟩ := ((s.onJnl fun j => { j with slots := j.slots.filter fun o => o.q != q }).updateOpen).dropReplaySlot_replays q
  rw [heq]
  rw [updateOpen_eq] at hj ⊢
  exact ⟨rfl, rfl, rfl, hj⟩

theorem findSlot_none {s : State} {q : Nat} (h : q ∉ s.jnl.slots.map (·.q)) : s.findSlot q = none := by
  refine List.find?_eq_none.2 fun o ho he => h (List.mem_map.2 ⟨o, ho, ?_⟩)
  exact eq_of_beq he

/-- The slot is open no more. -/
theorem closeSlot_findSlot (s : State) (q : Nat) : q ∉ (s.closeSlot q).jnl.slots.map (·.q) := by
  obtain ⟨-, -, -, hslots⟩ := s.closeSlot_fields q
  rw [hslots, List.mem_map]
  rintro ⟨o, ho, hq⟩
  have hne := (List.mem_filter.1 ho).2
  rw [hq] at hne
  simp at hne

/-- The slot is closed, and a replayed one counted. -/
def closedSlot (s : State) (q : Nat) (o : OpenSlot) : State := if o.replayed then (s.closeSlot q).count .replays else s.closeSlot q

theorem closeDone_eq {s : State} {q : Nat} {o : OpenSlot} (h : s.findSlot q = some o) :
    s.closeDone q = match (s.closedSlot q o).rings[o.ring].update? with
      | some (i, u) => if u.slot = some q then (s.closedSlot q o).completeUpdate o.ring i else s.closedSlot q o
      | none => s.closedSlot q o := by
  unfold closeDone
  rw [h] <;> rfl

theorem closedSlot_fields (s : State) (q : Nat) (o : OpenSlot) :
    (s.closedSlot q o).rings = s.rings ∧ (s.closedSlot q o).jnl = (s.closeSlot q).jnl ∧
      (s.closedSlot q o).pw = (s.closeSlot q).pw ∧
      (s.closedSlot q o).cnt = if o.replayed then s.cnt.put .replays (satAdd 0xFFFF s.cnt.replays 1) else s.cnt := by
  obtain ⟨hrings, hcnt, -, -⟩ := s.closeSlot_fields q
  unfold closedSlot
  split
  · obtain ⟨e, n, k, heq⟩ := (s.closeSlot q).count_eq .replays
    refine ⟨?_, ?_, ?_, ?_⟩
    · rw [heq]
      exact hrings
    · rw [heq]
    · rw [heq]
    · rw [count_cnt, hcnt]
      rfl
  · exact ⟨hrings, rfl, rfl, hcnt⟩

/-- The update whose slot closes finishes (R220); without one the close is all. -/
theorem closeDone_finishes {s : State} {q : Nat} {o : OpenSlot} (h : s.findSlot q = some o) :
    s.closeDone q = s.closedSlot q o ∨ ∃ i, s.closeDone q = (s.closedSlot q o).completeUpdate o.ring i := by
  rw [closeDone_eq h]
  split
  · split
    · exact .inr ⟨_, rfl⟩
    · exact .inl rfl
  · exact .inl rfl

/-- The finish of an update leaves the journal and the power state. -/
theorem completeUpdate_fields (s : State) (n : RingNo) (i : BitVec 16) :
    (s.completeUpdate n i).jnl = s.jnl ∧ (s.completeUpdate n i).pw = s.pw ∧ (s.completeUpdate n i).rings[n] = s.rings[n].finished i ∧
      (s.completeUpdate n i).cnt = s.cnt.put .updates (satAdd 0xFFFFFFFFF s.cnt.updates 1) := by
  have hcnt := s.count_cnt .updates
  have hring := (s.count .updates).finishEntry_ring n i
  obtain ⟨e, c, k, heq⟩ := s.count_eq .updates
  unfold completeUpdate
  rw [heq] at hcnt hring ⊢
  exact ⟨rfl, rfl, hring, hcnt⟩

end State

theorem closeDone_closes (s : State) (q : Nat) (o : OpenSlot) (h : s.findSlot q = some o) :
    (s.closeDone q).findSlot q = none ∧
      ((∀ x ∈ s.jnl.slots, x.q = q) → (s.closeDone q).pw.jopen = false) ∧
      (s.rings[o.ring].update? = none →
        (s.closeDone q).cnt.replays = (if o.replayed then satAdd 0xFFFF s.cnt.replays 1 else s.cnt.replays)) ∧
      (∀ i u, s.rings[o.ring].update? = some (i, u) → u.slot = some q →
        (s.closeDone q).rings[o.ring].work = none ∧ (s.closeDone q).rings[o.ring].comp = s.rings[o.ring].compAfter i ∧
          (s.closeDone q).cnt.updates = satAdd 0xFFFFFFFFF s.cnt.updates 1) := by
  obtain ⟨-, -, hjopen, -⟩ := s.closeSlot_fields q
  obtain ⟨hrings, hjnl, hpw, hcnt⟩ := s.closedSlot_fields q o
  have hkept : (s.closeDone q).jnl = (s.closeSlot q).jnl ∧ (s.closeDone q).pw = (s.closeSlot q).pw := by
    obtain heq | ⟨i, heq⟩ := State.closeDone_finishes h
    · rw [heq]
      exact ⟨hjnl, hpw⟩
    · obtain ⟨hj, hp, -⟩ := (s.closedSlot q o).completeUpdate_fields o.ring i
      rw [heq]
      exact ⟨hj.trans hjnl, hp.trans hpw⟩
  refine ⟨State.findSlot_none (by rw [hkept.1]; exact s.closeSlot_findSlot q), fun hall => ?_, fun hu => ?_, fun i u hu hq => ?_⟩
  · have hempty : (s.jnl.slots.filter fun x => x.q != q) = [] := List.filter_eq_nil_iff.2 fun x hx => by simp [hall x hx]
    rw [hkept.2, hjopen, hempty]
    exact Bool.and_false _
  · have hdone : s.closeDone q = s.closedSlot q o := by
      rw [State.closeDone_eq h, hrings, hu]
    rw [hdone, hcnt]
    split <;> rfl
  · have hdone : s.closeDone q = (s.closedSlot q o).completeUpdate o.ring i := by
      rw [State.closeDone_eq h, hrings, hu]
      exact if_pos hq
    obtain ⟨-, -, hring, hcnt'⟩ := (s.closedSlot q o).completeUpdate_fields o.ring i
    have hupdates : (s.closedSlot q o).cnt.updates = s.cnt.updates := by
      rw [hcnt]
      split <;> rfl
    rw [hdone, hring, hcnt', hrings, hupdates]
    exact ⟨rfl, rfl, rfl⟩

/-! ### The end of a replay (R336, R78) -/

theorem replayEnd_defers (s : State) (dt : Nat) (r : Replay) (ha : (s.arrive dt).answering = true) (hr : (s.arrive dt).jnl.replay = some r)
    (hst : r.stage = .close) (ho : ∀ o ∈ (s.arrive dt).jnl.slots, o.replayed = false ∧ o.wantTomb = false)
    (hl : Deferred.endRecovery ∉ (s.arrive dt).later) :
    exec (.replayEnd dt) s = .next ((s.arrive dt).defer .endRecovery).settle := by
  have hslots : ((s.arrive dt).jnl.slots.any fun o => o.replayed || o.wantTomb) = false := by
    refine List.any_eq_false.2 fun o hm => ?_
    obtain ⟨h1, h2⟩ := ho o hm
    rw [h1, h2]
    decide
  have hlater : (s.arrive dt).later.contains .endRecovery = false := by simpa using hl
  show execReplayEnd dt s = _
  unfold execReplayEnd
  refine event_body ?_
  rw [hr]
  dsimp only
  rw [ha, hst, hslots, hlater]
  rfl

/-- The replay is over: its cause, and the gate that has waited for it. -/
theorem State.replayOver_fields (s : State) :
    bitOf s.replayOver.cause 8 = true ∧ s.replayOver.jnl.replay = s.jnl.replay ∧ s.replayOver.later = s.later ∧ s.replayOver.sup = s.sup ∧
      (s.jnl.gateAfter = true → s.replayOver.jnl.gate = true) := by
  have hset := setCause_bit s (i := 8) (by decide)
  unfold State.replayOver
  dsimp only
  split
  next h => exact ⟨hset, rfl, rfl, rfl, fun _ => rfl⟩
  next h => exact ⟨hset, rfl, rfl, rfl, fun hg => absurd hg h⟩

/-- The applied codes govern again; nothing but the set-points moves. -/
theorem State.endCodes_eq (s : State) :
    ∃ v t, s.endCodes = { s with sup := v, thm := t } ∧ v.phase = s.sup.phase := by
  unfold State.endCodes
  split <;> exact ⟨_, _, rfl, rfl⟩

theorem endRecovery_leaves (s : State) :
    (s.pw.st = .recovery → (s.runDeferred .endRecovery).pw.st = .idle ∧
      (s.sup.phase = .up → Deferred.enterArmed ∈ (s.runDeferred .endRecovery).later)) ∧
      bitOf (s.runDeferred .endRecovery).cause 8 = true ∧ (s.runDeferred .endRecovery).jnl.replay = none ∧
      (s.jnl.gateAfter = true → (s.runDeferred .endRecovery).jnl.gate = true) := by
  have hpw := State.replayOver_pw (s.onJnl fun j => { j with replay := none })
  obtain ⟨hcause, hreplay, hlater, hsup, hgate⟩ := (s.onJnl fun j => { j with replay := none }).replayOver_fields
  obtain ⟨v, t, heq, hphase⟩ := ((s.onJnl fun j => { j with replay := none }).replayOver).endCodes_eq
  have hrun : s.runDeferred .endRecovery =
      let x := ((s.onJnl fun j => { j with replay := none }).replayOver).endCodes
      if x.pw.st = .recovery then (if x.sup.phase = .up then (x.goTo .idle).defer .enterArmed else x.goTo .idle) else x := rfl
  rw [hrun]
  generalize hx : (s.onJnl fun j => { j with replay := none }).replayOver.endCodes = x at *
  have hst : x.pw.st = s.pw.st := by
    rw [heq]
    exact congrArg Power.st hpw
  have hup : x.sup.phase = s.sup.phase := by
    rw [heq]
    exact hphase.trans (congrArg Supply.phase hsup)
  have hjnl : bitOf x.cause 8 = true ∧ x.jnl.replay = none ∧ (s.jnl.gateAfter = true → x.jnl.gate = true) := by
    rw [heq]
    exact ⟨hcause, hreplay, hgate⟩
  obtain ⟨h8, hnone, hg⟩ := hjnl
  dsimp only
  split
  next hrec =>
    split
    next => exact ⟨fun _ => ⟨rfl, fun _ => List.mem_append_right _ (List.mem_singleton_self _)⟩, h8, hnone, hg⟩
    next hno => exact ⟨fun _ => ⟨rfl, fun h => absurd (hup.trans h) hno⟩, h8, hnone, hg⟩
  next hno => exact ⟨fun h => absurd (hst.trans h) hno, h8, hnone, hg⟩

/-! ### The replay that a check owes (R78, R334) -/

theorem State.askIntent_jnl (s : State) : ∃ l, s.askIntent.jnl = { s.jnl with queue := l } := by
  unfold State.askIntent
  split
  · split <;> exact ⟨_, rfl⟩
  · exact ⟨_, rfl⟩

theorem settleCheck_replays (s : State) (hg : s.jnl.gateAfter = true) (ho : s.pw.jopen = true) (hscan : s.jnl.scan = none)
    (hreplay : s.jnl.replay = none) (hb : s.pw.busy = false) (hst : s.pw.st = .idle ∨ s.pw.st = .armed ∨ s.pw.st = .held)
    (hf : s.drv.frames = none) (hl : Deferred.enterParking ∉ s.later) :
    s.settleCheck.pw.st = .recovery ∧
      ∃ r, s.settleCheck.jnl.replay = some r ∧ r.stage = .run ∧ r.failed = false ∧ s.settleCheck.jnl.gateAfter = true ∧
        r.cur.map (·.q) = s.replayList.head? ∧ r.todo = s.replayList.tail := by
  have hlater : s.later.contains .enterParking = false := by simpa using hl
  have hcheck : s.settleCheck = s.startReplay := by
    unfold State.settleCheck
    refine if_pos ?_
    rw [hg, ho, hscan, hreplay, hb, hf, hlater]
    obtain h | h | h := hst <;> rw [h] <;> rfl
  rw [hcheck]
  refine ⟨s.startReplay_st, ?_⟩
  unfold State.startReplay
  dsimp only
  generalize hx : (s.goTo .recovery).onJnl _ = x
  obtain ⟨l, hjnl⟩ := x.askIntent_jnl
  rw [hjnl, ← hx]
  refine ⟨_, rfl, rfl, rfl, hg, ?_, rfl⟩
  show ((s.replayList.head?).map ReplaySlot.fresh).map (·.q) = _
  rw [Option.map_map]
  exact (congrFun Option.map_id s.replayList.head? :)

/-- Settles O45: the close of a slot by `State.closeSlot_fields` and `State.completeUpdate_fields`, the replay's end by
`State.replayOver_fields`. -/
theorem replayAndClose : Obligations.ReplayAndClose := by
  unfold Obligations.ReplayAndClose
  exact ⟨⟨replayEnd_defers, endRecovery_leaves⟩, settleCheck_replays, closeDone_closes⟩

end Sys2Proof.Machine

/-! SUPPORT. The start of frame 1, at once, on a running clock, or after a barrier (R252, R266, R272, R346, R355). The proof of O46. -/

namespace Sys2Proof.Machine

open Sys2Proof.Safety

/-- Rings after their records read ahead have been looked at: only what they have fetched may differ. -/
def SameButFetched (r t : Vector Ring 4) : Prop := ∀ n : RingNo, ∃ f, t[n] = { r[n] with fetched := f }

namespace State

/-! ### What the start of a frame reaches -/

theorem applyDrive_eq (s : State) : ∃ a p, s.applyDrive = { s with applied := a, pend := p } := by
  unfold applyDrive
  split
  · split <;> exact ⟨_, _, rfl⟩
  · exact ⟨_, _, rfl⟩

theorem unsense_eq (s : State) : ∃ l, s.unsense = { s with later := l } ∧ ∀ d ∈ s.later, d ∈ l := by
  unfold unsense
  split
  · exact ⟨_, rfl, fun _ h => h⟩
  · exact ⟨_, rfl, fun _ h => List.mem_append_left _ h⟩

/-- The outputs of the frame that starts: the frame itself, from the levels before it; nothing but the outputs' record and an effect put later. -/
theorem drive_eq (s : State) (prev : List Level) :
    ∃ l f b c c0, s.drive prev = { s with later := l, drv := { s.drv with frames := some f, sliced := b, changed := c, changed0 := c0 } } ∧
      f.start = s.now ∧ f.prev = prev ∧ ∀ d ∈ s.later, d ∈ l := by
  obtain ⟨l, heq, hl⟩ := s.unsense_eq
  unfold drive
  rw [heq]
  exact ⟨l, _, _, _, _, rfl, rfl, rfl, hl⟩

theorem checkAhead_eq (s : State) : ∃ r, s.checkAhead = { s with rings := r } ∧ SameButFetched s.rings r :=
  ⟨_, rfl, fun n => ⟨_, by simp; rfl⟩⟩

/-- An event of a counter sets causes only. -/
theorem count_grows (s : State) (c : Cnt) (i : Nat) (h : bitOf s.cause i = true) : bitOf (s.count c).cause i = true := by
  unfold count putCnt
  dsimp only
  split
  · rw [setCause_cause, bitOf_or]
    exact Bool.or_eq_true_iff.2 (.inl h)
  · exact h

/-- A start edge of the frame clock: the epoch and CNT_FRAMES advance, and the frame starts (R252, R355). -/
theorem startFrame_fields (s : State) (prev : List Level) :
    (s.startFrame prev).now = s.now ∧ (s.startFrame prev).pw = s.pw ∧ (s.startFrame prev).jnl = s.jnl ∧
      (s.startFrame prev).cnt = s.cnt.put .frames (satAdd 0xFFFFFFFFF s.cnt.frames 1) ∧
      (s.startFrame prev).cnv = { s.cnv with epoch := s.cnv.epoch + 1 } ∧
      (s.startFrame prev).sup = { s.sup with started := true } ∧ (s.startFrame prev).drv.dcb = s.drv.dcb ∧
      (∃ f, (s.startFrame prev).drv.frames = some f ∧ f.start = s.now ∧ f.prev = prev) ∧
      SameButFetched s.rings (s.startFrame prev).rings ∧
      (∀ i, bitOf s.cause i = true → bitOf (s.startFrame prev).cause i = true) ∧ ∀ d ∈ s.later, d ∈ (s.startFrame prev).later := by
  obtain ⟨a, p, happly⟩ := s.applyDrive_eq
  obtain ⟨r, hahead, hr⟩ := s.applyDrive.checkAhead_eq
  rw [happly] at hahead hr
  unfold startFrame
  dsimp only
  rw [happly, hahead]
  generalize hx : ({ s with
    applied := a, pend := p, rings := r
    cnv := { s.cnv with epoch := s.cnv.epoch + 1 }
    edge := { s.edge with epochs := s.edge.epochs + 1 }
    sup := { s.sup with started := true } } : State) = x
  have hcnt := x.count_cnt .frames
  have hgrows := x.count_grows .frames
  obtain ⟨e, c, k, hcount⟩ := x.count_eq .frames
  obtain ⟨l, f, b, d, d0, hdrive, hstart, hprev, hl⟩ := (x.count .frames).drive_eq prev
  rw [hdrive]
  rw [hcount] at hcnt hgrows hstart hl ⊢
  subst hx
  exact ⟨rfl, rfl, rfl, hcnt, rfl, rfl, rfl, ⟨f, rfl, hstart, hprev⟩, hr, hgrows, hl⟩

/-! ### Frame 1 (R266, R272) -/

/-- Before its first frame: the drive group has applied, the cleared faults are released, and the update runs. -/
def begun (s : State) (n : RingNo) : State :=
  (s.applyDrive.checkAhead.releaseFloats.goTo .driving).onUpdate n fun u =>
    { u with stage := .running (s.applyDrive.checkAhead.releaseFloats.runFrom 1) }

theorem startUpdate_eq (s : State) (n : RingNo) :
    s.startUpdate n = match (s.begun n).drv.frames with
      | none => (s.begun n).startFrame s.levelsBefore
      | some f => (s.begun n).drive f.prev := rfl

theorem update_of_sameButFetched {r t : Vector Ring 4} (h : SameButFetched r t) (n : RingNo) :
    t[n].update? = r[n].update? ∧ t[n].barrier = r[n].barrier := by
  obtain ⟨f, hf⟩ := h n
  rw [hf]
  exact ⟨rfl, rfl⟩

theorem begun_fields (s : State) (n : RingNo) :
    (s.begun n).now = s.now ∧ (s.begun n).pw = { s.pw with st := .driving } ∧ (s.begun n).drv = s.drv ∧ (s.begun n).cnv = s.cnv ∧
      (s.begun n).cnt = s.cnt ∧ (s.begun n).sup = { s.sup with floats := s.sup.floats &&& s.sup.fault } ∧
      (∀ i u, s.rings[n].update? = some (i, u) →
        ∃ x : Run, x.frame = 1 ∧ x.sub = 0 ∧ (s.begun n).rings[n].update? = some (i, { u with stage := .running x })) := by
  obtain ⟨a, p, happly⟩ := s.applyDrive_eq
  obtain ⟨r, hahead, hr⟩ := s.applyDrive.checkAhead_eq
  rw [happly] at hahead hr
  have hone : (s.applyDrive.checkAhead.releaseFloats.runFrom 1).frame = 1 ∧ (s.applyDrive.checkAhead.releaseFloats.runFrom 1).sub = 0 :=
    ⟨rfl, rfl⟩
  unfold begun
  generalize s.applyDrive.checkAhead.releaseFloats.runFrom 1 = x at hone ⊢
  obtain ⟨hx1, hx0⟩ := hone
  rw [happly, hahead]
  refine ⟨rfl, rfl, rfl, rfl, rfl, rfl, fun i u hu => ⟨x, hx1, hx0, ?_⟩⟩
  rw [onUpdate_update, if_pos rfl]
  show Option.map _ (r[n].update?) = _
  rw [(update_of_sameButFetched hr n).1, hu]
  rfl

end State

theorem updateStart_starts (s : State) (dt : Nat) (n : RingNo) (i : BitVec 16) (u : Update) (h : (s.arrive dt).startable n = true)
    (hu : (s.arrive dt).rings[n].update? = some (i, u)) (hg : u.gated = false) :
    ((s.arrive dt).drv.frames = none →
      ∃ b f x, exec (.updateStart dt n) s = .next (State.settle b) ∧ b.pw.st = .driving ∧ b.drv.frames = some f ∧
        f.start = (s.arrive dt).now ∧ f.prev = (s.arrive dt).levelsBefore ∧ b.cnv.epoch = (s.arrive dt).cnv.epoch + 1 ∧
        b.cnt.frames = satAdd 0xFFFFFFFFF (s.arrive dt).cnt.frames 1 ∧ x.frame = 1 ∧ x.sub = 0 ∧
        b.sup.floats = (s.arrive dt).sup.floats &&& (s.arrive dt).sup.fault ∧
        b.rings[n].update? = some (i, { u with stage := .running x })) ∧
      (∀ g : Frames, (s.arrive dt).drv.frames = some g → g.start = (s.arrive dt).now →
        ∃ b f x, exec (.updateStart dt n) s = .next (State.settle b) ∧ b.pw.st = .driving ∧ b.drv.frames = some f ∧
          f.start = (s.arrive dt).now ∧ f.prev = g.prev ∧ b.cnv.epoch = (s.arrive dt).cnv.epoch ∧ b.cnt = (s.arrive dt).cnt ∧
          x.frame = 1 ∧ x.sub = 0 ∧ b.rings[n].update? = some (i, { u with stage := .running x })) := by
  have hgate : (s.arrive dt).gated n = false := by
    unfold State.gated
    rw [hu]
    exact hg
  obtain ⟨hnow, hpw, hdrv, hcnv, hcnt, hsup, hrun⟩ := (s.arrive dt).begun_fields n
  obtain ⟨x, hx1, hx0, hupdate⟩ := hrun i u hu
  have heq := (s.arrive dt).startUpdate_eq n
  rw [hdrv] at heq
  constructor
  · intro hf
    have hexec := exec_updateStart h hgate fun f he => by rw [hf] at he; cases he
    obtain ⟨-, hpw', -, hcnt', hcnv', hsup', -, ⟨f, hframes, hstart, hprev⟩, hrings, -⟩ :=
      ((s.arrive dt).begun n).startFrame_fields (s.arrive dt).levelsBefore
    rw [hf] at heq
    rw [heq] at hexec
    refine ⟨_, f, x, hexec, ?_, hframes, hstart.trans hnow, hprev, ?_, ?_, hx1, hx0, ?_, ?_⟩
    · rw [hpw', hpw]
    · rw [hcnv', hcnv]
    · rw [hcnt', hcnt]
      rfl
    · rw [hsup', hsup]
    · rw [(State.update_of_sameButFetched hrings n).1, hupdate]
  · intro g hf hstart
    have hexec := exec_updateStart h hgate fun f he => by rw [hf] at he; cases he; exact hstart
    obtain ⟨l, f, b, c, c0, hdrive, hnow', hprev, -⟩ := ((s.arrive dt).begun n).drive_eq g.prev
    rw [hf] at heq
    rw [heq] at hexec
    dsimp only at hexec
    rw [hdrive] at hexec
    refine ⟨_, f, x, hexec, ?_, rfl, hnow'.trans hnow, hprev, ?_, hcnt, hx1, hx0, hupdate⟩
    · rw [hpw]
    · rw [hcnv]

/-! ### After a barrier (R346, R347) -/

/-- A ring whose barrier is dropped holds nothing up any more. -/
theorem State.dropBarrier_gated (s : State) (n : RingNo) : (s.dropBarrier n).gated n = false := by
  have hupdate := (s.onRing n fun r => { r with barrier := none }).onUpdate_update n n fun u => { u with gated := false }
  rw [if_pos rfl] at hupdate
  unfold State.gated State.dropBarrier
  rw [hupdate]
  cases (s.onRing n fun r => { r with barrier := none }).rings[n].update? <;> rfl

/-- The start after a barrier, which the SYNC's epoch takes part in (R347). -/
def State.barrierStarted (s : State) (n : RingNo) (b : Barrier) : State :=
  (if b.eload then (s.startUpdate n).onCnv fun c => { c with epoch := b.epoch } else s.startUpdate n).dropBarrier n

theorem exec_barrierStart {s w : State} {dt g : Nat} {n : RingNo} {x : Barrier} (h : (s.arrive dt).startable n = true)
    (hg : (s.arrive dt).gated n = true) (hb : (s.arrive dt).rings[n].barrier = some x) (hgo : x.go = some g)
    (hw : w = (s.arrive dt).waitUntil (g + 4)) (h' : w.startable n = true) (hg' : w.gated n = true) (hf : w.drv.frames = none) :
    exec (.barrierStart dt n) s = .next (w.barrierStarted n x).settle := by
  show execBarrierStart dt n s = _
  unfold execBarrierStart
  refine event_body ?_
  rw [hb]
  dsimp only
  rw [hgo]
  dsimp only
  rw [h, hg, Bool.and_self, if_pos rfl, ← hw, h', hg', hf]
  rfl

theorem barrierStart_starts (s w : State) (dt g : Nat) (n : RingNo) (x : Barrier) (h : (s.arrive dt).startable n = true)
    (hg : (s.arrive dt).gated n = true) (hb : (s.arrive dt).rings[n].barrier = some x) (hgo : x.go = some g)
    (hw : w = (s.arrive dt).waitUntil (g + 4)) (h' : w.startable n = true) (hg' : w.gated n = true) (hf : w.drv.frames = none) :
    ∃ b : State, exec (.barrierStart dt n) s = .next b.settle ∧ b.pw.st = .driving ∧ b.rings[n].barrier = none ∧ b.gated n = false ∧
      b.drv.frames.map (·.start) = some w.now ∧ g + 4 ≤ b.now ∧
      b.cnv.epoch = (if x.eload then x.epoch else w.cnv.epoch + 1) := by
  have hticking : (s.arrive dt).ticking = true := by
    unfold State.startable at h
    simp only [Bool.and_eq_true] at h
    obtain ⟨⟨⟨⟨⟨ha, -⟩, -⟩, -⟩, -⟩, -⟩ := h
    exact State.answering_ticking ha
  have hreach : g + 4 ≤ w.now := hw ▸ State.waitUntil_reaches _ _ hticking
  obtain ⟨hnow, hpw, hdrv, hcnv, -, -, -⟩ := w.begun_fields n
  have heq : w.startUpdate n = (w.begun n).startFrame w.levelsBefore := by
    rw [w.startUpdate_eq n, hdrv, hf]
  obtain ⟨hnow', hpw', -, -, hcnv', -, -, ⟨f, hframes, hstart, -⟩, -⟩ := (w.begun n).startFrame_fields w.levelsBefore
  rw [← heq] at hnow' hpw' hcnv' hframes
  refine ⟨w.barrierStarted n x, exec_barrierStart h hg hb hgo hw h' hg' hf, ?_⟩
  unfold State.barrierStarted
  refine ⟨?_, (State.dropBarrier_barrier _ n n).trans (if_pos rfl), State.dropBarrier_gated _ n, ?_⟩
  all_goals
    cases x.eload
  · show (w.startUpdate n).pw.st = _
    rw [hpw', hpw]
  · show (w.startUpdate n).pw.st = _
    rw [hpw', hpw]
  · refine ⟨?_, ?_, ?_⟩
    · show (w.startUpdate n).drv.frames.map (·.start) = _
      rw [hframes]
      exact congrArg some (hstart.trans hnow)
    · exact hreach.trans_eq (hnow'.trans hnow).symm
    · show (w.startUpdate n).cnv.epoch = _
      rw [hcnv', hcnv]
      rfl
  · refine ⟨?_, ?_, rfl⟩
    · show (w.startUpdate n).drv.frames.map (·.start) = _
      rw [hframes]
      exact congrArg some (hstart.trans hnow)
    · exact hreach.trans_eq (hnow'.trans hnow).symm

/-- Settles O46: frame 1 starts by `State.begun_fields`, its frame by `State.startFrame_fields` or, on a running clock, `State.drive_eq`. -/
theorem frameOneStarts : Obligations.FrameOneStarts := by
  unfold Obligations.FrameOneStarts
  exact ⟨updateStart_starts, barrierStart_starts⟩

end Sys2Proof.Machine

/-! SUPPORT. The end of a frame: its account, the level check, the step of the updates, the next frame or the stop of the clock (R252, R276,
R282, R290, R297 to R299). The proofs of O47 and O48. -/

namespace Sys2Proof.Machine

open Sys2Proof.Safety

/-! ### The step of the updates and of the replay at a frame end -/

/-- What the updates' step leaves alone. -/
def State.driven (s : State) : State :=
  { State.reset with
    now := s.now
    pw := s.pw
    cnv := s.cnv
    sup := { s.sup with phase := .off }
    drv := { s.drv with frames := none, sliced := false } }

/-- Beyond that, causes are only set, and effects only put later. -/
def Framed (s t : State) : Prop :=
  t.driven = s.driven ∧ (∀ i, bitOf s.cause i = true → bitOf t.cause i = true) ∧ ∀ d ∈ s.later, d ∈ t.later

theorem Framed.refl (s : State) : Framed s s := ⟨rfl, fun _ h => h, fun _ h => h⟩

theorem Framed.trans {a b c : State} (h : Framed a b) (h' : Framed b c) : Framed a c :=
  ⟨h'.1.trans h.1, fun i hi => h'.2.1 i (h.2.1 i hi), fun d hd => h'.2.2 d (h.2.2 d hd)⟩

theorem Framed.of_eq {s t : State} (hd : t.driven = s.driven) (hc : t.cause = s.cause) (hl : t.later = s.later) : Framed s t :=
  ⟨hd, fun _ h => hc ▸ h, fun _ h => hl ▸ h⟩

namespace State

theorem onJnl_framed (s : State) (f : Journal → Journal) : Framed s (s.onJnl f) := .of_eq rfl rfl rfl

theorem defer_framed (s : State) (d : Deferred) : Framed s (s.defer d) := ⟨rfl, fun _ h => h, fun _ h => List.mem_append_left _ h⟩

theorem startDischarge_framed (s : State) : Framed s s.startDischarge := .of_eq rfl rfl rfl

theorem requestMark_framed (s : State) (q : Nat) (a : Asker) : Framed s (s.requestMark q a) := by
  unfold requestMark
  split
  · exact .refl s
  · split
    · split
      · exact .refl s
      · exact .of_eq rfl rfl rfl
    · exact .of_eq rfl rfl rfl

theorem askIntent_framed (s : State) : Framed s s.askIntent := by
  unfold askIntent
  split
  · split
    · exact .of_eq rfl rfl rfl
    · exact .refl s
  · exact .refl s

theorem replayCloses_framed (s : State) : Framed s s.replayCloses := by
  unfold replayCloses
  split
  · refine List.foldlRecOn (motive := Framed s) _ _ (.of_eq rfl rfl rfl) fun t ht q _ => ht.trans ?_
    dsimp only
    split
    · exact .of_eq rfl rfl rfl
    · exact .trans (b := t.onSlot q fun o => { o with replayed := true }) (.of_eq rfl rfl rfl) (requestMark_framed _ _ _)
  · exact .refl s

theorem replayDischarge_framed (s : State) : Framed s s.replayDischarge := by
  unfold replayDischarge
  dsimp only
  generalize hx : s.onJnl _ = x
  have h : Framed s x := hx ▸ s.onJnl_framed _
  have hl : Framed s (match x.jnl.replay with
      | some r => if r.failed then x.defer .endRecovery else x.replayCloses
      | none => x) := by
    split
    · split
      · exact h.trans (x.defer_framed _)
      · exact h.trans x.replayCloses_framed
    · exact h
  split
  · exact h.trans x.startDischarge_framed
  · exact h.trans x.startDischarge_framed
  · exact hl
  · exact hl
  · exact h

theorem replayNext_framed (s : State) (b : Bool) : Framed s (s.replayNext b) := by
  unfold replayNext
  split
  · dsimp only
    split
    · exact (s.onJnl_framed _).trans (replayDischarge_framed _)
    · exact (s.onJnl_framed _).trans (askIntent_framed _)
  · exact .refl s

theorem stepReplay_framed (s : State) : Framed s s.stepReplay := by
  unfold stepReplay
  split
  · split
    · dsimp only
      split
      · exact s.replayNext_framed true
      · exact .of_eq rfl rfl rfl
    · exact .refl s
  · exact .refl s

theorem completeUpdate_framed (s : State) (n : RingNo) (i : BitVec 16) : Framed s (s.completeUpdate n i) := by
  have hgrows := s.count_grows .updates
  obtain ⟨e, c, k, heq⟩ := s.count_eq .updates
  unfold completeUpdate
  rw [heq] at hgrows ⊢
  exact ⟨rfl, hgrows, fun _ h => h⟩

theorem onUpdate_framed (s : State) (n : RingNo) (f : Update → Update) : Framed s (s.onUpdate n f) := .of_eq rfl rfl rfl

theorem stepUpdate_framed (s : State) (n : RingNo) : Framed s (s.stepUpdate n) := by
  unfold stepUpdate
  split
  · split
    · dsimp only
      split
      · exact s.onUpdate_framed n _
      · split
        · split
          · split
            · exact (s.onUpdate_framed n _).trans (requestMark_framed _ _ _)
            · exact s.completeUpdate_framed n _
          · exact s.completeUpdate_framed n _
        · split
          · split
            · exact (s.onUpdate_framed n _).trans (requestMark_framed _ _ _)
            · exact s.onUpdate_framed n _
          · exact s.onUpdate_framed n _
    · exact .refl s
  · exact .refl s

theorem frameStepped_framed (s : State) : Framed s s.frameStepped := by
  have happly : Framed s s.applyDrive.checkAhead := by
    obtain ⟨a, p, heq⟩ := s.applyDrive_eq
    rw [heq]
    exact .of_eq rfl rfl rfl
  refine Framed.trans ?_ (stepReplay_framed _)
  exact List.foldlRecOn (motive := Framed s) _ _ happly fun t ht n _ => ht.trans (t.stepUpdate_framed n)

end State

/-! ### The level check (R297, R298) -/

/-- Nothing but the faults, what the next level check does, and what a fault counts, logs and puts later differ. -/
def Faulted (s t : State) : Prop :=
  ∃ e c k l g o f b, t = { s with
    edge := e, cnt := c, cause := k, later := l, log := g, overflow := o, sup := { s.sup with fault := f, noCheck := b } }

theorem Faulted.refl (s : State) : Faulted s s := ⟨_, _, _, _, _, _, _, _, rfl⟩

theorem Faulted.trans {a b c : State} (h : Faulted a b) (h' : Faulted b c) : Faulted a c := by
  obtain ⟨e, n, k, l, g, o, f, x, rfl⟩ := h
  obtain ⟨e', n', k', l', g', o', f', x', rfl⟩ := h'
  exact ⟨e', n', k', l', g', o', f', x', rfl⟩

namespace State

theorem markFault_faulted (s : State) (m : OutNo) : Faulted s (s.markFault m) := by
  unfold markFault
  dsimp only
  obtain ⟨e, n, k, heq⟩ := count_eq { s with
    sup := { s.sup with fault := s.sup.fault ||| outBit m }, edge := { s.edge with fault := s.edge.fault ||| outBit m } } .outFault
  rw [heq]
  exact ⟨_, _, _, _, _, _, _, _, rfl⟩

theorem log_faulted (s : State) (code detail : Nat) (n : RingNo) (i : Nat) : Faulted s (s.log_ code detail n i) := by
  obtain ⟨e, l, o, k, heq⟩ := s.log_eq code detail n i
  rw [heq]
  exact ⟨_, _, _, _, _, _, _, _, rfl⟩

theorem outputFault_faulted (s : State) (d : Nat) (m : OutNo) : Faulted s (s.outputFault d m) := by
  unfold outputFault
  split
  · exact .refl s
  · have hm : Faulted s ((s.markFault m).log_ 0x20 d 0 m.val) := (s.markFault_faulted m).trans (log_faulted _ _ _ _ _)
    dsimp only
    split
    · split
      · exact hm
      · exact hm.trans ((markFault_faulted _ _).trans (log_faulted _ _ _ _ _))
    · exact hm

theorem phaseBoundary_faulted (s : State) (f : Frames) (bad : BitVec 292) : Faulted s (s.phaseBoundary f bad) := by
  unfold phaseBoundary
  split
  · split
    · exact .refl s
    · exact ⟨_, _, _, _, _, _, _, _, rfl⟩
  · refine List.foldlRecOn (motive := Faulted s) _ _ (.refl s) fun t ht m _ => ht.trans ?_
    split
    · exact t.outputFault_faulted 2 m
    · exact .refl t

/-! ### The parts of a frame end -/

/-- The balance with the frame's contribution; a clear of this edge wins (R137). -/
def accounted (s : State) (f : Frames) : List (BitVec 16) :=
  if bitOf s.applied.drive.ctl 0 && !s.edge.dcbCleared then s.drv.dcb.mapIdx (fun n x => dcbAdd x (f.target.getD n .vcom)) else s.drv.dcb

theorem frameCharged_eq (s : State) (f : Frames) (a b : Nat) (v : Bool) :
    s.frameCharged f a b v = { s with
      drv := { s.drv with dcb := s.accounted f }
      sup := { s.sup with qpos := BitVec.ofNat 18 (min 262143 a), qneg := BitVec.ofNat 18 (min 262143 b), vmid := v } } := by
  unfold frameCharged accountFrame accounted
  split <;> rfl

/-- The check reaches the faults, the floating outputs and what a fault sets off; the release the floating outputs only. -/
theorem frameChecked_eq (s : State) (f : Frames) (bad : BitVec 292) :
    ∃ x, s.frameChecked f bad = x.onSup (fun u => { u with
        floats := if s.runners.any Runner.phaseStarts then s.sup.floats &&& x.sup.fault else s.sup.floats }) ∧
      x = (if s.runners.any Runner.boundary then s.phaseBoundary f bad else s) ∧ Faulted s x := by
  refine ⟨_, ?_, rfl, ?_⟩
  · unfold frameChecked
    dsimp only
    generalize hx : (if s.runners.any Runner.boundary then s.phaseBoundary f bad else s) = x
    have hfloats : x.sup.floats = s.sup.floats := by
      rw [← hx]
      split
      · obtain ⟨_, _, _, _, _, _, _, _, heq⟩ := s.phaseBoundary_faulted f bad
        rw [heq]
      · rfl
    split
    · rw [← hfloats]
      rfl
    · rw [← hfloats]
      rfl
  · split
    · exact s.phaseBoundary_faulted f bad
    · exact .refl s

theorem noteChange_eq (s : State) (prev t : List Level) (dwell : List OutNo) (len : Nat) :
    ∃ c c0, s.noteChange prev t dwell len = { s with drv := { s.drv with changed := c, changed0 := c0 } } := ⟨_, _, rfl⟩

/-- The clock stops with the levels of the frame that has ended, and DRIVING with it (R252, Table 2.4). -/
theorem stopClock_fields (s : State) (prev : List Level) :
    (s.stopClock prev).now = s.now ∧ (s.stopClock prev).sup = s.sup ∧ (s.stopClock prev).drv.dcb = s.drv.dcb ∧
      (s.stopClock prev).drv.frames = none ∧ (s.stopClock prev).drv.stopped = s.now ∧ (s.stopClock prev).drv.last = prev ∧
      (s.pw.st = .driving → (s.stopClock prev).pw.st = .armed ∧ (s.stopClock prev).pw.armed0 = s.now) ∧
      (s.stopClock prev).cause = s.cause ∧ (s.stopClock prev).later = s.later := by
  unfold stopClock
  dsimp only
  obtain ⟨c, c0, hnote⟩ := (s.onDrv fun d => { d with frames := none, sliced := false }).noteChange_eq prev
    (s.onDrv fun d => { d with frames := none, sliced := false }).levels [] 0
  rw [hnote]
  split
  next h => exact ⟨rfl, rfl, rfl, rfl, rfl, rfl, fun _ => ⟨rfl, rfl⟩, rfl, rfl⟩
  next h => exact ⟨rfl, rfl, rfl, rfl, rfl, rfl, fun hst => absurd hst h, rfl, rfl⟩

/-- The next frame starts or the clock stops; the account, the faults and the floating outputs stay, and causes and effects stay set. -/
theorem frameFollows_fields (s : State) (f : Frames) :
    (s.frameFollows f).now = s.now ∧ (∃ b, (s.frameFollows f).sup = { s.sup with started := b }) ∧ (s.frameFollows f).drv.dcb = s.drv.dcb ∧
      (∀ i, bitOf s.cause i = true → bitOf (s.frameFollows f).cause i = true) ∧ (∀ d ∈ s.later, d ∈ (s.frameFollows f).later) ∧
      (((s.frameFollows f).drv.frames = none ∧ (s.frameFollows f).drv.stopped = s.now ∧ (s.frameFollows f).drv.last = f.target ∧
          (s.pw.st = .driving → (s.frameFollows f).pw.st = .armed ∧ (s.frameFollows f).pw.armed0 = s.now)) ∨
        ∃ h, (s.frameFollows f).drv.frames = some h ∧ h.start = s.now ∧ h.prev = f.target ∧
          (s.frameFollows f).cnv.epoch = s.cnv.epoch + 1) := by
  unfold frameFollows
  split
  · obtain ⟨hnow, hsup, hdcb, hframes, hstopped, hlast, hst, hcause, hlater⟩ := s.stopClock_fields f.target
    exact ⟨hnow, ⟨_, hsup⟩, hdcb, fun _ h => hcause ▸ h, fun _ h => hlater ▸ h, .inl ⟨hframes, hstopped, hlast, hst⟩⟩
  · obtain ⟨hnow, -, -, -, hcnv, hsup, hdcb, ⟨h, hframes, hstart, hprev⟩, -, hcause, hlater⟩ := s.startFrame_fields f.target
    exact ⟨hnow, ⟨_, hsup⟩, hdcb, hcause, hlater, .inr ⟨h, hframes, hstart, hprev, by rw [hcnv]⟩⟩

/-- The whole of a frame end (R252, R276, R290). -/
theorem frameEnd_fields (s : State) (f : Frames) (a b : Nat) (bad : BitVec 292) (v : Bool) :
    ∃ x, x = (if s.runners.any Runner.boundary then (s.frameCharged f a b v).phaseBoundary f bad else s.frameCharged f a b v) ∧
      (∃ p st, (s.frameEnd f a b bad v).sup = { x.sup with
        floats := if s.runners.any Runner.phaseStarts then s.sup.floats &&& x.sup.fault else s.sup.floats, phase := p, started := st }) ∧
      (s.frameEnd f a b bad v).drv.dcb = (s.frameCharged f a b v).drv.dcb ∧
      (∀ i, bitOf x.cause i = true → bitOf (s.frameEnd f a b bad v).cause i = true) ∧
      (∀ d ∈ x.later, d ∈ (s.frameEnd f a b bad v).later) ∧ Faulted (s.frameCharged f a b v) x ∧ (s.frameEnd f a b bad v).now = s.now ∧
      (((s.frameEnd f a b bad v).drv.frames = none ∧ (s.frameEnd f a b bad v).drv.stopped = s.now ∧
          (s.frameEnd f a b bad v).drv.last = f.target ∧
          (s.pw.st = .driving → (s.frameEnd f a b bad v).pw.st = .armed ∧ (s.frameEnd f a b bad v).pw.armed0 = s.now)) ∨
        ∃ h, (s.frameEnd f a b bad v).drv.frames = some h ∧ h.start = s.now ∧ h.prev = f.target ∧
          (s.frameEnd f a b bad v).cnv.epoch = s.cnv.epoch + 1) := by
  obtain ⟨y, hchecked, hy, hfaulted⟩ := (s.frameCharged f a b v).frameChecked_eq f bad
  have hrunners : (s.frameCharged f a b v).runners = s.runners := by
    rw [frameCharged_eq]
    rfl
  have hfloats : (s.frameCharged f a b v).sup.floats = s.sup.floats := by
    rw [frameCharged_eq]
  rw [hrunners, hfloats] at hchecked
  rw [hrunners] at hy
  obtain ⟨hdriven, hcause, hlater⟩ := ((s.frameCharged f a b v).frameChecked f bad).frameStepped_framed
  obtain ⟨hnow, ⟨st, hsup⟩, hdcb, hcause', hlater', hnext⟩ := (((s.frameCharged f a b v).frameChecked f bad).frameStepped).frameFollows_fields f
  rw [← frameEnd_eq] at hnow hsup hdcb hcause' hlater' hnext
  generalize hz : ((s.frameCharged f a b v).frameChecked f bad).frameStepped = z at *
  rw [hchecked] at hdriven hcause hlater
  have hzsup := congrArg (fun t : State => { t.sup with phase := z.sup.phase }) hdriven
  have hznow : z.now = y.now := (congrArg State.now hdriven :)
  have hzpw : z.pw = y.pw := (congrArg State.pw hdriven :)
  have hzcnv : z.cnv = y.cnv := (congrArg State.cnv hdriven :)
  have hzdcb : z.drv.dcb = y.drv.dcb := (congrArg (fun t : State => t.drv.dcb) hdriven :)
  have hy0 : y.now = s.now ∧ y.pw = s.pw ∧ y.cnv = s.cnv ∧ y.drv = (s.frameCharged f a b v).drv := by
    obtain ⟨_, _, _, _, _, _, _, _, rfl⟩ := hfaulted
    rw [frameCharged_eq]
    exact ⟨rfl, rfl, rfl, rfl⟩
  obtain ⟨hynow, hypw, hycnv, hydrv⟩ := hy0
  rw [hznow, hynow, hzpw, hypw, hzcnv, hycnv] at hnext
  exact ⟨y, hy, ⟨z.sup.phase, st, hsup.trans (congrArg (fun u : Supply => { u with started := st }) hzsup)⟩,
    hdcb.trans (hzdcb.trans (congrArg Drive.dcb hydrv)), fun i h => hcause' i (hcause i h), fun d h => hlater' d (hlater d h), hfaulted,
    hnow.trans (hznow.trans hynow), hnext⟩

end State

/-! ### The end of a frame and of a dwell, and the accumulators (R252, R276, R282, R290, R363) -/

theorem frameEnd_accounts (s w : State) (dt qpos qneg : Nat) (bad : BitVec 292) (vmid : Bool) (f g : Frames) (ha : (s.arrive dt).answering = true)
    (hg : (s.arrive dt).drv.frames = some g) (hw : w = (s.arrive dt).waitUntil (g.start + g.len)) (hf : w.drv.frames = some f) :
    ∃ b : State, exec (.frameEnd dt qpos qneg bad vmid) s = .next b.settle ∧ g.start + g.len ≤ b.now ∧
      b.sup.qpos.toNat = min 262143 qpos ∧ b.sup.qneg.toNat = min 262143 qneg ∧ b.sup.vmid = vmid ∧
      b.drv.dcb = (if bitOf w.applied.drive.ctl 0 && !w.edge.dcbCleared then w.drv.dcb.mapIdx (fun n a => dcbAdd a (f.target.getD n .vcom))
        else w.drv.dcb) ∧
      ((b.drv.frames = none ∧ b.drv.stopped = w.now ∧ b.drv.last = f.target ∧ (w.pw.st = .driving → b.pw.st = .armed ∧ b.pw.armed0 = w.now)) ∨
        ∃ h, b.drv.frames = some h ∧ h.start = w.now ∧ h.prev = f.target ∧ b.cnv.epoch = w.cnv.epoch + 1) := by
  obtain ⟨x, -, ⟨p, st, hsup⟩, hdcb, -, -, hfaulted, hnow, hnext⟩ := w.frameEnd_fields f qpos qneg bad vmid
  obtain ⟨_, _, _, _, _, _, _, _, rfl⟩ := hfaulted
  have hcharged := w.frameCharged_eq f qpos qneg vmid
  have hqpos : (BitVec.ofNat 18 (min 262143 qpos)).toNat = min 262143 qpos := by
    rw [BitVec.toNat_ofNat]
    omega
  have hqneg : (BitVec.ofNat 18 (min 262143 qneg)).toNat = min 262143 qneg := by
    rw [BitVec.toNat_ofNat]
    omega
  rw [hcharged] at hdcb hsup
  refine ⟨_, exec_frameEnd ha hg hw hf qpos qneg bad vmid, ?_, ?_, ?_, ?_, hdcb, hnext⟩
  · rw [hnow, hw]
    exact State.waitUntil_reaches _ _ (State.answering_ticking ha)
  · rw [hsup]
    exact hqpos
  · rw [hsup]
    exact hqneg
  · rw [hsup]

theorem dwellEnd_ends (s : State) (dt : Nat) (f : Frames) (ha : (s.arrive dt).answering = true) (hf : (s.arrive dt).drv.frames = some f)
    (hd : f.dwell ≠ []) (hle : f.dwell0 + f.dwellLen ≤ (s.arrive dt).now) :
    exec (.dwellEnd dt) s = .next ((s.arrive dt).onDrv fun d => { d with frames := some { f with dwell := [] } }).settle := by
  have hsome : f.dwell.isEmpty = false := List.isEmpty_eq_false_iff.2 hd
  show execDwellEnd dt s = _
  unfold execDwellEnd
  refine event_body ?_
  rw [hf]
  dsimp only
  rw [ha, hsome, State.waitUntil_past _ _ hle]
  refine (if_pos rfl).trans ?_
  unfold State.onDrv
  dsimp only
  rw [hf]
  rfl

theorem dcbAdd_counts (a : BitVec 16) (h1 : -32767 < a.toInt) (h2 : a.toInt < 32767) :
    (dcbAdd a .vpos).toInt = a.toInt + 1 ∧ (dcbAdd a .vneg).toInt = a.toInt - 1 ∧
      dcbAdd a .vcom = a ∧ dcbAdd a .float = a ∧ dcbAdd a .vmid = a := by
  have hin : ¬ (a.toInt ≥ 32767 ∨ a.toInt ≤ -32767) := by omega
  have hone : (1 : BitVec 16).toInt = 1 := rfl
  unfold dcbAdd
  simp only [if_neg hin]
  refine ⟨?_, ?_, trivial, trivial, trivial⟩
  · rw [BitVec.toInt_add, hone]
    exact Int.bmod_eq_of_le (by omega) (by omega)
  · rw [BitVec.toInt_sub, hone]
    exact Int.bmod_eq_of_le (by omega) (by omega)

theorem dcbAdd_holds (a : BitVec 16) (l : Level) (h : a.toInt = 32767 ∨ a.toInt = -32767) : dcbAdd a l = a :=
  if_pos (by omega)

/-- Settles O47: the end of a frame by `State.frameEnd_fields`. -/
theorem frameEnds : Obligations.FrameEnds := by
  unfold Obligations.FrameEnds
  exact ⟨frameEnd_accounts, dwellEnd_ends, dcbAdd_counts, dcbAdd_holds⟩

end Sys2Proof.Machine

/-! SUPPORT. The level check at a phase boundary, output by output (R297, R298, R140). The proof of O48. -/

namespace Sys2Proof.Machine

open Sys2Proof.Safety

/-! ### One output's fault -/

theorem outBit_getLsbD (m k : OutNo) : (outBit m).getLsbD k.val = decide (m = k) := by
  unfold outBit
  rw [BitVec.getLsbD_ofNat, decide_eq_true k.isLt, Bool.true_and, Nat.testBit_two_pow]
  exact decide_eq_decide.2 Fin.ext_iff.symm

namespace State

/-- The partner depends on what the rings run and on the applied pairs. -/
theorem partner_of_faulted {s t : State} (h : Faulted s t) (m : OutNo) : t.partner m = s.partner m := by
  obtain ⟨_, _, _, _, _, _, _, _, rfl⟩ := h
  rfl

/-- The two outputs of a pair are each other's partner. -/
theorem partner_val {s : State} {m p : OutNo} (h : s.partner m = some p) :
    m.val < 288 ∧ p.val = if m.val % 2 = 0 then m.val + 1 else m.val - 1 := by
  unfold partner at h
  split at h
  next hc =>
    obtain ⟨hlt, -⟩ := hc
    refine ⟨hlt, ?_⟩
    rw [← Option.some.inj h]
    show (_ : Nat) % 292 = _
    split <;> omega
  next => cases h

theorem partner_partner {s : State} {m p q : OutNo} (h : s.partner m = some p) (h' : s.partner p = some q) : q = m := by
  obtain ⟨hm, hp⟩ := partner_val h
  obtain ⟨-, hq⟩ := partner_val h'
  refine Fin.ext ?_
  split at hp <;> split at hq <;> omega

theorem markFault_fields (s : State) (m : OutNo) :
    (s.markFault m).sup.fault = s.sup.fault ||| outBit m ∧ bitOf (s.markFault m).cause 4 = true ∧
      Deferred.floatFaulted ∈ (s.markFault m).later := by
  unfold markFault
  dsimp only
  obtain ⟨e, n, k, heq⟩ := count_eq { s with
    sup := { s.sup with fault := s.sup.fault ||| outBit m }, edge := { s.edge with fault := s.edge.fault ||| outBit m } } .outFault
  rw [heq]
  exact ⟨rfl, setCause_bit _ (by decide), List.mem_append_right _ (List.mem_singleton_self _)⟩

/-- A log entry leaves the faults and the effects, and keeps the causes. -/
theorem log_faults (s : State) (code detail : Nat) (n : RingNo) (i : Nat) :
    (s.log_ code detail n i).sup = s.sup ∧ (s.log_ code detail n i).later = s.later := by
  obtain ⟨e, l, o, k, heq⟩ := s.log_eq code detail n i
  rw [heq]
  exact ⟨rfl, rfl⟩

/-- An output that has its fault already changes nothing; otherwise it and its partner are faulted, with the cause and the edge on which they
float. -/
theorem outputFault_fields (s : State) (d : Nat) (m : OutNo) (h : s.sup.fault.getLsbD m.val = false) :
    (∀ k : OutNo, (s.outputFault d m).sup.fault.getLsbD k.val = (s.sup.fault.getLsbD k.val || decide (m = k) || decide (s.partner m = some k))) ∧
      bitOf (s.outputFault d m).cause 4 = true ∧ Deferred.floatFaulted ∈ (s.outputFault d m).later := by
  obtain ⟨hfault, hcause, hlater⟩ := s.markFault_fields m
  obtain ⟨hsup, hlog⟩ := (s.markFault m).log_faults 0x20 d 0 m.val
  have hgrows := ((s.markFault m).log_adds 0x20 d 0 m.val).1 4 hcause
  have hpartner : ((s.markFault m).log_ 0x20 d 0 m.val).partner m = s.partner m :=
    partner_of_faulted ((s.markFault_faulted m).trans (log_faulted _ _ _ _ _)) m
  unfold outputFault
  rw [h, if_neg Bool.false_ne_true]
  dsimp only
  rw [hpartner]
  generalize hx : (s.markFault m).log_ 0x20 d 0 m.val = x at *
  have hbit (k : OutNo) : x.sup.fault.getLsbD k.val = (s.sup.fault.getLsbD k.val || decide (m = k)) := by
    rw [hsup, hfault, BitVec.getLsbD_or, outBit_getLsbD]
  rw [← hlog] at hlater
  cases s.partner m with
  | none => exact ⟨fun k => (hbit k).trans (by simp), hgrows, hlater⟩
  | some p =>
    dsimp only
    split
    next hp =>
      refine ⟨fun k => ?_, hgrows, hlater⟩
      rw [hbit]
      by_cases hk : p = k
      · subst hk
        rw [← hbit, hp]
        rfl
      · simp [hk]
    next hp =>
      obtain ⟨hfault', hcause', hlater'⟩ := x.markFault_fields p
      obtain ⟨hsup', hlog'⟩ := (x.markFault p).log_faults 0x20 d 0 p.val
      refine ⟨fun k => ?_, ((x.markFault p).log_adds 0x20 d 0 p.val).1 4 hcause', ?_⟩
      · rw [hsup', hfault', BitVec.getLsbD_or, hbit, outBit_getLsbD]
        simp
      · rw [hlog']
        exact hlater'

theorem outputFault_idle (s : State) (d : Nat) (m : OutNo) (h : s.sup.fault.getLsbD m.val = true) : s.outputFault d m = s := if_pos h

end State

/-! ### All outputs (R297, R298) -/

/-- The comparators show output m off its level, where it is not on VMID and does not float. -/
def offLevel (f : Frames) (bad : BitVec 292) (m : OutNo) : Bool :=
  bad.getLsbD m.val && !f.dwell.contains m && decide (f.target.getD m.val .vcom ≠ .float)

theorem offLevel_iff {f : Frames} {bad : BitVec 292} {m : OutNo} :
    offLevel f bad m = true ↔ bad.getLsbD m.val = true ∧ m ∉ f.dwell ∧ f.target.getD m.val .vcom ≠ .float := by
  unfold offLevel
  simp [and_assoc]

/-- The check of one output. -/
def checkOutput (f : Frames) (bad : BitVec 292) (s : State) (m : OutNo) : State := if offLevel f bad m then s.outputFault 2 m else s

/-- From s, faults have only come, each with its partner's, with the cause and with the edge on which it floats. -/
structure FaultsFrom (s t : State) : Prop where
  rest : Faulted s t
  keeps : ∀ k : OutNo, s.sup.fault.getLsbD k.val = true → t.sup.fault.getLsbD k.val = true
  pair : ∀ m p : OutNo, t.sup.fault.getLsbD m.val = true → s.sup.fault.getLsbD m.val = false → s.partner m = some p →
    t.sup.fault.getLsbD p.val = true
  notes : ∀ m : OutNo, t.sup.fault.getLsbD m.val = true → s.sup.fault.getLsbD m.val = false →
    bitOf t.cause 4 = true ∧ Deferred.floatFaulted ∈ t.later

theorem FaultsFrom.refl (s : State) : FaultsFrom s s where
  rest := .refl s
  keeps _ h := h
  pair m _ h h' := absurd h (by rw [h']; decide)
  notes m h h' := absurd h (by rw [h']; decide)

theorem FaultsFrom.outputFault {s t : State} (h : FaultsFrom s t) (d : Nat) (m : OutNo) : FaultsFrom s (t.outputFault d m) := by
  cases hm : t.sup.fault.getLsbD m.val with
  | true =>
    rw [t.outputFault_idle d m hm]
    exact h
  | false =>
    obtain ⟨hbit, hcause, hlater⟩ := t.outputFault_fields d m hm
    have hpartner := State.partner_of_faulted h.rest m
    rw [hpartner] at hbit
    refine ⟨h.rest.trans (t.outputFault_faulted d m), fun k hk => ?_, fun k p hk hk' hp => ?_, fun _ _ _ => ⟨hcause, hlater⟩⟩
    · rw [hbit, h.keeps k hk]
      rfl
    · rw [hbit] at hk ⊢
      simp only [Bool.or_eq_true, decide_eq_true_eq] at hk ⊢
      obtain (hk | rfl) | hk := hk
      · exact .inl (.inl (h.pair k p hk hk' hp))
      · exact .inr hp
      · exact .inl (.inr (State.partner_partner hk hp).symm)

theorem FaultsFrom.check {s t : State} (h : FaultsFrom s t) (f : Frames) (bad : BitVec 292) (m : OutNo) :
    FaultsFrom s (checkOutput f bad t m) := by
  unfold checkOutput
  split
  · exact h.outputFault 2 m
  · exact h

/-- An output off its level is faulted, by its own check or already. -/
theorem checkOutput_faults {f : Frames} {bad : BitVec 292} {m : OutNo} (h : offLevel f bad m = true) (t : State) :
    (checkOutput f bad t m).sup.fault.getLsbD m.val = true := by
  unfold checkOutput
  rw [h, if_pos rfl]
  cases hm : t.sup.fault.getLsbD m.val with
  | true => rw [t.outputFault_idle 2 m hm, hm]
  | false =>
    rw [(t.outputFault_fields 2 m hm).1]
    simp

/-- A fault stays through the checks. -/
theorem checkOutput_keeps (f : Frames) (bad : BitVec 292) (t : State) (m k : OutNo) (h : t.sup.fault.getLsbD k.val = true) :
    (checkOutput f bad t m).sup.fault.getLsbD k.val = true := ((FaultsFrom.refl t).check f bad m).keeps k h

/-- The checks of all outputs of a list. -/
def checkOutputs (f : Frames) (bad : BitVec 292) (l : List OutNo) (s : State) : State := l.foldl (checkOutput f bad) s

theorem checkOutputs_from (f : Frames) (bad : BitVec 292) (l : List OutNo) (s : State) : FaultsFrom s (checkOutputs f bad l s) :=
  List.foldlRecOn (motive := FaultsFrom s) l _ (.refl s) fun _ ht m _ => ht.check f bad m

theorem checkOutputs_faults {f : Frames} {bad : BitVec 292} {m : OutNo} (h : offLevel f bad m = true) (l : List OutNo) (s : State)
    (hm : m ∈ l ∨ s.sup.fault.getLsbD m.val = true) : (checkOutputs f bad l s).sup.fault.getLsbD m.val = true := by
  induction l generalizing s with
  | nil => exact hm.resolve_left List.not_mem_nil
  | cons k l ih =>
    refine ih _ ?_
    obtain hm | hm := hm
    · obtain rfl | hm := List.mem_cons.1 hm
      · exact .inr (checkOutput_faults h s)
      · exact .inl hm
    · exact .inr (checkOutput_keeps f bad s k m hm)

/-- What is not found, nor the partner of one found, keeps its bit (R298). -/
theorem checkOutputs_keeps {f : Frames} {bad : BitVec 292} {k : OutNo} {s : State}
    (h : ∀ m : OutNo, m = k ∨ s.partner m = some k → offLevel f bad m = false) (l : List OutNo) :
    (checkOutputs f bad l s).sup.fault.getLsbD k.val = s.sup.fault.getLsbD k.val := by
  refine (List.foldlRecOn (motive := fun t => Faulted s t ∧ t.sup.fault.getLsbD k.val = s.sup.fault.getLsbD k.val) l _
    ⟨.refl s, rfl⟩ fun t ht m _ => ?_).2
  obtain ⟨hrest, hk⟩ := ht
  unfold checkOutput
  split
  next hoff =>
    refine ⟨hrest.trans (t.outputFault_faulted 2 m), ?_⟩
    cases hm : t.sup.fault.getLsbD m.val with
    | true => rw [t.outputFault_idle 2 m hm, hk]
    | false =>
      have hself : m ≠ k := fun e => absurd hoff (by rw [h m (.inl e)]; decide)
      have hother : s.partner m ≠ some k := fun e => absurd hoff (by rw [h m (.inr e)]; decide)
      rw [(t.outputFault_fields 2 m hm).1, State.partner_of_faulted hrest, hk]
      simp [hself, hother]
  next => exact ⟨hrest, hk⟩

/-- Where one output alone is off its level, its check is all there is. -/
theorem checkOutputs_single {f : Frames} {bad : BitVec 292} {m : OutNo} (h : ∀ k : OutNo, k ≠ m → offLevel f bad k = false) (l : List OutNo)
    (hl : l.Nodup) (s : State) : checkOutputs f bad l s = if m ∈ l then checkOutput f bad s m else s := by
  induction l generalizing s with
  | nil => rfl
  | cons k l ih =>
    obtain ⟨hk, hl⟩ := List.nodup_cons.1 hl
    show checkOutputs f bad l (checkOutput f bad s k) = _
    rw [ih hl]
    by_cases hkm : k = m
    · subst hkm
      rw [if_neg hk, if_pos List.mem_cons_self]
    · have hidle : checkOutput f bad s k = s := if_neg (by rw [h k hkm]; decide)
      rw [hidle]
      refine if_congr ?_ rfl rfl
      rw [List.mem_cons]
      exact ⟨.inr, fun h => h.resolve_left (Ne.symm hkm)⟩

theorem phaseBoundary_checks {s : State} (f : Frames) (bad : BitVec 292) (h : s.sup.noCheck = false) :
    s.phaseBoundary f bad = checkOutputs f bad (List.finRange 292) s := if_neg (by rw [h]; decide)

/-- A check that falls into foldback, or is the first after it, finds nothing (R299). -/
theorem phaseBoundary_skips {s : State} (f : Frames) (bad : BitVec 292) (h : s.sup.noCheck = true) :
    (s.phaseBoundary f bad).sup.fault = s.sup.fault ∧ (s.phaseBoundary f bad).log = s.log ∧
      (s.phaseBoundary f bad).sup.noCheck = s.sup.foldback := by
  unfold State.phaseBoundary
  rw [h, if_pos rfl]
  cases hf : s.sup.foldback with
  | true =>
    rw [if_pos rfl]
    exact ⟨rfl, rfl, h⟩
  | false =>
    rw [if_neg Bool.false_ne_true]
    exact ⟨rfl, rfl, rfl⟩

theorem phaseBoundary_finds (s t : State) (f : Frames) (bad : BitVec 292) (ht : t = s.phaseBoundary f bad) (h : s.sup.noCheck = false) :
    (∀ m : OutNo, bad.getLsbD m.val = true → m ∉ f.dwell → f.target.getD m.val .vcom ≠ .float → t.sup.fault.getLsbD m.val = true ∧
      (∀ p, s.partner m = some p → s.sup.fault.getLsbD m.val = false → t.sup.fault.getLsbD p.val = true) ∧
      (s.sup.fault.getLsbD m.val = false → bitOf t.cause 4 = true ∧ Deferred.floatFaulted ∈ t.later) ∧
      (bad = outBit m → s.sup.fault.getLsbD m.val = false → s.partner m = none → t = (s.markFault m).log_ 0x20 2 0 m.val)) ∧
      (∀ k : OutNo, (∀ m : OutNo, m = k ∨ s.partner m = some k →
          bad.getLsbD m.val = false ∨ m ∈ f.dwell ∨ f.target.getD m.val .vcom = .float) →
        t.sup.fault.getLsbD k.val = s.sup.fault.getLsbD k.val) := by
  rw [phaseBoundary_checks f bad h] at ht
  subst ht
  have hfrom := checkOutputs_from f bad (List.finRange 292) s
  constructor
  · intro m hbad hdwell hfloat
    have hoff : offLevel f bad m = true := offLevel_iff.2 ⟨hbad, hdwell, hfloat⟩
    have hset := checkOutputs_faults hoff (List.finRange 292) s (.inl (List.mem_finRange m))
    refine ⟨hset, fun p hp hm => hfrom.pair m p hset hm hp, hfrom.notes m hset, fun hone hm hp => ?_⟩
    have hothers (k : OutNo) (hk : k ≠ m) : offLevel f bad k = false := by
      unfold offLevel
      rw [hone, outBit_getLsbD, decide_eq_false (Ne.symm hk)]
      rfl
    rw [checkOutputs_single hothers _ (List.nodup_finRange 292), if_pos (List.mem_finRange m), checkOutput, if_pos hoff]
    have hpartner : ((s.markFault m).log_ 0x20 2 0 m.val).partner m = none :=
      (State.partner_of_faulted ((s.markFault_faulted m).trans (State.log_faulted _ _ _ _ _)) m).trans hp
    unfold State.outputFault
    rw [hm, if_neg Bool.false_ne_true]
    dsimp only
    rw [hpartner]
  · intro k hk
    refine checkOutputs_keeps (fun m hm => ?_) _
    refine Bool.eq_false_iff.2 fun hoff => ?_
    obtain ⟨hbad, hdwell, hfloat⟩ := offLevel_iff.1 hoff
    obtain h | h | h := hk m hm
    · exact absurd hbad (by rw [h]; decide)
    · exact hdwell h
    · exact hfloat h

/-! ### At the end of a frame -/

theorem frameEnd_checks (s w : State) (dt qpos qneg : Nat) (bad : BitVec 292) (vmid : Bool) (f g : Frames) (ha : (s.arrive dt).answering = true)
    (hg : (s.arrive dt).drv.frames = some g) (hw : w = (s.arrive dt).waitUntil (g.start + g.len)) (hf : w.drv.frames = some f) :
    ∃ b : State, exec (.frameEnd dt qpos qneg bad vmid) s = .next b.settle ∧
      (w.runners.any Runner.boundary = false → b.sup.fault = w.sup.fault ∧ b.sup.noCheck = w.sup.noCheck) ∧
      (w.runners.any Runner.boundary = true → w.sup.noCheck = false → ∀ m : OutNo, bad.getLsbD m.val = true → m ∉ f.dwell →
        f.target.getD m.val .vcom ≠ .float → b.sup.fault.getLsbD m.val = true ∧
        (w.sup.fault.getLsbD m.val = false → bitOf b.cause 4 = true ∧ Deferred.floatFaulted ∈ b.later)) ∧
      b.sup.floats = (if w.runners.any Runner.phaseStarts then w.sup.floats &&& b.sup.fault else w.sup.floats) := by
  obtain ⟨x, hx, ⟨p, st, hsup⟩, -, hcause, hlater, -, -, -⟩ := w.frameEnd_fields f qpos qneg bad vmid
  have hcharged : (w.frameCharged f qpos qneg vmid).sup.fault = w.sup.fault ∧
      (w.frameCharged f qpos qneg vmid).sup.noCheck = w.sup.noCheck := by
    rw [State.frameCharged_eq]
    exact ⟨rfl, rfl⟩
  obtain ⟨hfault, hno⟩ := hcharged
  refine ⟨_, exec_frameEnd ha hg hw hf qpos qneg bad vmid, fun hb => ?_, fun hb hn m hbad hdwell hfloat => ?_, ?_⟩
  · rw [hb, if_neg Bool.false_ne_true] at hx
    rw [hsup, hx]
    exact ⟨hfault, hno⟩
  · rw [hb, if_pos rfl] at hx
    obtain ⟨hset, -, hnotes, -⟩ := (phaseBoundary_finds _ x f bad hx (hno.trans hn)).1 m hbad hdwell hfloat
    rw [hfault] at hnotes
    refine ⟨by rw [hsup]; exact hset, fun hm => ?_⟩
    obtain ⟨h4, hl⟩ := hnotes hm
    exact ⟨hcause 4 h4, hlater _ hl⟩
  · rw [hsup]

/-- Settles O48: the checks of all outputs by `FaultsFrom`, their place in a frame end by `State.frameEnd_fields`. -/
theorem levelCheck : Obligations.LevelCheck := by
  unfold Obligations.LevelCheck
  exact ⟨fun s t f bad ht => ⟨fun h => ht ▸ phaseBoundary_skips f bad h, phaseBoundary_finds s t f bad ht⟩, frameEnd_checks⟩

end Sys2Proof.Machine

/-! SUPPORT. The immediate discharge, whatever the rails do (R75, R295, R318, Table 2.9). The proof of O56. -/

namespace Sys2Proof.Machine

open Sys2Proof.Safety

/-- Rails that discharge at once, and outputs that nothing drives. -/
def State.DischargesAtOnce (s : State) : Prop :=
  s.sup.phase = .fast ∧ s.sup.railsUp = true ∧ s.sup.switching = false ∧ s.sup.limited = [] ∧ s.sup.foldback = false ∧
    s.sup.regulated = false ∧ s.drv.frames = none ∧ s.sup.toHeld = false

/-- A sequencing that has ended. -/
def State.SequencedOff (s : State) : Prop := s.sup.phase = .off ∧ s.sup.railsUp = false

/-- What the immediate discharge has made of the rails, of t, after what was in progress in s. -/
def State.RailsCut (s t : State) : Prop :=
  (s.sup.rampBegun = true → t.DischargesAtOnce) ∧
    ∀ k, s.sup.railsUp = true → s.sup.phase = .sequencing k → t.SequencedOff

/-- Only the rails and the outputs count. -/
theorem State.RailsCut.congr {s t t' : State} (h : s.RailsCut t) (hsup : t'.sup = t.sup) (hdrv : t'.drv = t.drv) : s.RailsCut t' := by
  unfold State.RailsCut State.DischargesAtOnce State.SequencedOff at *
  rw [hsup, hdrv]
  exact h

theorem State.RailsCut.of_sup {s s' t : State} (h : s.RailsCut t) (hsup : s.sup = s'.sup) : s'.RailsCut t := by
  unfold State.RailsCut at *
  rw [← hsup]
  exact h

theorem State.fastDischarge_cut (s : State) : s.RailsCut s.fastDischarge := by
  refine ⟨fun h => ?_, fun k => State.fastDischarge_sequencing⟩
  obtain ⟨hphase, hup⟩ := State.fastDischarge_begun h
  have hrest : s.fastDischarge.sup.limited = [] ∧ s.fastDischarge.sup.foldback = false ∧ s.fastDischarge.sup.regulated = false ∧
      s.fastDischarge.sup.toHeld = false := by
    unfold Supply.rampBegun at h
    obtain ⟨hup, hbegun⟩ := Bool.and_eq_true_iff.1 h
    have hdrv (f : Drive → Drive) : (s.onDrv f).sup = s.sup := rfl
    unfold State.fastDischarge
    dsimp only
    rw [hdrv, if_neg (by rw [hup]; decide)]
    split
    next heq => rw [heq] at hbegun; cases hbegun
    next heq => rw [heq] at hbegun; cases hbegun
    next => exact ⟨rfl, rfl, rfl, rfl⟩
  obtain ⟨hlimited, hfold, hreg, hheld⟩ := hrest
  exact ⟨hphase, hup, by rw [Supply.switching, hphase], hlimited, hfold, hreg, s.fastDischarge_frames, hheld⟩

theorem State.cutPower_cut (s : State) (c : Cut) : s.RailsCut (s.cutPower c) := by
  have h := (s.interruptAll c).fastDischarge_cut
  obtain ⟨r, o, hcut⟩ := s.interruptAll_eq c
  unfold State.cutPower
  rw [hcut] at h ⊢
  exact h

/-- A clock loss: the bus and the replay that it ends are not the rails'. -/
theorem State.lost_cut {s : State} (h : s.sup.railsUp = true) : s.RailsCut s.lost := by
  obtain ⟨-, -, -, hsup, -⟩ := s.unclocked_fields
  have hcut := (s.unclocked.cutPower_cut .clockLoss).of_sup hsup
  have hlost : s.lost = (s.unclocked.cutPower .clockLoss).setStatus (bitMask 0) := if_pos h
  rw [hlost]
  generalize s.unclocked.cutPower .clockLoss = x at *
  exact hcut.congr rfl rfl

/-- A trip: nor are the replay and the barriers. -/
theorem State.shutDown_cut {s : State} (h : s.sup.railsUp = true) : s.RailsCut s.shutDown := by
  have htrip : s.tripped = (s.cutPower .shutdown).setStatus (bitMask 1) := by
    unfold State.tripped
    rw [h, Bool.true_or, if_pos rfl]
  have hcut : s.RailsCut s.tripped := by
    rw [htrip]
    exact (s.cutPower_cut .shutdown).congr rfl rfl
  unfold State.shutDown
  split
  · exact hcut
  · obtain ⟨j, m, hstop, -⟩ := s.tripped.replayStopped_eq
    obtain ⟨r, hdrop⟩ := s.tripped.replayStopped.dropBarriers_eq
    rw [hdrop, hstop]
    exact hcut.congr rfl rfl

/-- The synchronous side of an undervoltage leaves the outputs. -/
theorem State.uvloSync_drv (s : State) (hit : Bool) : (s.uvloSync hit).drv = s.drv ∧ (s.uvloSync hit).sup = s.sup := by
  cases hit with
  | false => exact ⟨rfl, rfl⟩
  | true =>
    obtain ⟨-, -, -, hsup, -⟩ := s.uvloSync_fields
    refine ⟨?_, hsup⟩
    rw [State.uvloSync_hit, drv_of_aloof s.uvloNoted.uvloTurn_aloof]
    unfold State.uvloNoted
    rw [drv_of_aloof (State.abandonCut_aloof _ _)]
    obtain ⟨r, hdrop⟩ := ((s.setCause (bitMask 12)).log_ 8 0 0 0).dropBarriers_eq
    obtain ⟨e, l, o, k, hlog⟩ := (s.setCause (bitMask 12)).log_eq 8 0 0 0
    rw [hdrop, hlog]
    rfl

/-- An undervoltage, seen on an HCK edge or before the next one. -/
theorem uvloAssert_cut (s : State) (dt : Nat) (hu : (s.arrive dt).pw.uvlo = false) (hheld : (s.arrive dt).heldInReset = false)
    (h : (s.arrive dt).sup.rampBegun = true) : ∃ b : State, exec (.uvloAssert dt) s = .next b.settle ∧ b.DischargesAtOnce := by
  have hexec := exec_uvloAssert hu hheld
  have hcut : ((s.arrive dt).uvloHigh.uvloCut (s.arrive dt).sup.rampBegun).DischargesAtOnce := by
    rw [h]
    exact ((s.arrive dt).uvloHigh.cutPower_cut .uvlo).1 h
  generalize (s.arrive dt).uvloHigh.uvloCut (s.arrive dt).sup.rampBegun = x at *
  cases ht : (s.arrive dt).ticking with
  | false =>
    rw [ht, if_neg Bool.false_ne_true] at hexec
    exact ⟨_, hexec, hcut⟩
  | true =>
    rw [ht, if_pos rfl] at hexec
    refine ⟨_, hexec, ?_⟩
    obtain ⟨hdrv, hsup⟩ := x.uvloSync_drv (s.arrive dt).sup.rampBegun
    unfold State.DischargesAtOnce at *
    rw [hdrv, hsup]
    exact hcut

/-- Settles O56: a clock loss by `State.lost_cut`, a trip by `State.shutDown_cut`, an undervoltage by `uvloAssert_cut`. -/
theorem immediateDischarge : Obligations.ImmediateDischarge := by
  unfold Obligations.ImmediateDischarge
  rintro s w dt c hheld (⟨rfl, rfl, hon⟩ | ⟨rfl, rfl, hsd⟩ | ⟨rfl, rfl, hu⟩)
  · have hcut := State.lost_cut (s := (s.arrive dt).closeEdge.hckLow)
    have hstand : (s.arrive dt).closeEdge.hckLow.lost.ticking = false := State.ticking_unclocked (State.lost_fields _).1
    exact ⟨_, (exec_clockLoss hon hheld).trans (congrArg _ (State.settle_standing hstand).symm), fun h => (hcut (Bool.and_eq_true_iff.1 h).1).1 h, fun k hup hk _ => (hcut hup).2 k hup hk⟩
  · have hcut := State.shutDown_cut (s := (s.arrive dt).sdHigh)
    exact ⟨_, exec_shutdownTrip hsd hheld, fun h => (hcut (Bool.and_eq_true_iff.1 h).1).1 h, fun k hup hk _ => (hcut hup).2 k hup hk⟩
  · cases hb : (s.arrive dt).sup.rampBegun with
    | true =>
      obtain ⟨b, hexec, hcut⟩ := uvloAssert_cut s dt hu hheld hb
      exact ⟨b, hexec, fun _ => hcut, fun k _ _ h => absurd rfl h⟩
    | false =>
      obtain ⟨b, hexec, -⟩ := uvloAssert_acts s dt hu hheld
      exact ⟨b, hexec, nofun, fun k _ _ h => absurd rfl h⟩

end Sys2Proof.Machine

/-! SUPPORT. The energy accumulator (R141, R291), the sequencing and the ramp (R286). The proofs of O55 and O50. -/

namespace Sys2Proof.Machine

open Sys2Proof.Safety

/-! ### Energy -/

theorem State.addEnergy_sup (s : State) (pj : Nat) :
    (s.addEnergy pj).sup.energy = BitVec.ofNat 36 (s.sup.energy.toNat + (s.sup.energyRem + pj) / 1000000) ∧
      (s.addEnergy pj).sup.energyRem = (s.sup.energyRem + pj) % 1000000 := ⟨rfl, rfl⟩

/-- What is drawn is in the remainder, in SUP_ENERGY, or in its wraps. -/
theorem State.addEnergy_total (s : State) (pj : Nat) :
    (s.addEnergy pj).sup.energyRem + 1000000 * ((s.addEnergy pj).sup.energy.toNat + 2 ^ 36 *
        ((s.sup.energy.toNat + (s.sup.energyRem + pj) / 1000000) / 2 ^ 36)) =
      s.sup.energyRem + 1000000 * s.sup.energy.toNat + pj := by
  obtain ⟨henergy, hrem⟩ := s.addEnergy_sup pj
  rw [henergy, hrem, BitVec.toNat_ofNat]
  omega

theorem State.addEnergy_wraps (s : State) (pj : Nat) (h : 2 ^ 36 ≤ s.sup.energy.toNat + (s.sup.energyRem + pj) / 1000000) :
    bitOf (s.addEnergy pj).cause 15 = true ∧
      (s.addEnergy pj).sup.wraps = satAdd 0xFF s.sup.wraps ((s.sup.energy.toNat + (s.sup.energyRem + pj) / 1000000) / 2 ^ 36) := by
  have hw : ¬ (s.sup.energy.toNat + (s.sup.energyRem + pj) / 1000000) / 2 ^ 36 = 0 := by omega
  refine ⟨?_, rfl⟩
  unfold State.addEnergy
  dsimp only
  rw [if_neg hw]
  exact setCause_bit _ (by decide)

/-- A value written to SUP_ENERGY receives the edge's increment (R119). -/
theorem State.writeEnergy_sum (s : State) (v : Word) : (s.writeEnergy v).sup.energy = v + BitVec.ofNat 36 s.edge.energy := by
  have hsum : BitVec.ofNat 36 (v.toNat + s.edge.energy) = v + BitVec.ofNat 36 s.edge.energy := by
    rw [BitVec.ofNat_add, BitVec.ofNat_toNat, BitVec.setWidth_eq]
  refine Eq.trans ?_ hsum
  unfold State.writeEnergy
  dsimp only
  split <;> rfl

theorem State.writeEnergy_wraps (s : State) (v : Word) (h : 2 ^ 36 ≤ v.toNat + s.edge.energy) :
    bitOf (s.writeEnergy v).cause 15 = true ∧
      (s.writeEnergy v).sup.wraps = satAdd 0xFF (s.edge.wraps0.getD s.sup.wraps) ((v.toNat + s.edge.energy) / 2 ^ 36) := by
  unfold State.writeEnergy
  dsimp only
  rw [if_neg (by omega)]
  exact ⟨setCause_bit _ (by decide), rfl⟩

/-- Settles O55. -/
theorem energyAccumulates : Obligations.EnergyAccumulates := by
  unfold Obligations.EnergyAccumulates
  refine ⟨fun s dt pj ht hst => ?_, fun s => rfl, fun s pj => ⟨s.addEnergy_total pj, rfl, rfl, s.addEnergy_wraps pj⟩,
    fun s v => ⟨s.writeEnergy_sum v, s.writeEnergy_wraps v⟩⟩
  have hbody : exec (.energyWrap dt pj) s = event dt (fun s => if s.ticking && decide (s.pw.st ≠ .dormant) then s.addEnergy pj else s) s := rfl
  rw [hbody]
  exact event_body (if_pos (by rw [ht, decide_eq_true hst]; rfl))

/-! ### Sequencing -/

theorem State.takeTargets_targets (s : State) :
    (s.takeTargets.sup.vpos, s.takeTargets.sup.vneg, s.takeTargets.sup.vcom) = s.railTargets := rfl

theorem sequencingStart_begins (s : State) (dt : Nat) (h : (s.arrive dt).maySequence = true) :
    ∃ b : State, exec (.sequencingStart dt) s = .next b.settle ∧ b.sup.railsUp = true ∧
      b.sup.phase = .sequencing (s.arrive dt).now ∧ (b.sup.vpos, b.sup.vneg, b.sup.vcom) = b.railTargets := by
  have hbody : exec (.sequencingStart dt) s = event dt (fun s => if s.maySequence then
      s.completeSupply.takeTargets.onSup fun u => { u with phase := .sequencing s.now, railsUp := true, toHeld := false } else s) s := rfl
  refine ⟨_, hbody.trans (event_body (if_pos h)), rfl, rfl, ?_⟩
  generalize (s.arrive dt).completeSupply = x
  exact x.takeTargets_targets

/-! ### The ramp -/

theorem rampStart_begins (s w : State) (dt k : Nat) (ha : (s.arrive dt).answering = true) (hk : (s.arrive dt).sup.phase = .sequencing k)
    (hw : w = (s.arrive dt).waitUntil (k + 16)) (hwk : w.sup.phase = .sequencing k) (hd : Deferred.dropSequencing ∉ w.later) :
    ∃ b : State, exec (.rampStart dt) s = .next b.settle ∧ k + 16 ≤ b.now ∧
      b.sup.phase = .ramp w.now (max w.railTargets.1 w.railTargets.2.1) ∧ b.sup.tpos = 0 ∧ b.sup.tneg = 0 ∧ b.sup.dac = 0 ∧
      b.sup.started = false ∧ b.sup.vposOk = false ∧ b.sup.vnegOk = false ∧ b.sup.vcomOk = decide (w.sup.vcom.natAbs ≤ 4) := by
  have hnow : k + 16 ≤ w.now := hw ▸ State.waitUntil_reaches _ _ (State.answering_ticking ha)
  have hdrop : w.later.contains .dropSequencing = false := by simpa using hd
  have hexec : exec (.rampStart dt) s = .next w.beginRamp.settle := by
    show execRampStart dt s = _
    unfold execRampStart
    refine event_body ?_
    rw [hk]
    dsimp only
    rw [if_pos ha, ← hw, if_pos (by rw [hwk, decide_eq_true rfl, hdrop]; rfl)]
  exact ⟨_, hexec, hnow, rfl, rfl, rfl, rfl, rfl, rfl, rfl, rfl⟩

/-- The report of the rails changes the status bits alone. -/
theorem State.sense_eq (s : State) (ok : BitVec 3) : s.sense ok = s ∨ s.sense ok = s.senseOk ok := by
  unfold State.sense
  split
  · split
    · exact .inl rfl
    · exact .inr rfl
  · exact .inr rfl
  · exact .inr rfl
  · exact .inl rfl

/-- While the converter switches, the bits are reported, but for all three at once within a ramp (log 23). -/
theorem State.sense_reports {s : State} {ok : BitVec 3} (hs : s.sup.switching = true)
    (h : s.sup.phase = .up ∨ (∃ p n j, s.sup.phase = .discharge p n j) ∨ ok ≠ 7) : s.sense ok = s.senseOk ok := by
  unfold Supply.switching at hs
  unfold State.sense
  generalize s.sup.phase = p at *
  cases p with
  | ramp k c =>
    obtain h | ⟨_, _, _, h⟩ | h := h
    · cases h
    · cases h
    · exact if_neg h
  | up => rfl
  | discharge _ _ _ => rfl
  | off => cases hs
  | sequencing k => cases hs
  | bleed => cases hs
  | fast => cases hs

theorem Supply.switching_of_ramps {u : Supply} (h : u.ramps = true) : u.switching = true := by
  unfold Supply.ramps at h
  unfold Supply.switching
  split at h
  next hp => rw [hp]
  next hp => rw [hp]
  next => cases h

/-- The report leaves everything but the status bits. -/
theorem State.sense_fields (s : State) (ok : BitVec 3) :
    ∃ a b c, s.sense ok = { s with sup := { s.sup with vposOk := a, vnegOk := b, vcomOk := c } } := by
  obtain h | h := s.sense_eq ok <;> rw [h] <;> exact ⟨_, _, _, rfl⟩

theorem exec_rampStep_dac {s w : State} {dt : Nat} {ok : BitVec 3} (ha : (s.arrive dt).answering = true) (hr : (s.arrive dt).sup.ramps = true)
    (hd : (s.arrive dt).sup.dac ≠ (s.arrive dt).sup.vcom) (hw : w = (s.arrive dt).waitUntil ((s.arrive dt).sup.dac0 + 8))
    (hwr : w.sup.ramps = true) : exec (.rampStep dt true ok) s = .next (w.dacStep.sense ok).settle := by
  show execRampStep dt true ok s = _
  unfold execRampStep
  refine event_body ?_
  rw [ha, hr, ← hw]
  simp only [Bool.and_self, if_true, if_neg hd, hwr]

theorem exec_rampStep_rails {s w : State} {dt : Nat} {ok : BitVec 3} (ha : (s.arrive dt).answering = true)
    (hr : (s.arrive dt).sup.ramps = true)
    (hd : (s.arrive dt).sup.tpos < 160 + (s.arrive dt).sup.vpos ∨ (s.arrive dt).sup.tneg < 160 + (s.arrive dt).sup.vneg)
    (hw : w = (s.arrive dt).waitUntil ((s.arrive dt).sup.rail0 + 128)) (hwr : w.sup.ramps = true) :
    exec (.rampStep dt false ok) s = .next (w.railStep.sense ok).settle := by
  have hrest : ¬ (160 + (s.arrive dt).sup.vpos ≤ (s.arrive dt).sup.tpos ∧ 160 + (s.arrive dt).sup.vneg ≤ (s.arrive dt).sup.tneg) := by omega
  show execRampStep dt false ok s = _
  unfold execRampStep
  refine event_body ?_
  rw [ha, hr, ← hw]
  simp only [Bool.and_self, if_true, Bool.false_eq_true, if_false, if_neg hrest, hwr]

/-- Settles O50: `sequencingStart_begins`, `rampStart_begins`, and one step of each kind with its report (`State.sense_reports`). -/
theorem sequencingAndRamp : Obligations.SequencingAndRamp := by
  unfold Obligations.SequencingAndRamp
  refine ⟨⟨sequencingStart_begins, rampStart_begins⟩, fun s dt ok ha hr => ⟨fun hd w hw hwr => ?_, fun hd w hw hwr => ?_⟩⟩
  · have hnow : (s.arrive dt).sup.dac0 + 8 ≤ w.now := hw ▸ State.waitUntil_reaches _ _ (State.answering_ticking ha)
    refine ⟨_, exec_rampStep_dac ha hr hd hw hwr, ?_⟩
    have hreport := State.sense_reports (s := w.dacStep) (ok := ok) (Supply.switching_of_ramps hwr)
    obtain ⟨a, b, c, heq⟩ := w.dacStep.sense_fields ok
    refine and_assoc.1 (and_assoc.1 (and_assoc.1 (and_assoc.1 ⟨?_, fun h => ?_⟩)))
    · rw [heq]
      exact ⟨⟨⟨⟨hnow, rfl⟩, rfl⟩, rfl⟩, rfl⟩
    · rw [hreport (h.imp_right .inr)]
      rfl
  · have hnow : (s.arrive dt).sup.rail0 + 128 ≤ w.now := hw ▸ State.waitUntil_reaches _ _ (State.answering_ticking ha)
    refine ⟨_, exec_rampStep_rails ha hr hd hw hwr, ?_⟩
    have hreport := State.sense_reports (s := w.railStep) (ok := ok) (Supply.switching_of_ramps hwr)
    obtain ⟨a, b, c, heq⟩ := w.railStep.sense_fields ok
    refine and_assoc.1 (and_assoc.1 (and_assoc.1 (and_assoc.1 ⟨?_, fun h => ?_⟩)))
    · rw [heq]
      exact ⟨⟨⟨⟨hnow, rfl⟩, rfl⟩, rfl⟩, rfl⟩
    · rw [hreport (h.imp_right .inr)]
      exact ⟨rfl, rfl⟩

end Sys2Proof.Machine

/-! SUPPORT. The slew of the set-points (R288, R139) and the states that hang on the rails (Table 2.4). The proofs of O51 and O52. -/

namespace Sys2Proof.Machine

open Sys2Proof.Safety

/-! ### The slew -/

/-- With the rails up, a completion of the supply group changes its codes, its pending copy, and on the edge after the commit the slew's
origin. -/
theorem State.completeSupply_standing {s : State} (h : s.sup.railsUp = true) :
    ∃ a p k, s.completeSupply = { s with applied := a, pend := p, sup := { s.sup with slew0 := k } } ∧
      ((∀ p, s.pend.supply = some p → s.now ≠ p.at0 + 1) → k = s.sup.slew0) := by
  have htake : ∃ a k, s.takeSupply = { s with applied := a, sup := { s.sup with slew0 := k } } ∧
      ((∀ p, s.pend.supply = some p → s.now ≠ p.at0 + 1) → k = s.sup.slew0) := by
    unfold State.takeSupply
    split
    next p hp =>
      split
      · exact ⟨_, _, rfl, fun hne => if_neg (hne p hp)⟩
      · exact ⟨_, _, rfl, fun _ => rfl⟩
    next => exact ⟨_, _, rfl, fun _ => rfl⟩
  obtain ⟨a, k, heq, hk⟩ := htake
  unfold State.completeSupply
  rw [heq]
  dsimp only
  rw [h]
  split
  · split
    · exact ⟨_, _, _, rfl, hk⟩
    · rw [Bool.not_true, if_neg Bool.false_ne_true]
      split
      · exact ⟨_, _, _, rfl, hk⟩
      · exact ⟨_, _, _, rfl, hk⟩
  · rw [if_pos rfl]
    exact ⟨_, _, _, rfl, hk⟩

/-- One step of every set-point toward its target (R288). -/
theorem State.slewAll_fields (s : State) :
    s.slewAll.sup.vpos = towardN s.sup.vpos s.railTargets.1 ∧ s.slewAll.sup.vneg = towardN s.sup.vneg s.railTargets.2.1 ∧
      s.slewAll.sup.vcom = towardZ s.sup.vcom s.railTargets.2.2 ∧ s.slewAll.sup.slew0 = s.now ∧ s.slewAll.now = s.now ∧
      s.slewAll.sup.phase = s.sup.phase ∧ s.slewAll.sup.railsUp = s.sup.railsUp ∧ s.slewAll.pend = s.pend :=
  ⟨rfl, rfl, rfl, rfl, rfl, rfl, rfl, rfl⟩

theorem exec_setPointSlewStep {s w : State} {dt : Nat} {ok : BitVec 3} (ha : (s.arrive dt).answering = true)
    (hup : (s.arrive dt).sup.railsUp = true) (hsw : (s.arrive dt).sup.switching = true) (hset : (s.arrive dt).settled = false)
    (hw : w = (s.arrive dt).waitUntil ((s.arrive dt).sup.slew0 + slewStep (s.arrive dt).applied.supply.conv))
    (hwup : w.sup.railsUp = true) (hwsw : w.sup.switching = true) :
    exec (.setPointSlewStep dt ok) s = .next ((w.slewAll.sense ok).completeSupply).settle := by
  show execSetPointSlewStep dt ok s = _
  unfold execSetPointSlewStep
  refine event_body ?_
  rw [ha, hup, hsw, hset, ← hw]
  simp only [Bool.and_self, Bool.not_true, Bool.false_eq_true, if_false, hwup, hwsw, if_true]

theorem exec_setPointSlewStep_settled {s : State} {dt : Nat} {ok : BitVec 3} (ha : (s.arrive dt).answering = true)
    (hup : (s.arrive dt).sup.railsUp = true) (hsw : (s.arrive dt).sup.switching = true) (hset : (s.arrive dt).settled = true) :
    exec (.setPointSlewStep dt ok) s = .next ((s.arrive dt).sense ok).settle := by
  show execSetPointSlewStep dt ok s = _
  unfold execSetPointSlewStep
  refine event_body ?_
  rw [ha, hup, hsw, hset]
  rfl

/-- What one slew edge leaves: the stepped set-points, the bits as reported, and the group as its set-points then stand. -/
theorem State.slewed_fields {w : State} (ok : BitVec 3) (hup : w.sup.railsUp = true) (hsw : w.sup.switching = true) :
    ((w.slewAll.sense ok).completeSupply).now = w.now ∧
      ((w.slewAll.sense ok).completeSupply).sup.vpos = towardN w.sup.vpos w.railTargets.1 ∧
      ((w.slewAll.sense ok).completeSupply).sup.vneg = towardN w.sup.vneg w.railTargets.2.1 ∧
      ((w.slewAll.sense ok).completeSupply).sup.vcom = towardZ w.sup.vcom w.railTargets.2.2 ∧
      (w.sup.phase = .up ∨ (∃ p n j, w.sup.phase = .discharge p n j) ∨ ok ≠ 7 →
        ((w.slewAll.sense ok).completeSupply).sup.vposOk = ok.getLsbD 0 ∧
        ((w.slewAll.sense ok).completeSupply).sup.vnegOk = ok.getLsbD 1 ∧
        ((w.slewAll.sense ok).completeSupply).sup.vcomOk = ok.getLsbD 2) ∧
      ((∀ p, w.pend.supply = some p → w.now ≠ p.at0 + 1) → ((w.slewAll.sense ok).completeSupply).sup.slew0 = w.now) ∧
      (∀ p, w.pend.supply = some p → p.at0 < w.now → ((w.slewAll.sense ok).completeSupply).applied.supply = p.val ∧
        ((w.slewAll.sense ok).completeSupply).pend.supply =
          if ((w.slewAll.sense ok).completeSupply).settled then none else some p) := by
  obtain ⟨hvpos, hvneg, hvcom, hslew, hnow, hphase, hrails, hpend⟩ := w.slewAll_fields
  have hreport := State.sense_reports (s := w.slewAll) (ok := ok)
  obtain ⟨va, vb, vc, hsense⟩ := w.slewAll.sense_fields ok
  generalize w.slewAll = x at *
  have hsw' : x.sup.switching = true := by rw [← hsw]; unfold Supply.switching; rw [hphase]
  have hup' : (x.sense ok).sup.railsUp = true := by rw [hsense]; exact hrails.trans hup
  obtain ⟨a, p, k, hdone, hk⟩ := State.completeSupply_standing hup'
  have hpend' : (x.sense ok).pend = w.pend := by rw [hsense]; exact hpend
  have hnow' : (x.sense ok).now = w.now := by rw [hsense]; exact hnow
  have hslew' : (x.sense ok).sup.slew0 = w.now := by rw [hsense]; exact hslew
  rw [hpend', hnow', hslew'] at hk
  refine ⟨?_, ?_, ?_, ?_, fun h => ?_, fun h => ?_, fun q hq hlt => ?_⟩
  · rw [hdone, ← hnow']
  · rw [hdone, hsense]; exact hvpos
  · rw [hdone, hsense]; exact hvneg
  · rw [hdone, hsense]; exact hvcom
  · rw [← hphase] at h
    rw [hdone, hreport hsw' h]
    exact ⟨rfl, rfl, rfl⟩
  · rw [hdone]; exact hk h
  · obtain ⟨happlied, hset, hnot⟩ := State.completeSupply_up (s := x.sense ok) (hpend' ▸ hq) (hnow' ▸ hlt) hup'
    refine ⟨happlied, ?_⟩
    split
    next h => exact hset h
    next h => exact hnot (Bool.eq_false_iff.2 h)

/-! ### The limits (R139) -/

theorem railTargets_of_applied {s : State} (h : s.jnl.replay = none) :
    s.railTargets = (railCode (fld s.applied.supply.vpos 0 9) (vposMax s.sup.vlim), railCode (fld s.applied.supply.vneg 0 9) (vnegMax s.sup.vlim),
     vcomCode (fld s.applied.supply.vcom 0 10) (vcomMax s.sup.vlim)) := by
  unfold State.railTargets
  have hnone : s.jnl.replayIntent = none := by rw [Journal.replayIntent, h]; rfl
  rw [hnone]

theorem vcomCode_bounds (raw limit : Nat) : (vcomCode raw limit).natAbs ≤ limit ∧ (vcomCode raw limit).natAbs ≤ 500 := by
  unfold vcomCode clampZ
  omega

/-- A code within both limits is taken as it is. -/
theorem vcomCode_of_within {raw limit : Nat} (hraw : raw < 2 ^ 10) (h : (BitVec.ofNat 10 raw).toInt.natAbs ≤ limit)
    (h' : (BitVec.ofNat 10 raw).toInt.natAbs ≤ 500) : vcomCode raw limit = (BitVec.ofNat 10 raw).toInt := by
  have hsigned : signed 10 raw = (BitVec.ofNat 10 raw).toInt := by
    rw [BitVec.toInt_eq_toNat_cond, BitVec.toNat_ofNat, Nat.mod_eq_of_lt hraw]
    unfold signed
    split <;> split <;> omega
  unfold vcomCode clampZ
  rw [hsigned]
  omega

/-- Settles O51: the slew by `State.slewed_fields`, the limits by those of the codes. -/
theorem slewAndLimits : Obligations.SlewAndLimits := by
  unfold Obligations.SlewAndLimits
  refine ⟨fun s dt ok ha hup hsw => ⟨exec_setPointSlewStep_settled ha hup hsw, fun w hset hw hwup hwsw => ?_⟩, fun s hr => ?_⟩
  · have hnow : (s.arrive dt).sup.slew0 + slewStep (s.arrive dt).applied.supply.conv ≤ w.now :=
      hw ▸ State.waitUntil_reaches _ _ (State.answering_ticking ha)
    obtain ⟨hb, hvpos, hvneg, hvcom, hbits, hslew, hgroup⟩ := State.slewed_fields ok hwup hwsw
    refine ⟨_, exec_setPointSlewStep ha hup hsw hset hw hwup hwsw, ?_⟩
    rw [hb]
    exact ⟨hnow, hvpos, hvneg, hvcom, hbits, hslew, hgroup⟩
  · rw [railTargets_of_applied hr]
    obtain ⟨hlimit, hrange⟩ := vcomCode_bounds (fld s.applied.supply.vcom 0 10) (vcomMax s.sup.vlim)
    exact ⟨rfl, rfl, hlimit, hrange, fun x hx h h' => hx ▸ vcomCode_of_within (Nat.mod_lt _ (by decide)) (hx ▸ h) (hx ▸ h')⟩

/-! ### Regulation, PARKING, ARMED and HELD -/

theorem railsInRegulation_arms (s : State) (dt : Nat) (ha : (s.arrive dt).answering = true) :
    (∀ k c, (s.arrive dt).sup.phase = .ramp k c →
      ∃ b : State, exec (.railsInRegulation dt) s = .next b.settle ∧ b.sup.phase = .up ∧ b.sup.regulated = true ∧
        Deferred.enterArmed ∈ b.later) ∧
    ((s.arrive dt).sup.phase = .up → exec (.railsInRegulation dt) s = .next ((s.arrive dt).senseOk 7).settle ∧
      ((s.arrive dt).senseOk 7).sup.regulated = true) := by
  refine ⟨fun k c hk => ?_, fun hup => ⟨?_, rfl⟩⟩
  · refine ⟨((s.arrive dt).onSup fun u => { u with phase := .up, vposOk := true, vnegOk := true, vcomOk := true }).defer .enterArmed, ?_,
      rfl, rfl, List.mem_append_right _ (List.mem_singleton_self _)⟩
    show execRailsInRegulation dt s = _
    unfold execRailsInRegulation
    refine event_body ?_
    rw [hk]
    exact if_pos ha
  · show execRailsInRegulation dt s = _
    unfold execRailsInRegulation
    refine event_body ?_
    rw [hup]
    exact if_pos ha

theorem runDeferred_enterArmed (s : State) (hup : s.sup.phase = .up) (hst : s.pw.st = .idle ∨ s.pw.st = .held) :
    s.runDeferred .enterArmed = (s.goTo .armed).onPw fun p => { p with armed0 := s.now } := by
  refine if_pos ?_
  rw [hup]
  obtain hst | hst := hst <;> rw [hst] <;> rfl

theorem parkingExit_idle (s w : State) (dt : Nat) (ha : (s.arrive dt).answering = true) (hst : (s.arrive dt).pw.st = .parking)
    (hoff : (s.arrive dt).sup.phase = .off) (hb : (s.arrive dt).pw.busy = false) (hw : w = (s.arrive dt).waitUntil ((s.arrive dt).pw.off0 + 16))
    (hwb : w.pw.busy = false) :
    ∃ b : State, exec (.parkingExit dt) s = .next b.settle ∧ b.pw.st = .idle ∧ (s.arrive dt).pw.off0 + 16 ≤ b.now := by
  have hnow : (s.arrive dt).pw.off0 + 16 ≤ w.now := hw ▸ State.waitUntil_reaches _ _ (State.answering_ticking ha)
  refine ⟨w.goTo .idle, ?_, rfl, hnow⟩
  show execParkingExit dt s = _
  unfold execParkingExit
  refine event_body ?_
  rw [ha, hst, hoff, hb, ← hw]
  exact (if_pos rfl).trans (if_neg (c := w.pw.busy = true) (by rw [hwb]; decide))

theorem exec_armedTimeout {s w : State} {dt : Nat} (ha : (s.arrive dt).answering = true) (hst : (s.arrive dt).pw.st = .armed)
    (hno : (s.arrive dt).anyUpdate = false) (harm : (s.arrive dt).armto ≠ 0) (hd : Deferred.enterParking ∉ (s.arrive dt).later)
    (hw : w = (s.arrive dt).waitUntil ((s.arrive dt).pw.armed0 + 65536 * (s.arrive dt).armto)) (hwst : w.pw.st = .armed)
    (hwarm : w.armto ≠ 0) (hdue : w.pw.armed0 + 65536 * w.armto ≤ w.now) :
    exec (.armedTimeout dt) s = .next (w.defer .enterParking).settle := by
  have hnot : (s.arrive dt).later.contains .enterParking = false := by simpa using hd
  have hgo : (decide (w.pw.st = .armed) && decide (w.armto ≠ 0) && decide (w.pw.armed0 + 65536 * w.armto ≤ w.now)) = true := by
    rw [hwst, decide_eq_true hwarm, decide_eq_true hdue]
    rfl
  show execArmedTimeout dt s = _
  unfold execArmedTimeout
  refine event_body ?_
  rw [ha, hst, hno, hnot, decide_eq_true harm, ← hw]
  exact (if_pos rfl).trans (if_pos hgo)

theorem exec_heldExit {s : State} {dt : Nat} (ha : (s.arrive dt).answering = true) (hst : (s.arrive dt).pw.st = .held)
    (hheld : (s.arrive dt).heldFlag = false) (hreads : (s.arrive dt).readsPending = false) (hneed : (s.arrive dt).needed = false)
    (hd : Deferred.leaveHeld ∉ (s.arrive dt).later) (hadm : ∀ n, (s.arrive dt).admissible n = false) :
    exec (.heldExit dt) s = .next ((s.arrive dt).defer .leaveHeld).settle := by
  have hnot : (s.arrive dt).later.contains .leaveHeld = false := by simpa using hd
  have hnone : (List.finRange 4).any ((s.arrive dt).admissible ·) = false := by simp [hadm]
  show execHeldExit dt s = _
  unfold execHeldExit
  refine event_body (if_pos ?_)
  rw [ha, hst, hheld, hreads, hneed, hnot, hnone]
  rfl

/-- Settles O52: one lemma for each of the commands and each of the effects. -/
theorem statesOfTheRails : Obligations.StatesOfTheRails := by
  unfold Obligations.StatesOfTheRails
  refine ⟨⟨railsInRegulation_arms, fun s hup hst => ?_⟩, parkingExit_idle,
    fun s w dt ha hst hno harm hd hw hwst hwarm hdue => ⟨exec_armedTimeout ha hst hno harm hd hw hwst hwarm hdue, ?_⟩,
    fun s dt ha hst hheld hreads hneed hd hadm => exec_heldExit ha hst hheld hreads hneed hd hadm, fun s hst => ?_⟩
  · rw [runDeferred_enterArmed s hup hst]
    exact ⟨rfl, rfl⟩
  · rw [hw]
    exact State.waitUntil_reaches _ _ (State.answering_ticking ha)
  · have hleave : s.runDeferred .leaveHeld = s.goTo .idle := if_pos hst
    rw [hleave]
    rfl

end Sys2Proof.Machine

/-! SUPPORT. What the stop of a ring can reach, and the ramp timeout (R287, R337). The proof of O53. -/

namespace Sys2Proof.Machine

open Sys2Proof.Safety

/-- A fold over actions of which one takes P to Q, the others keep P, and all keep Q. -/
theorem foldl_reaches {α β : Type} {f : β → α → β} {a : α} {P Q : β → Prop} (hother : ∀ t b, b ≠ a → P t → P (f t b))
    (hhit : ∀ t, P t → Q (f t a)) (hkeep : ∀ t b, Q t → Q (f t b)) :
    ∀ (l : List α), a ∈ l → ∀ t, P t → Q (l.foldl f t) := by
  intro l
  induction l with
  | nil => exact fun h => absurd h List.not_mem_nil
  | cons b l ih =>
    intro ha t hP
    by_cases hb : b = a
    · subst hb
      exact List.foldlRecOn (motive := Q) l f (hhit t hP) fun x hx c _ => hkeep x c hx
    · exact ih ((List.mem_cons.1 ha).resolve_left (Ne.symm hb)) _ (hother t b hb hP)

/-! ### What the stop of a ring can reach -/

/-- The rings, the memory port's reads, the journal's slots and queue, the causes, the log and the record of the edge may differ; a replay
goes on, and causes that are set stay set. -/
def Halts (s t : State) : Prop :=
  ∃ e k g o r m j, t = { s with edge := e, cause := k, log := g, overflow := o, rings := r, mem := m, jnl := j } ∧
    j.replay = s.jnl.replay ∧ ∀ i, bitOf s.cause i = true → bitOf k i = true

theorem Halts.refl (s : State) : Halts s s := ⟨_, _, _, _, _, _, _, rfl, rfl, fun _ h => h⟩

theorem Halts.trans {a b c : State} (h : Halts a b) (h' : Halts b c) : Halts a c := by
  obtain ⟨e, k, g, o, r, m, j, rfl, hj, hk⟩ := h
  obtain ⟨e', k', g', o', r', m', j', rfl, hj', hk'⟩ := h'
  exact ⟨e', k', g', o', r', m', j', rfl, hj'.trans hj, fun i hi => hk' i (hk i hi)⟩

/-- A halt that leaves the causes. -/
theorem Halts.of_rings {s t : State} (h : ∃ e r m j, t = { s with edge := e, rings := r, mem := m, jnl := j } ∧ j.replay = s.jnl.replay) :
    Halts s t := by
  obtain ⟨e, r, m, j, rfl, hj⟩ := h
  exact ⟨_, _, _, _, _, _, _, rfl, hj, fun _ h => h⟩

namespace State

theorem setCause_halts (s : State) (m : Word) : Halts s (s.setCause m) :=
  ⟨_, _, _, _, _, _, _, rfl, rfl, (s.setCause_adds m).1⟩

theorem log_halts (s : State) (code detail : Nat) (n : RingNo) (i : Nat) : Halts s (s.log_ code detail n i) := by
  have hadds := (s.log_adds code detail n i).1
  obtain ⟨e, l, o, k, heq⟩ := s.log_eq code detail n i
  rw [heq] at hadds ⊢
  exact ⟨_, _, _, _, _, _, _, rfl, rfl, hadds⟩

theorem onRing_halts (s : State) (n : RingNo) (f : Ring → Ring) : Halts s (s.onRing n f) := .of_rings ⟨_, _, _, _, rfl, rfl⟩

theorem onEdge_halts (s : State) (f : EdgeRec → EdgeRec) : Halts s (s.onEdge f) := .of_rings ⟨_, _, _, _, rfl, rfl⟩

theorem onUpdate_halts (s : State) (n : RingNo) (f : Update → Update) : Halts s (s.onUpdate n f) := onRing_halts _ _ _

theorem dropReads_halts (s : State) (n : RingNo) (p : Asker → Bool) : Halts s (s.dropReads n p) := .of_rings ⟨_, _, _, _, rfl, rfl⟩

theorem requestMark_halts (s : State) (q : Nat) (a : Asker) : Halts s (s.requestMark q a) := by
  unfold requestMark
  split
  · exact .refl s
  · split
    · split
      · exact .refl s
      · exact .of_rings ⟨_, _, _, _, rfl, rfl⟩
    · exact .of_rings ⟨_, _, _, _, rfl, rfl⟩

theorem tombstone_halts (s : State) (q : Nat) : Halts s (s.tombstone q) := by
  have hslot : Halts s (s.onSlot q fun o => { o with wantTomb := true }) := .of_rings ⟨_, _, _, _, rfl, rfl⟩
  unfold tombstone
  dsimp only
  split
  · exact hslot
  · exact hslot.trans (requestMark_halts _ _ _)

theorem discardUpdate_halts (s : State) (n : RingNo) : Halts s (s.discardUpdate n) := by
  have hdrop : Halts s ((s.onRing n fun r => { r with work := none, hole := true }).dropReads n Asker.isUpdateRead) :=
    (s.onRing_halts n _).trans (dropReads_halts _ _ _)
  unfold discardUpdate
  split
  · dsimp only
    split
    · exact hdrop.trans (tombstone_halts _ _)
    · exact hdrop
  · exact .refl s

theorem stopRing_halts (s : State) (n : RingNo) : Halts s (s.stopRing n) := by
  have hstop : Halts s (s.ringStopped n) := (s.onRing_halts n _).trans (dropReads_halts _ _ _)
  rw [stopRing_eq]
  split
  · split
    · exact hstop.trans (discardUpdate_halts _ _)
    · exact hstop.trans (onUpdate_halts _ _ _)
  · exact hstop

theorem fetchFailure_halts (s : State) (n : RingNo) : Halts (s.setCause (bitMask (20 + n.val))) (s.fetchFailure n) := by
  unfold fetchFailure
  dsimp only
  split
  · exact (onRing_halts _ n _).trans (dropReads_halts _ _ _)
  · exact ((onRing_halts _ n _).trans (onEdge_halts _ _)).trans (stopRing_halts _ _)

/-- A failed fetch reaches its own ring only. -/
theorem fetchFailure_rings (s : State) (n : RingNo) : ∃ r, (s.fetchFailure n).rings = s.rings.set n r := by
  have hdrop (t : State) (p : Asker → Bool) : (t.dropReads n p).rings = t.rings := rfl
  have hedge (t : State) (f : EdgeRec → EdgeRec) : (t.onEdge f).rings = t.rings := rfl
  unfold fetchFailure
  dsimp only
  split
  · rw [hdrop, onRing_rings]
    exact ⟨_, rfl⟩
  · generalize hx : State.onEdge _ _ = x
    obtain ⟨w, b, hrings⟩ := x.stopRing_rings n
    have hx' : ∃ r, x.rings = s.rings.set n r := by
      rw [← hx, hedge, onRing_rings]
      exact ⟨_, rfl⟩
    obtain ⟨r, hr⟩ := hx'
    exact ⟨_, by rw [hrings, hr, Vector.set_set]⟩

/-- A ring without an update has none when it stops. -/
theorem stopRing_work {s : State} {n : RingNo} (h : s.rings[n].work = none) : (s.stopRing n).rings[n].work = none := by
  have hnone : s.rings[n].update? = none := by rw [Ring.update?, h]
  have hstop : s.stopRing n = s.ringStopped n := by rw [stopRing_eq, ringStopped_update, hnone]
  rw [hstop]
  exact (congrArg Ring.work (s.onRing_same n fun r =>
    { r with bell := false, fetching := .none, fetched := [], probe := false, timer := none, barrier := none, syncNext := false })).trans h

theorem fetchFailure_work {s : State} {n : RingNo} (h : s.rings[n].work = none) : (s.fetchFailure n).rings[n].work = none := by
  unfold fetchFailure
  dsimp only
  split
  · exact (congrArg Ring.work ((s.setCause _).onRing_same n fun r => { r with stalled := true, fetching := .none, probe := false })).trans h
  · refine stopRing_work ?_
    exact (congrArg Ring.work ((s.setCause _).onRing_same n fun r => { r with ctl := r.ctl &&& ~~~(1#36) })).trans h

/-! ### The waiting updates (R287) -/

/-- What the timeout makes of a waiting update, with the index that its log entry names. -/
theorem timeoutRing_waits {s : State} {n : RingNo} (ok : BitVec 3) (h : s.rings[n].waitsForRails = true) :
    ∃ i, s.timeoutRing ok n = ((s.log_ 0x23 (notOk ok) n i).discardUpdate n).fetchFailure n := by
  unfold timeoutRing
  rw [if_pos h]
  exact ⟨_, rfl⟩

theorem timeoutRing_idle {s : State} {n : RingNo} (ok : BitVec 3) (h : s.rings[n].work = none) : s.timeoutRing ok n = s := by
  unfold timeoutRing
  exact if_neg (by rw [Ring.waitsForRails, Ring.update?, h]; decide)

theorem timeoutRing_halts (s : State) (ok : BitVec 3) (n : RingNo) : Halts s (s.timeoutRing ok n) := by
  unfold timeoutRing
  split
  · exact (((s.log_halts _ _ _ _).trans (discardUpdate_halts _ _)).trans (setCause_halts _ _)).trans (fetchFailure_halts _ _)
  · exact .refl s

/-- The waiting update is discarded and its ring stops. -/
theorem timeoutRing_stops {s : State} {n : RingNo} (ok : BitVec 3) (h : s.rings[n].waitsForRails = true) :
    (s.timeoutRing ok n).rings[n].work = none ∧ bitOf (s.timeoutRing ok n).cause (20 + n.val) = true := by
  obtain ⟨i, heq⟩ := timeoutRing_waits ok h
  have hupdate : ∃ e : BitVec 16 × Update, s.rings[n].update? = some e := by
    unfold Ring.waitsForRails at h
    split at h
    next i u hu => exact ⟨_, hu⟩
    next => cases h
  obtain ⟨⟨j, u⟩, hu⟩ := hupdate
  have hlog : (s.log_ 0x23 (notOk ok) n i).rings = s.rings := by
    obtain ⟨e, l, o, k, hlog⟩ := s.log_eq 0x23 (notOk ok) n i
    rw [hlog]
  have hwork : ((s.log_ 0x23 (notOk ok) n i).discardUpdate n).rings[n].work = none := discardUpdate_work (i := j) (u := u) (by rw [hlog, hu])
  rw [heq]
  generalize (s.log_ 0x23 (notOk ok) n i).discardUpdate n = x at hwork
  refine ⟨fetchFailure_work hwork, ?_⟩
  obtain ⟨e, k, g, o, r, m, jn, hhalt, -, hk⟩ := x.fetchFailure_halts n
  rw [hhalt]
  exact hk _ (setCause_bit x (by omega))

/-- The other rings stay. -/
theorem timeoutRing_other (s : State) (ok : BitVec 3) {m n : RingNo} (h : m ≠ n) : (s.timeoutRing ok m).rings[n] = s.rings[n] := by
  have hmn : (m : Nat) ≠ n := fun e => h (Fin.ext e)
  by_cases hw : s.rings[m].waitsForRails = true
  · obtain ⟨i, heq⟩ := timeoutRing_waits ok hw
    obtain ⟨e, l, o, k, hlog⟩ := s.log_eq 0x23 (notOk ok) m i
    obtain ⟨w, b, hdiscard⟩ := (s.log_ 0x23 (notOk ok) m i).discardUpdate_rings m
    obtain ⟨r, hfail⟩ := ((s.log_ 0x23 (notOk ok) m i).discardUpdate m).fetchFailure_rings m
    have hrings : (s.log_ 0x23 (notOk ok) m i).rings = s.rings := by rw [hlog]
    rw [heq, hfail, hdiscard, hrings, Vector.set_set]
    exact Vector.getElem_set_ne _ _ hmn
  · rw [show s.timeoutRing ok m = s from if_neg hw]

/-- Every waiting update is discarded. -/
def timeoutRings (s : State) (ok : BitVec 3) : State := (List.finRange 4).foldl (fun s n => s.timeoutRing ok n) s

theorem timeoutRings_halts (s : State) (ok : BitVec 3) : Halts s (s.timeoutRings ok) :=
  List.foldlRecOn (motive := Halts s) _ _ (.refl s) fun t ht n _ => ht.trans (t.timeoutRing_halts ok n)

theorem timeoutRings_stops {s : State} (ok : BitVec 3) {n : RingNo} (h : s.rings[n].waitsForRails = true) :
    (s.timeoutRings ok).rings[n].work = none ∧ bitOf (s.timeoutRings ok).cause (20 + n.val) = true := by
  refine foldl_reaches (f := fun (s : State) n => s.timeoutRing ok n) (a := n) (P := fun t => t.rings[n] = s.rings[n])
    (Q := fun t => t.rings[n].work = none ∧ bitOf t.cause (20 + n.val) = true)
    (fun t m hm ht => (t.timeoutRing_other ok hm).trans ht) (fun t ht => timeoutRing_stops ok (ht ▸ h)) (fun t m ht => ?_)
    _ (List.mem_finRange n) s rfl
  obtain ⟨hwork, hbit⟩ := ht
  by_cases hm : m = n
  · subst hm
    rw [timeoutRing_idle ok hwork]
    exact ⟨hwork, hbit⟩
  · rw [timeoutRing_other t ok hm]
    obtain ⟨e, k, g, o, r, mm, j, heq, -, hk⟩ := t.timeoutRing_halts ok m
    exact ⟨hwork, by rw [heq]; exact hk _ hbit⟩

/-! ### The timeout edge -/

/-- The bits as sensed, the cause, and no pre-ramp. -/
def timedOut (s : State) (ok : BitVec 3) : State := ((s.senseOk ok).setCause (bitMask 26)).onSup fun u => { u with noPreRamp := true }

/-- The controlled discharge, and what a replay makes of it. -/
def timeoutEnd (s : State) (ok : BitVec 3) (waits : Bool) : State :=
  if s.jnl.replay.isSome then s.timeoutReplay ok
  else if waits then s.startDischarge
  else s.startDischarge.log_ 0x23 (notOk ok) 0 0

theorem timeout_eq (s : State) (ok : BitVec 3) :
    s.timeout ok = ((s.timedOut ok).timeoutRings ok).timeoutEnd ok ((s.timedOut ok).rings.toList.any Ring.waitsForRails) := rfl

/-- A failure of the replay in a ramp: the gate stays closed, and the discharge begins (R337). -/
theorem replayFails_ramp {s : State} {k c : Nat} (h : s.sup.phase = .ramp k c) :
    ∃ j, s.replayFails = { s.startDischarge with jnl := j } ∧ j.gate = false ∧ j.scanFail = true ∧
      (s.jnl.replay.isSome = true → j.replay.map (·.failed) = some true) := by
  unfold replayFails replayDischarge
  dsimp only
  have hsup (f : Journal → Journal) : (s.onJnl f).sup = s.sup := rfl
  generalize hx : State.onJnl (State.onJnl s _) _ = x
  have hphase : x.sup.phase = .ramp k c := by rw [← hx]; exact h
  rw [hphase]
  subst hx
  refine ⟨_, rfl, rfl, rfl, fun hr => ?_⟩
  obtain ⟨r, hr⟩ := Option.isSome_iff_exists.1 hr
  show (((s.jnl.replay.map _).map _).map _) = _
  rw [hr]
  rfl

/-- The log entry of a replay names the slot in replay. -/
theorem timeoutReplay_eq (s : State) (ok : BitVec 3) : ∃ n i, s.timeoutReplay ok = (s.log_ 0x23 (notOk ok) n i).replayFails := ⟨_, _, rfl⟩

theorem timeoutEnd_fields {s : State} {k c : Nat} (ok : BitVec 3) (waits : Bool) (h : s.sup.phase = .ramp k c) :
    (s.timeoutEnd ok waits).now = s.now ∧ (s.timeoutEnd ok waits).rings = s.rings ∧
      (s.timeoutEnd ok waits).sup = { s.sup with phase := .discharge s.now s.sup.dac.natAbs 0 } ∧
      (s.timeoutEnd ok waits).drv.frames = none ∧ (∀ i, bitOf s.cause i = true → bitOf (s.timeoutEnd ok waits).cause i = true) ∧
      (s.jnl.replay.isSome = true → (s.timeoutEnd ok waits).jnl.gate = false ∧ (s.timeoutEnd ok waits).jnl.scanFail = true ∧
        (s.timeoutEnd ok waits).jnl.replay.map (·.failed) = some true) := by
  unfold timeoutEnd
  split
  next hr =>
    obtain ⟨n, i, heq⟩ := s.timeoutReplay_eq ok
    have hadds := (s.log_adds 0x23 (notOk ok) n i).1
    obtain ⟨e, l, o, q, hlog⟩ := s.log_eq 0x23 (notOk ok) n i
    rw [hlog] at hadds
    obtain ⟨j, hfail, hgate, hscan, hreplay⟩ := replayFails_ramp (s := s.log_ 0x23 (notOk ok) n i) (k := k) (c := c) (by rw [hlog]; exact h)
    rw [hlog] at hreplay
    rw [heq, hfail, hlog]
    exact ⟨rfl, rfl, rfl, rfl, hadds, fun h => ⟨hgate, hscan, hreplay h⟩⟩
  next hr =>
    split
    · exact ⟨rfl, rfl, rfl, rfl, fun _ h => h, fun h => absurd h hr⟩
    · have hadds := (s.startDischarge.log_adds 0x23 (notOk ok) 0 0).1
      obtain ⟨e, l, o, q, hlog⟩ := s.startDischarge.log_eq 0x23 (notOk ok) 0 0
      rw [hlog] at hadds ⊢
      exact ⟨rfl, rfl, rfl, rfl, hadds, fun h => absurd h hr⟩

end State

theorem exec_rampTimeout {s w : State} {dt k c : Nat} {ok : BitVec 3} (ha : (s.arrive dt).answering = true)
    (hk : (s.arrive dt).sup.phase = .ramp k c) (hw : w = (s.arrive dt).waitUntil (k + 2 * (128 * (160 + c) + 2048)))
    (hwk : w.sup.phase = .ramp k c) : exec (.rampTimeout dt ok) s = .next (w.timeout ok).settle := by
  show execRampTimeout dt ok s = _
  unfold execRampTimeout
  refine event_body ?_
  rw [hk]
  dsimp only
  rw [if_pos ha, ← hw, if_pos hwk]

/-- Settles O53: the rings by `State.timeoutRings_stops`, the rails and the replay by `State.timeoutEnd_fields`. -/
theorem rampTimesOut : Obligations.RampTimesOut := by
  unfold Obligations.RampTimesOut
  intro s w dt k c ok ha hk hw hwk
  have hnow : k + 2 * (128 * (160 + c) + 2048) ≤ w.now := hw ▸ State.waitUntil_reaches _ _ (State.answering_ticking ha)
  refine ⟨_, exec_rampTimeout ha hk hw hwk, ?_⟩
  rw [State.timeout_eq]
  generalize (w.timedOut ok).rings.toList.any Ring.waitsForRails = waits
  have hbit : bitOf (w.timedOut ok).cause 26 = true := setCause_bit (w.senseOk ok) (by decide)
  have hstops := fun n => State.timeoutRings_stops (s := w.timedOut ok) ok (n := n)
  obtain ⟨e, q, g, o, r, m, j, hhalt, hj, hq⟩ := (w.timedOut ok).timeoutRings_halts ok
  generalize (w.timedOut ok).timeoutRings ok = x at hstops hhalt ⊢
  have hsup : x.sup = (w.timedOut ok).sup := by rw [hhalt]
  have hxnow : x.now = w.now := by rw [hhalt]; rfl
  obtain ⟨hb, hrings, hrails, hframes, hcause, hreplay⟩ := State.timeoutEnd_fields (s := x) (k := k) (c := c) ok waits (by rw [hsup]; exact hwk)
  refine ⟨?_, ?_, ?_, ?_, hframes, fun n hn => ?_, fun hr => ?_⟩
  · rw [hb, hxnow]
    exact hnow
  · refine hcause _ ?_
    rw [hhalt]
    exact hq _ hbit
  · rw [hrails, hsup]
    rfl
  · rw [hrails, hsup, hb]
    rfl
  · obtain ⟨hwork, hstop⟩ := hstops n hn
    rw [hrings]
    exact ⟨hwork, hcause _ hstop⟩
  · refine hreplay ?_
    rw [hhalt]
    exact (congrArg Option.isSome hj).trans hr

end Sys2Proof.Machine

/-! SUPPORT. The controlled discharge, its end, and the PARKs that have waited for it (R294, R293, R25, Table 11.3). The proof of O54. -/

namespace Sys2Proof.Machine

open Sys2Proof.Safety

namespace State

/-! ### PARKs finish -/

theorem finishPark_eq (s : State) (n : RingNo) (i : BitVec 16) : ∃ r e, s.finishPark n i = { s with rings := r, edge := e } := ⟨_, _, rfl⟩

theorem finishPark_other (s : State) {m n : RingNo} (h : m ≠ n) (i : BitVec 16) : (s.finishPark m i).rings[n] = s.rings[n] := by
  have hmn : (m : Nat) ≠ n := fun e => h (Fin.ext e)
  have hrings : (s.finishPark m i).rings =
      (s.rings.set m (s.rings[m].finished i)).set m { (s.finishEntry m i).rings[m] with parkHead := some i } := rfl
  rw [hrings, Vector.set_set]
  exact Vector.getElem_set_ne _ _ hmn

/-- A ring that runs a PARK finishes it; another stays. -/
theorem parkStep_eq (s : State) (m : RingNo) :
    (∃ i, s.rings[m].work = some (i, .park) ∧ (match s.rings[m].work with | some (i, .park) => s.finishPark m i | _ => s) = s.finishPark m i) ∨
      ((∀ i, s.rings[m].work ≠ some (i, .park)) ∧ (match s.rings[m].work with | some (i, .park) => s.finishPark m i | _ => s) = s) := by
  split
  next i hi => exact .inl ⟨i, hi, rfl⟩
  next hno => exact .inr ⟨hno, rfl⟩

theorem parksFinish_eq (s : State) : ∃ r e, s.parksFinish = { s with rings := r, edge := e } := by
  refine List.foldlRecOn (motive := fun t : State => ∃ r e, t = { s with rings := r, edge := e }) _ _ ⟨_, _, rfl⟩ fun t ht m _ => ?_
  obtain ⟨r, e, rfl⟩ := ht
  dsimp only
  split <;> exact ⟨_, _, rfl⟩

/-- Every PARK finishes, with its head write awaited (Table 11.3, R356). -/
theorem parksFinish_ring {s : State} {n : RingNo} {i : BitVec 16} (h : s.rings[n].work = some (i, .park)) :
    s.parksFinish.rings[n] = { s.rings[n].finished i with parkHead := some i } := by
  refine foldl_reaches (f := fun (s : State) m => match s.rings[m].work with | some (i, .park) => s.finishPark m i | _ => s) (a := n)
    (P := fun t => t.rings[n] = s.rings[n]) (Q := fun t => t.rings[n] = { s.rings[n].finished i with parkHead := some i })
    (fun t m hm ht => ?_) (fun t ht => ?_) (fun t m ht => ?_) _ (List.mem_finRange n) s rfl
  · obtain ⟨j, -, heq⟩ | ⟨-, heq⟩ := t.parkStep_eq m
    · exact (congrArg (fun x : State => x.rings[n]) heq).trans ((t.finishPark_other hm j).trans ht)
    · exact (congrArg (fun x : State => x.rings[n]) heq).trans ht
  · obtain ⟨j, hj, heq⟩ | ⟨hno, -⟩ := t.parkStep_eq n
    · have hij : j = i := by
        rw [ht, h] at hj
        cases hj
        rfl
      refine (congrArg (fun x : State => x.rings[n]) heq).trans ?_
      rw [hij]
      exact (finishPark_ring t n i).trans (by rw [ht])
    · exact absurd (by rw [ht]; exact h) (hno i)
  · obtain ⟨j, hj, heq⟩ | ⟨-, heq⟩ := t.parkStep_eq m
    · have hm : m ≠ n := by
        rintro rfl
        rw [ht] at hj
        cases hj
      exact (congrArg (fun x : State => x.rings[n]) heq).trans ((t.finishPark_other hm j).trans ht)
    · exact (congrArg (fun x : State => x.rings[n]) heq).trans ht

/-! ### The state after a discharge -/

theorem replayCloses_aloof (s : State) : s.replayCloses.aloof = s.aloof := by
  unfold replayCloses
  split
  · refine (foldl_aloof (fun t q => ?_) _ _).trans (onJnl_aloof _ _)
    dsimp only
    split
    · exact onSlot_aloof _ _ _
    · exact (requestMark_aloof _ _ _).trans (onSlot_aloof _ _ _)
  · rfl

/-- What follows leaves the rings and the rails. -/
theorem afterDischarge_fields (s : State) (b : Bool) :
    (s.afterDischarge b).rings = s.rings ∧ (s.afterDischarge b).pw.off0 = s.pw.off0 ∧ (s.afterDischarge b).now = s.now ∧
      (s.afterDischarge b).sup = s.sup := by
  have hheld : s.enterHeld.rings = s.rings ∧ s.enterHeld.pw.off0 = s.pw.off0 ∧ s.enterHeld.now = s.now ∧ s.enterHeld.sup = s.sup := by
    unfold enterHeld
    dsimp only
    obtain ⟨e, l, o, k, hlog⟩ := (s.goTo .held).log_eq 0x30 0 (s.heldEntry.getD (0, 0)).1 (s.heldEntry.getD (0, 0)).2.toNat
    rw [hlog]
    obtain ⟨e', n', k', hcount⟩ := State.count_eq { s.goTo .held with edge := e, log := l, overflow := o, cause := k } .held
    rw [hcount]
    exact ⟨rfl, rfl, rfl, rfl⟩
  have hcloses : s.replayCloses.rings = s.rings ∧ s.replayCloses.pw.off0 = s.pw.off0 ∧ s.replayCloses.now = s.now ∧
      s.replayCloses.sup = s.sup := by
    have hsup := sup_of_aloof s.replayCloses_aloof
    obtain ⟨l, u, d, j, heq, -⟩ := s.replayCloses_replays
    rw [heq] at hsup ⊢
    exact ⟨rfl, rfl, rfl, hsup⟩
  unfold afterDischarge
  split
  · split
    · exact hheld
    · exact ⟨rfl, rfl, rfl, rfl⟩
  · split
    · exact hheld
    · exact ⟨rfl, rfl, rfl, rfl⟩
  · split
    · split
      · split
        · exact ⟨rfl, rfl, rfl, rfl⟩
        · exact hcloses
      · exact ⟨rfl, rfl, rfl, rfl⟩
    · exact ⟨rfl, rfl, rfl, rfl⟩
  · exact ⟨rfl, rfl, rfl, rfl⟩

/-- ARMED ends in IDLE where no update is held; PARKING, SHUTDOWN and DORMANT stay. -/
theorem afterDischarge_st (s : State) (b : Bool) :
    (s.pw.st = .armed → b = false → (s.afterDischarge b).pw.st = .idle) ∧
      (s.pw.st = .parking ∨ s.pw.st = .shutdown ∨ s.pw.st = .dormant → (s.afterDischarge b).pw.st = s.pw.st) := by
  refine ⟨fun h hb => ?_, fun h => ?_⟩
  · unfold afterDischarge
    rw [h, hb]
    rfl
  · have hsame : s.afterDischarge b = s := by
      unfold afterDischarge
      obtain h | h | h := h <;> rw [h]
    rw [hsame]

/-! ### The end of the rails -/

/-- The rails are off, their set-points at their targets; what follows is yet to come. -/
def railsRest (s : State) : State := ((s.onPw fun p => { p with off0 := s.now }).completeSupply).onSup fun u => { u with toHeld := false }

theorem railsEnded_eq (s : State) : s.railsEnded = s.railsRest.parksFinish.afterDischarge s.sup.toHeld := rfl

/-- A completion changes the codes, the pending copies, the set-points and the thermal unit's record of them. -/
theorem completeSupply_eq (s : State) :
    ∃ a p v n c k t, s.completeSupply = { s with
      applied := a, pend := p, thm := t, sup := { s.sup with vpos := v, vneg := n, vcom := c, slew0 := k } } := by
  have htake : ∃ a k, s.takeSupply = { s with applied := a, sup := { s.sup with slew0 := k } } := by
    unfold takeSupply
    split
    · split <;> exact ⟨_, _, rfl⟩
    · exact ⟨_, _, rfl⟩
  obtain ⟨a, k, heq⟩ := htake
  unfold completeSupply
  rw [heq]
  dsimp only
  split
  · split
    · exact ⟨_, _, _, _, _, _, _, rfl⟩
    · split
      · exact ⟨_, _, _, _, _, _, _, rfl⟩
      · split <;> exact ⟨_, _, _, _, _, _, _, rfl⟩
  · split <;> exact ⟨_, _, _, _, _, _, _, rfl⟩

theorem railsRest_fields (s : State) :
    s.railsRest.rings = s.rings ∧ s.railsRest.pw = { s.pw with off0 := s.now } ∧ s.railsRest.now = s.now ∧
      s.railsRest.sup.railsUp = s.sup.railsUp ∧ s.railsRest.sup.phase = s.sup.phase ∧ s.railsRest.sup.regulated = s.sup.regulated ∧
      s.railsRest.sup.limited = s.sup.limited := by
  obtain ⟨a, p, v, n, c, k, t, heq⟩ := (s.onPw fun p => { p with off0 := s.now }).completeSupply_eq
  unfold railsRest
  rw [heq]
  exact ⟨rfl, rfl, rfl, rfl, rfl, rfl, rfl⟩

theorem railsEnded_fields (s : State) :
    s.railsEnded.now = s.now ∧ s.railsEnded.pw.off0 = s.now ∧ s.railsEnded.sup = s.railsRest.sup ∧
      (∀ (n : RingNo) (i : BitVec 16), s.rings[n].work = some (i, .park) →
        s.railsEnded.rings[n] = { s.rings[n].finished i with parkHead := some i }) ∧
      (s.pw.st = .armed → s.sup.toHeld = false → s.railsEnded.pw.st = .idle) ∧
      (s.pw.st = .parking ∨ s.pw.st = .shutdown ∨ s.pw.st = .dormant → s.railsEnded.pw.st = s.pw.st) := by
  obtain ⟨hrings, hpw, hnow, -⟩ := s.railsRest_fields
  have hparks := fun (n : RingNo) (i : BitVec 16) => parksFinish_ring (s := s.railsRest) (n := n) (i := i)
  rw [hrings] at hparks
  obtain ⟨r, e, hfinish⟩ := s.railsRest.parksFinish_eq
  obtain ⟨hr, hoff, hn, hsup⟩ := s.railsRest.parksFinish.afterDischarge_fields s.sup.toHeld
  obtain ⟨hidle, hstay⟩ := s.railsRest.parksFinish.afterDischarge_st s.sup.toHeld
  have hpw' : s.railsRest.parksFinish.pw = { s.pw with off0 := s.now } := by rw [hfinish]; exact hpw
  have hst : s.railsRest.parksFinish.pw.st = s.pw.st := by rw [hpw']
  rw [hst] at hidle hstay
  rw [railsEnded_eq]
  refine ⟨?_, ?_, ?_, fun n i h => ?_, hidle, hstay⟩
  · rw [hn, hfinish]
    exact hnow
  · rw [hoff, hpw']
  · rw [hsup, hfinish]
  · rw [hr]
    exact hparks n i h

end State

/-! ### The discharge's commands -/

theorem exec_dischargeVcomStep {s : State} {dt p n j : Nat} (ha : (s.arrive dt).answering = true)
    (hp : (s.arrive dt).sup.phase = .discharge p n j) :
    exec (.dischargeVcomStep dt) s = .next (if j < n then ((s.arrive dt).waitUntil (p + 1 + 8 * (j + 1))).vcomStep p n j
      else ((s.arrive dt).waitUntil (p + 2 + 8 * n)).beginBleed).settle := by
  show execDischargeVcomStep dt s = _
  unfold execDischargeVcomStep
  refine event_body ?_
  rw [hp]
  dsimp only
  rw [ha, Bool.not_true, if_neg Bool.false_ne_true]

theorem exec_dischargeEnd {s : State} {dt : Nat} (h : (s.arrive dt).sup.phase = .bleed ∨ (s.arrive dt).sup.phase = .fast) :
    exec (.dischargeEnd dt) s =
      .next (if (s.arrive dt).ticking then (s.arrive dt).railsOff.railsEnded else (s.arrive dt).railsOff.defer .railsEnd).settle := by
  show execDischargeEnd dt s = _
  unfold execDischargeEnd
  exact event_body (if_pos h)

theorem dischargeEnd_ends (s : State) (dt : Nat) (h : (s.arrive dt).sup.phase = .bleed ∨ (s.arrive dt).sup.phase = .fast) :
    ∃ b : State, exec (.dischargeEnd dt) s = .next b.settle ∧ b.sup.railsUp = false ∧ b.sup.phase = .off ∧ b.sup.regulated = false ∧
      b.sup.limited = [] ∧
      ((s.arrive dt).ticking = true → b.pw.off0 = b.now ∧
        (∀ (n : RingNo) (i : BitVec 16), (s.arrive dt).rings[n].work = some (i, .park) →
          b.rings[n].work = none ∧ b.rings[n].comp = (s.arrive dt).rings[n].compAfter i ∧ b.rings[n].parkHead = some i) ∧
        ((s.arrive dt).pw.st = .armed → (s.arrive dt).sup.toHeld = false → b.pw.st = .idle) ∧
        ((s.arrive dt).pw.st = .parking ∨ (s.arrive dt).pw.st = .shutdown ∨ (s.arrive dt).pw.st = .dormant →
          b.pw.st = (s.arrive dt).pw.st)) ∧
      ((s.arrive dt).ticking = false → b.pw = (s.arrive dt).pw ∧ b.rings = (s.arrive dt).rings ∧ b.pend = (s.arrive dt).pend ∧
        Deferred.railsEnd ∈ b.later) := by
  have hexec := exec_dischargeEnd h
  generalize s.arrive dt = x at *
  refine ⟨_, hexec, ?_⟩
  cases ht : x.ticking with
  | false =>
    rw [if_neg Bool.false_ne_true]
    exact ⟨rfl, rfl, rfl, rfl, nofun, fun _ => ⟨rfl, rfl, rfl, List.mem_append_right _ (List.mem_singleton_self _)⟩⟩
  | true =>
    rw [if_pos rfl]
    obtain ⟨hnow, hoff, hsup, hparks, hidle, hstay⟩ := x.railsOff.railsEnded_fields
    obtain ⟨-, -, -, hup, hphase, hreg, hlim⟩ := x.railsOff.railsRest_fields
    rw [hsup]
    refine ⟨hup, hphase, hreg, hlim, fun _ => ⟨hoff.trans hnow.symm, fun n i hi => ?_, hidle, hstay⟩, nofun⟩
    rw [hparks n i hi]
    exact ⟨rfl, rfl, rfl⟩

/-- Settles O54: the steps by `exec_dischargeVcomStep`, the end by `State.railsEnded_fields`. -/
theorem discharge : Obligations.Discharge := by
  unfold Obligations.Discharge
  refine ⟨fun s w dt p n j ha hp => ⟨fun hj hw => ?_, fun hj => ?_⟩, dischargeEnd_ends, fun s n i hi => ?_⟩
  · refine ⟨_, exec_dischargeVcomStep ha hp, ?_⟩
    rw [if_pos hj, ← hw]
    have hnow : p + 1 + 8 * (j + 1) ≤ w.now := hw ▸ State.waitUntil_reaches _ _ (State.answering_ticking ha)
    exact ⟨rfl, rfl, hnow⟩
  · refine ⟨_, exec_dischargeVcomStep ha hp, ?_⟩
    rw [if_neg (by omega)]
    have hnow := State.waitUntil_reaches _ (p + 2 + 8 * n) (State.answering_ticking ha)
    generalize (s.arrive dt).waitUntil (p + 2 + 8 * n) = x at *
    exact ⟨rfl, rfl, rfl, rfl, rfl, hnow⟩
  · obtain ⟨-, hoff, -, hparks, -⟩ := s.railsEnded_fields
    have hrun : s.runDeferred .railsEnd = s.railsEnded := rfl
    rw [hrun, hparks n i hi]
    exact ⟨hoff, rfl, rfl⟩

end Sys2Proof.Machine

/-! SUPPORT. The result of a conversion (R304 to R312) and the BAR_N line (R345 to R348, R357, R358, Table 16.1). The proofs of O57 and
O58. -/

namespace Sys2Proof.Machine

open Sys2Proof.Safety

/-! ### Readings (R304) -/

/-- A number of 0.125 degC within the range of a reading. -/
theorem tempInt_ofInt {z : Int} (hlo : -2048 ≤ z) (hhi : z < 2048) : tempInt (BitVec.ofInt 12 z) = z := by
  unfold tempInt
  rw [BitVec.toInt_ofInt]
  exact Int.bmod_eq_of_le (by omega) (by omega)

theorem convert_reading (mean : Int) : tempInt (convert mean) = clampZ (-440) 1400 ((2 * mean + 1250) / 2500) := by
  refine tempInt_ofInt ?_ ?_ <;> unfold clampZ <;> omega

/-- The nearest 0.125 degC, the higher of two as near, within the range. -/
theorem convert_rounds (mean : Int) :
    (-550000 ≤ mean → mean ≤ 1750000 → 2 * (tempInt (convert mean) * 1250 - mean) ≤ 1250 ∧
      -1250 < 2 * (tempInt (convert mean) * 1250 - mean)) ∧
    (mean < -550000 → tempInt (convert mean) = -440) ∧ (1750000 < mean → tempInt (convert mean) = 1400) := by
  rw [convert_reading]
  unfold clampZ
  omega

/-! ### The causes of a result -/

namespace State

theorem count_adds (s : State) (c : Cnt) : Adds s (s.count c) := by
  obtain ⟨e, n, k, heq⟩ := s.count_eq c
  exact ⟨s.count_grows c, by rw [heq]⟩

theorem addEnergy_adds (s : State) (pj : Nat) : Adds s (s.addEnergy pj) := by
  unfold addEnergy
  dsimp only
  exact .trans (.of_eq rfl rfl) (setCause_adds _ _)

theorem enterHeld_adds (s : State) : Adds s s.enterHeld := by
  unfold enterHeld
  exact ((Adds.of_eq (s := s) (t := s.goTo .held) rfl rfl).trans (log_adds _ _ _ _ _)).trans ((count_adds _ _).trans (setCause_adds _ _))

theorem resultHolds_adds (s : State) : Adds s s.resultHolds := by
  unfold resultHolds
  split
  · split
    · exact s.enterHeld_adds
    · dsimp only
      split <;> exact .of_eq rfl rfl
  · exact .refl s

theorem retryMarks_adds (s : State) : Adds s s.retryMarks := by
  unfold retryMarks
  refine List.foldlRecOn (motive := Adds s) _ _ (.refl s) fun t ht o _ => ht.trans ?_
  split
  · exact .of_eq rfl rfl
  · exact .refl t

/-- A threshold newly passed sets its cause (R312). -/
theorem thresholds_cause (s : State) :
    (s.thm.warn = false → s.judged.warn = true → bitOf s.thresholds.cause 9 = true) ∧
      (s.thm.throttle = false → s.judged.throttle = true → bitOf s.thresholds.cause 10 = true) := by
  unfold judged thresholds
  dsimp only
  generalize overT s.thm.warn _ _ _ = warn
  generalize overT s.thm.throttle _ _ _ = throttle
  generalize State.evalWrange _ = x
  have hthrottle (y : State) : Adds y (((y.setCause (bitMask 10)).count .throttle).log_ 0x31 0 0 0) :=
    (y.setCause_adds _).trans ((count_adds _ _).trans (log_adds _ _ _ _ _))
  refine ⟨fun h hw => ?_, fun h ht => ?_⟩
  · rw [h, hw]
    have hset : bitOf (x.setCause (bitMask 9)).cause 9 = true := setCause_bit x (by decide)
    simp only [Bool.not_false, Bool.and_self, if_true]
    split
    · exact (hthrottle _).1 9 hset
    · exact hset
  · rw [h, ht]
    simp only [Bool.not_false, Bool.and_self, if_true]
    exact ((count_adds _ _).trans (log_adds _ _ _ _ _)).1 10 (setCause_bit _ (by decide))

/-- With THM_CTL.src = 0 Tpan is modelled (R307). -/
theorem takeResult_modelled (s : State) (mean : Int) (energy : Nat) (h : bitOf s.applied.thermal.ctl 0 = false) :
    (s.takeResult mean energy).thm.source = false ∧
      (s.takeResult mean energy).thm.tpan = modelTpan (s.takeResult mean energy).thm.tdie (s.takeResult mean energy).thm.rise := by
  unfold takeResult
  rw [h]
  exact ⟨rfl, rfl⟩

/-- They stay set to the end of the result edge. -/
theorem result_adds (s : State) (mean : Int) (charge : List (Nat × Int × Int)) (pj : Nat) {x : State}
    (hx : x = s.windowEnded.applyThermal.takeResult mean (periodEnergy s.thm.points s.thm.window0 charge)) :
    Adds x.thresholds (s.result mean charge pj) := by
  subst hx
  exact (((Adds.of_eq (t := State.onEdge _ _) rfl rfl).trans (addEnergy_adds _ pj)).trans (resultHolds_adds _)).trans (retryMarks_adds _)

end State

/-- Settles O57: the thermal unit by `State.result_fields`, the causes by `State.thresholds_cause`, the reading by `convert_rounds`. -/
theorem conversionResults : Obligations.ConversionResults := by
  unfold Obligations.ConversionResults
  refine ⟨fun s w dt pj mean charge ha hw hp => ?_, convert_rounds⟩
  have hnow : (s.arrive dt).thm.window0 + 65536 ≤ w.now := hw ▸ State.waitUntil_reaches _ _ (State.answering_ticking ha)
  have hsame : w.windowEnded.applyThermal = w.windowEnded := by
    have hnone : w.windowEnded.pend.thermal = none := hp
    rw [State.applyThermal, hnone]
  obtain ⟨hthm, -, -, hb⟩ := w.result_fields mean charge pj rfl
  have hadds := w.result_adds mean charge pj rfl
  obtain ⟨hwarn, hthrottle⟩ := (w.windowEnded.applyThermal.takeResult mean (periodEnergy w.thm.points w.thm.window0 charge)).thresholds_cause
  refine ⟨_, exec_conversionResult ha hw mean charge pj, ?_⟩
  rw [hsame] at hthm hb hwarn hthrottle hadds
  have hb' : (w.result mean charge pj).now = w.now := hb
  rw [hthm, hb']
  refine ⟨rfl, hnow, rfl, rfl, rfl, rfl, rfl, rfl, fun h h' => hadds.1 9 (hwarn h h'), fun h h' => hadds.1 10 (hthrottle h h'), fun hctl =>
    w.windowEnded.takeResult_modelled mean _ hctl⟩

/-! ### Recognition and timeout (R345, R346, R348) -/

/-- The wait of a run of edges with the line high. -/
theorem barRun_reaches {x w : State} (ht : x.ticking = true) (hw : w = x.waitUntil (max (max x.cnv.rel x.pw.clk0) x.cnv.lowAt + 17)) :
    x.cnv.rel + 17 ≤ w.now ∧ x.pw.clk0 + 17 ≤ w.now ∧ x.cnv.lowAt + 17 ≤ w.now := by
  have hnow : max (max x.cnv.rel x.pw.clk0) x.cnv.lowAt + 17 ≤ w.now := hw ▸ State.waitUntil_reaches _ _ ht
  omega

theorem exec_barNRecognised {s w : State} {dt : Nat} (ha : (s.arrive dt).answering = true) (hd : (s.arrive dt).cnv.drv = false)
    (hw : w = (s.arrive dt).waitUntil (max (max (s.arrive dt).cnv.rel (s.arrive dt).pw.clk0) (s.arrive dt).cnv.lowAt + 17))
    (hwd : w.cnv.drv = false) :
    exec (.barNRecognised ⟨dt, true⟩) s = .next ((w.onCnv fun c => { c with high := true }).barGo).settle := by
  show execBarNRecognised ⟨dt, true⟩ s = _
  unfold execBarNRecognised
  refine event_body ?_
  rw [State.answering_ticking ha, hd, ← hw]
  simp only [Bool.not_true, Bool.false_eq_true, if_false, hwd]

/-- An engine that is ready takes the edge as its recognition; another leaves its barriers. -/
theorem barGo_recognises (w : State) (ha : w.answering = true) :
    (∀ (n : RingNo) (x : Barrier), w.rings[n].barrier = some x → x.go = none → w.allReady = true →
        ((w.onCnv fun c => { c with high := true }).barGo).rings[n].barrier = some { x with go := some w.now }) ∧
      (w.allReady = false → ((w.onCnv fun c => { c with high := true }).barGo).rings = w.rings) ∧
      ((w.onCnv fun c => { c with high := true }).barGo).cnv.high = true ∧ ((w.onCnv fun c => { c with high := true }).barGo).now = w.now := by
  have hready : ((w.onCnv fun c => { c with high := true }).answering && (w.onCnv fun c => { c with high := true }).allReady) = w.allReady := by
    show (w.answering && w.allReady) = _
    rw [ha, Bool.true_and]
  unfold State.barGo
  rw [hready]
  cases w.allReady with
  | false => exact ⟨nofun, fun _ => rfl, rfl, rfl⟩
  | true =>
    rw [if_pos rfl]
    refine ⟨fun n x hx hgo _ => ?_, nofun, rfl, rfl⟩
    have hring : (w.rings.map fun r : Ring => { r with barrier := r.barrier.map fun b : Barrier => { b with go := b.go.or (some w.now) } })[n].barrier =
        w.rings[n].barrier.map fun b : Barrier => { b with go := b.go.or (some w.now) } := by simp
    refine hring.trans ?_
    rw [hx, Option.map_some, hgo]
    rfl

theorem barNRecognised_low (s : State) (dt : Nat) (h : (s.arrive dt).ticking = true) :
    exec (.barNRecognised ⟨dt, false⟩) s = .next ((s.arrive dt).onCnv fun c => { c with high := false, lowAt := (s.arrive dt).now }).settle := by
  show execBarNRecognised ⟨dt, false⟩ s = _
  unfold execBarNRecognised
  refine event_body ?_
  rw [h]
  rfl

theorem exec_barrierTimeout {s w : State} {dt : Nat} {n : RingNo} {x : Barrier} (ha : (s.arrive dt).answering = true)
    (hx : (s.arrive dt).rings[n].barrier = some x) (hn : x.limit ≠ 0) (hgo : x.go = none)
    (hw : w = (s.arrive dt).waitUntil (x.at0 + 256 * x.limit)) (hwx : w.rings[n].barrier = some x) :
    exec (.barrierTimeout dt n) s = .next (w.dropBarrier n).settle := by
  show execBarrierTimeout dt n s = _
  unfold execBarrierTimeout
  refine event_body ?_
  rw [hx]
  dsimp only
  rw [ha, decide_eq_true hn, hgo, ← hw]
  exact (if_pos rfl).trans (if_pos hwx)

theorem exec_barrierTimeout_unlimited {s : State} {dt : Nat} {n : RingNo} {x : Barrier} (hx : (s.arrive dt).rings[n].barrier = some x)
    (hn : x.limit = 0) : exec (.barrierTimeout dt n) s = .next (s.arrive dt).settle := by
  show execBarrierTimeout dt n s = _
  unfold execBarrierTimeout
  refine event_body ?_
  rw [hx]
  dsimp only
  rw [hn]
  exact if_neg (by simp)

/-! ### The drive (Table 16.1) -/

/-- The engine lets the line go. -/
def State.barFree (s : State) : State := s.onCnv fun c => { c with drv := false, rel := if c.drv then s.now else c.rel }

/-- The engine holds the line low. -/
def State.barLowDriven (s : State) : State := s.onCnv fun c => { c with drv := true }

/-- A vote withdrawn by work (R358). -/
def State.voteWithdrawn (s : State) : State :=
  ((s.barLowDriven.onCnv fun c => { c with voted := false, wake := true }).setCause (bitMask 24)).count .wake

theorem settleBar_eq {s : State} (hheld : s.heldInReset = false) (hbusy : s.pw.busy = false) (hqual : s.pw.qual = false)
    (hst : s.pw.st ≠ .dormant) :
    s.settleBar = if s.armed then (if s.allReady then s.barFree else s.barLowDriven.dropGo)
      else if !s.vote then s.barFree
      else if s.casting then s.barFree.onCnv fun c => { c with voted := true }
      else if s.hasWork then (if s.cnv.voted then s.voteWithdrawn else s.barLowDriven)
      else s.barFree := by
  unfold State.settleBar
  rw [hheld, hbusy, hqual, decide_eq_false hst]
  rfl

theorem voteWithdrawn_fields (s : State) :
    s.voteWithdrawn.cnv.drv = true ∧ s.voteWithdrawn.cnv.voted = false ∧ s.voteWithdrawn.cnv.wake = true ∧
      bitOf s.voteWithdrawn.cause 24 = true ∧ s.voteWithdrawn.cnt.wake = satAdd 0xFFFF s.cnt.wake 1 := by
  unfold State.voteWithdrawn
  generalize hx : (s.barLowDriven.onCnv _).setCause (bitMask 24) = x
  have hbit : bitOf x.cause 24 = true := hx ▸ setCause_bit _ (by decide)
  have hcnt : (x.count .wake).cnt.wake = satAdd 0xFFFF x.cnt.wake 1 := by rw [State.count_cnt]; rfl
  have hgrows := x.count_grows .wake 24 hbit
  obtain ⟨e, n, k, heq⟩ := x.count_eq .wake
  rw [heq] at hcnt hgrows ⊢
  subst hx
  exact ⟨rfl, rfl, rfl, hgrows, hcnt⟩

theorem settleBar_drives (s : State) (hheld : s.heldInReset = false) (hbusy : s.pw.busy = false) (hqual : s.pw.qual = false)
    (hst : s.pw.st ≠ .dormant) :
    (s.armed = true → s.allReady = false → s.settleBar.cnv.drv = true ∧
      ∀ (n : RingNo) (x : Barrier), s.settleBar.rings[n].barrier = some x → x.go = none) ∧
    (s.armed = true → s.allReady = true → s.settleBar.cnv.drv = false) ∧
    (s.armed = false → s.vote = false → s.settleBar.cnv.drv = false) ∧
    (s.armed = false → s.vote = true → s.casting = true → s.settleBar.cnv.drv = false ∧ s.settleBar.cnv.voted = true) ∧
    (s.armed = false → s.vote = true → s.casting = false → s.hasWork = true → s.settleBar.cnv.drv = true ∧
      s.settleBar.cnv.voted = false ∧ (s.cnv.voted = true → s.settleBar.cnv.wake = true ∧ bitOf s.settleBar.cause 24 = true ∧
        s.settleBar.cnt.wake = satAdd 0xFFFF s.cnt.wake 1)) := by
  rw [settleBar_eq hheld hbusy hqual hst]
  refine ⟨fun h h' => ?_, fun h h' => ?_, fun h h' => ?_, fun h h' hc => ?_, fun h h' hc hwork => ?_⟩ <;> rw [h, h']
  · refine ⟨rfl, fun n x hx => ?_⟩
    have hring : s.barLowDriven.dropGo.rings[n].barrier = s.rings[n].barrier.map fun b => { b with go := none } := by
      simp [State.dropGo, State.barLowDriven]
    obtain ⟨y, -, rfl⟩ := Option.map_eq_some_iff.1 (hring.symm.trans hx)
    rfl
  · rfl
  · rfl
  · rw [hc]
    exact ⟨rfl, rfl⟩
  · rw [hc, hwork]
    cases hv : s.cnv.voted with
    | true =>
      obtain ⟨hdrv, hvoted, hwake, hbit, hcnt⟩ := voteWithdrawn_fields s
      exact ⟨hdrv, hvoted, fun _ => ⟨hwake, hbit, hcnt⟩⟩
    | false => exact ⟨rfl, hv, nofun⟩

/-- Settles O58: the recognition by `barGo_recognises`, the timeout by the fields of a dropped barrier, the drive by `settleBar_drives`. -/
theorem barrierLine : Obligations.BarrierLine := by
  unfold Obligations.BarrierLine
  refine ⟨fun s w dt ha hd hw hwa hwd => ?_, barNRecognised_low, fun s dt n x ha hx => ⟨fun w hn hgo hw hwx => ?_, fun hn => ?_⟩, settleBar_drives⟩
  · obtain ⟨hgo, hnot, hhigh, hb⟩ := barGo_recognises w hwa
    refine ⟨_, exec_barNRecognised ha hd hw hwd, hhigh, ?_⟩
    rw [hb]
    obtain ⟨hrel, hclk, hlow⟩ := barRun_reaches (State.answering_ticking ha) hw
    exact ⟨hrel, hclk, hlow, hgo, hnot⟩
  · have hnow : x.at0 + 256 * x.limit ≤ w.now := hw ▸ State.waitUntil_reaches _ _ (State.answering_ticking ha)
    exact ⟨_, exec_barrierTimeout ha hx hn hgo hw hwx, (State.dropBarrier_barrier w n n).trans (if_pos rfl), w.dropBarrier_gated n, hnow, rfl⟩
  · exact exec_barrierTimeout_unlimited hx hn

end Sys2Proof.Machine

/-! SUPPORT. Limited outputs, foldback, output faults and pair contention (R296 to R299). The proof of O49. -/

namespace Sys2Proof.Machine

open Sys2Proof.Safety

/-! ### Limited outputs and foldback -/

namespace State

theorem exec_outputLimited {s : State} {dt held : Nat} {m : OutNo} {sink : Bool} {ok : BitVec 3} (hs : (s.arrive dt).senses = true)
    (hheld : 512 ≤ held) (hm : (s.arrive dt).sensed m = true) (hnew : ∀ l ∈ (s.arrive dt).sup.limited, l.out ≠ m)
    (hdone : (s.arrive dt).changeDone m ≤ (s.arrive dt).now) :
    exec (.outputLimited dt m held sink ok) s = .next ((((s.arrive dt).onSup fun u =>
      { u with limited := u.limited ++ [⟨m, (s.arrive dt).now - held, (s.arrive dt).now, sink, false⟩] }).senseOk ok).beginFoldback).settle := by
  have hnot : ((s.arrive dt).sup.limited.any fun l => l.out == m) = false := by simpa using hnew
  show execOutputLimited dt m held sink ok s = _
  unfold execOutputLimited
  refine event_body ?_
  rw [hs, decide_eq_true hheld, hm, hnot, waitUntil_past _ _ hdone]
  simp only [Bool.and_self, Bool.not_false, Bool.not_true, if_true, hm, Bool.false_eq_true, if_false]

/-- Foldback begins above 16 limited outputs, with its cause and an entry that names the count. -/
theorem beginFoldback_begins {s : State} (h : 16 < s.sup.limited.length) (hf : s.sup.foldback = false) :
    bitOf s.beginFoldback.cause 5 = true ∧ s.beginFoldback.sup = { s.sup with foldback := true, noCheck := true } ∧
      (s.log.length < 16 → ∃ e, s.beginFoldback.log = s.log ++ [e] ∧ fld e.a 0 8 = 0x21 ∧ fld e.a 8 8 = min 255 s.sup.limited.length) := by
  let x : State := (s.onSup fun u => { u with foldback := true, noCheck := true }).setCause (bitMask 5)
  have heq : s.beginFoldback = (x.log_ 0x21 x.foldCount 0 0).onEdge fun e => { e with fold := some s.log.length } := by
    unfold beginFoldback
    rw [decide_eq_true h, hf]
    rfl
  have hcount : x.foldCount < 256 := Nat.lt_of_le_of_lt (Nat.min_le_left _ _) (by decide)
  rw [heq]
  refine ⟨(x.log_adds 0x21 x.foldCount 0 0).1 5 (setCause_bit _ (by decide)), (x.log_faults 0x21 x.foldCount 0 0).1, fun hroom => ?_⟩
  obtain ⟨e, hlog, -, hword⟩ := log_of_room x 0x21 x.foldCount 0 0 hroom
  obtain ⟨hcode, hdetail, -⟩ := hword (by decide) hcount (by decide)
  exact ⟨e, (congrArg State.log hlog :), hcode, hdetail⟩

/-- It changes nothing of the rails but that. -/
theorem beginFoldback_sup (s : State) :
    (s.beginFoldback.sup = { s.sup with foldback := true, noCheck := true } ∨ s.beginFoldback.sup = s.sup) ∧
      (16 < s.sup.limited.length → s.beginFoldback.sup.foldback = true) := by
  by_cases h : 16 < s.sup.limited.length ∧ s.sup.foldback = false
  · obtain ⟨hlen, hf⟩ := h
    obtain ⟨-, hsup, -⟩ := beginFoldback_begins hlen hf
    exact ⟨.inl hsup, fun _ => by rw [hsup]⟩
  · have hc : ¬ (decide (16 < s.sup.limited.length) && !s.sup.foldback) = true := by simpa using h
    have hsup : s.beginFoldback.sup = s.sup := by
      unfold beginFoldback
      rw [if_neg hc]
      split <;> rfl
    refine ⟨.inr hsup, fun hlen => ?_⟩
    rw [hsup]
    simpa [hlen] using h

theorem exec_outputLimitRelease {s : State} {dt : Nat} {m : OutNo} {ok : BitVec 3} (ha : (s.arrive dt).answering = true)
    (hm : ∃ l ∈ (s.arrive dt).sup.limited, l.out = m) :
    exec (.outputLimitRelease dt m ok) s = .next ((((s.arrive dt).onSup fun u =>
      { u with limited := u.limited.filter fun l => decide (l.out ≠ m) }).senseOk ok).endFoldback).settle := by
  have hany : ((s.arrive dt).sup.limited.any fun l => l.out == m) = true := by simpa using hm
  show execOutputLimitRelease dt m ok s = _
  unfold execOutputLimitRelease
  exact event_body (if_pos (by rw [ha, hany]; rfl))

/-- Foldback ends at 8 (R299). -/
theorem endFoldback_fields (s : State) :
    s.endFoldback.sup = { s.sup with foldback := s.sup.foldback && decide (8 < s.sup.limited.length) } := by
  unfold endFoldback
  by_cases h : (s.sup.foldback && decide (s.sup.limited.length ≤ 8)) = true
  · rw [if_pos h]
    have hle : ¬ 8 < s.sup.limited.length := by
      have := (Bool.and_eq_true_iff.1 h).2
      simpa using this
    rw [decide_eq_false hle, Bool.and_false]
    rfl
  · rw [if_neg h]
    have hsame : (s.sup.foldback && decide (8 < s.sup.limited.length)) = s.sup.foldback := by
      cases hf : s.sup.foldback with
      | false => rfl
      | true =>
        rw [hf] at h
        simpa using h
    rw [hsame]

/-! ### Faults -/

/-- A marked fault counts, and logs nothing. -/
theorem markFault_counts (s : State) (m : OutNo) :
    (s.markFault m).cnt.outFault = satAdd 0xFFFF s.cnt.outFault 1 ∧ (s.markFault m).log = s.log ∧
      (s.markFault m).sup.limited = s.sup.limited := by
  unfold markFault
  dsimp only
  have hcnt := count_cnt { s with
    sup := { s.sup with fault := s.sup.fault ||| outBit m }, edge := { s.edge with fault := s.edge.fault ||| outBit m } } .outFault
  obtain ⟨e, n, k, heq⟩ := count_eq { s with
    sup := { s.sup with fault := s.sup.fault ||| outBit m }, edge := { s.edge with fault := s.edge.fault ||| outBit m } } .outFault
  rw [heq] at hcnt ⊢
  exact ⟨congrArg Counters.outFault hcnt, rfl, rfl⟩

theorem log_cnt (s : State) (code detail : Nat) (n : RingNo) (i : Nat) : (s.log_ code detail n i).cnt = s.cnt := by
  obtain ⟨e, l, o, k, heq⟩ := s.log_eq code detail n i
  rw [heq]

/-- The first of the outputs that fault, with its entry. -/
def faultOne (s : State) (d : Nat) (m : OutNo) : State := (s.markFault m).log_ 0x20 d 0 m.val

theorem faultOne_fields (s : State) (d : Nat) (m : OutNo) :
    (s.faultOne d m).cnt.outFault = satAdd 0xFFFF s.cnt.outFault 1 ∧
      (∀ k : OutNo, (s.faultOne d m).sup.fault.getLsbD k.val = (s.sup.fault.getLsbD k.val || decide (m = k))) := by
  obtain ⟨hcnt, -⟩ := s.markFault_counts m
  obtain ⟨hfault, -⟩ := s.markFault_fields m
  refine ⟨?_, fun k => ?_⟩
  · rw [faultOne, log_cnt, hcnt]
  · rw [faultOne, (log_faults _ _ _ _ _).1, hfault, BitVec.getLsbD_or, outBit_getLsbD]

theorem faultOne_log {s : State} {d : Nat} (hd : d < 256) (m : OutNo) (h : s.log.length < 16) :
    ∃ e, (s.faultOne d m).log = s.log ++ [e] ∧ fld e.a 0 8 = 0x20 ∧ fld e.a 8 8 = d ∧ fld e.a 18 16 = m.val := by
  obtain ⟨-, hlog, -⟩ := s.markFault_counts m
  obtain ⟨e, heq, -, hword⟩ := log_of_room (s.markFault m) 0x20 d 0 m.val (by rw [hlog]; exact h)
  obtain ⟨hcode, hdetail, -, hindex⟩ := hword (by decide) hd (by omega)
  exact ⟨e, by rw [faultOne, heq, ← hlog], hcode, hdetail, hindex⟩

/-- The output, and then its partner where that has no fault yet. -/
theorem outputFault_eq {s : State} {m : OutNo} (d : Nat) (h : s.sup.fault.getLsbD m.val = false) :
    s.outputFault d m = match s.partner m with
      | some p => if (s.faultOne d m).sup.fault.getLsbD p.val then s.faultOne d m else (s.faultOne d m).faultOne d p
      | none => s.faultOne d m := by
  have hpartner : (s.faultOne d m).partner m = s.partner m :=
    partner_of_faulted ((s.markFault_faulted m).trans (log_faulted _ _ _ _ _)) m
  rw [← hpartner]
  exact if_neg (by rw [h]; decide)

/-- Each output that faults counts once. -/
theorem outputFault_counts {s : State} {m : OutNo} (d : Nat) (h : s.sup.fault.getLsbD m.val = false) :
    (s.partner m = none → (s.outputFault d m).cnt.outFault = satAdd 0xFFFF s.cnt.outFault 1) ∧
      (∀ p, s.partner m = some p → p ≠ m → s.sup.fault.getLsbD p.val = false →
        (s.outputFault d m).cnt.outFault = satAdd 0xFFFF (satAdd 0xFFFF s.cnt.outFault 1) 1) := by
  obtain ⟨hcnt, hbit⟩ := s.faultOne_fields d m
  rw [outputFault_eq d h]
  refine ⟨fun hp => ?_, fun p hp hne hf => ?_⟩
  · rw [hp]
    exact hcnt
  · have hpf : ¬ (s.faultOne d m).sup.fault.getLsbD p.val = true := by
      rw [hbit, hf, decide_eq_false (Ne.symm hne)]
      decide
    rw [hp]
    dsimp only
    rw [if_neg hpf, ((s.faultOne d m).faultOne_fields d p).1, hcnt]

/-- The first entry is that of the output found. -/
theorem outputFault_log {s : State} {m : OutNo} {d : Nat} (hd : d < 256) (h : s.sup.fault.getLsbD m.val = false) (hroom : s.log.length < 16) :
    ∃ e, (s.outputFault d m).log[s.log.length]? = some e ∧ fld e.a 0 8 = 0x20 ∧ fld e.a 18 16 = m.val ∧ fld e.a 8 8 = d := by
  obtain ⟨e, hlog, hcode, hdetail, hindex⟩ := faultOne_log hd m hroom
  have hprefix : s.log ++ [e] <+: (s.outputFault d m).log := by
    rw [outputFault_eq d h, ← hlog]
    split
    · split
      · exact List.prefix_rfl
      · next p _ _ =>
        have hmark : ((s.faultOne d m).markFault p).log = (s.faultOne d m).log := ((s.faultOne d m).markFault_counts p).2.1
        rw [← hmark]
        exact (log_adds _ _ _ _ _).2
    · exact List.prefix_rfl
  obtain ⟨t, ht⟩ := hprefix
  exact ⟨e, by rw [← ht]; simp, hcode, hindex, hdetail⟩

end State

/-! ### A long limit (R297) -/

/-- What a long limit notes of the outputs that are tied to it. -/
def State.tiesNoted (w : State) (l : Lim) : State :=
  w.onSup fun u => { u with limited := u.limited.map fun z => { z with tied := z.tied || w.tied l z } }

/-- An output that it is tied to comes to the same condition (Table 13.3). -/
def State.tieDue (w : State) (l : Lim) (both : Bool) : Bool :=
  w.sup.limited.any fun y => w.tied l y && (both || decide (y.since + 2048 ≤ w.now))

theorem State.tieDue_iff {w : State} {l : Lim} {both : Bool} :
    w.tieDue l both = true ↔ ∃ z ∈ w.sup.limited, w.tied l z = true ∧ (both = true ∨ z.since + 2048 ≤ w.now) := by
  simp [State.tieDue]

/-- The detail of the log entry. -/
def State.limitDetail (w : State) (l : Lim) (both : Bool) : Nat := if l.tied || w.tieDue l both then 3 else 1

theorem exec_outputFault {s w : State} {dt : Nat} {m : OutNo} {both : Bool} {l : Lim} (hs : (s.arrive dt).senses = true)
    (hl : (s.arrive dt).sup.limited.find? (fun x => x.out == m) = some l) (hw : w = (s.arrive dt).waitUntil (l.since + 2048))
    (hm : ∃ z ∈ w.sup.limited, z.out = m) :
    exec (.outputFault dt ⟨m, both⟩) s = .next ((w.tiesNoted l).outputFault (w.limitDetail l both) m).settle := by
  have hany : (w.sup.limited.any fun l => l.out == m) = true := by simpa using hm
  show execOutputFault dt ⟨m, both⟩ s = _
  unfold execOutputFault
  refine event_body ?_
  dsimp only
  rw [hl]
  dsimp only
  rw [if_pos hs, ← hw, if_pos hany]
  rfl

theorem outputFault_acts (s w : State) (dt : Nat) (m : OutNo) (both : Bool) (l : Lim) (hs : (s.arrive dt).senses = true)
    (hl : (s.arrive dt).sup.limited.find? (fun x => x.out == m) = some l) (hw : w = (s.arrive dt).waitUntil (l.since + 2048))
    (hm : ∃ z ∈ w.sup.limited, z.out = m) (hf : w.sup.fault.getLsbD m.val = false) :
    ∃ b : State, exec (.outputFault dt ⟨m, both⟩) s = .next b.settle ∧ b.sup.fault.getLsbD m.val = true ∧ bitOf b.cause 4 = true ∧
      l.since + 2048 ≤ b.now ∧ Deferred.floatFaulted ∈ b.later ∧ b.sup.limited.map (·.out) = w.sup.limited.map (·.out) ∧
      (w.log.length < 16 → ∃ e, b.log[w.log.length]? = some e ∧ fld e.a 0 8 = 0x20 ∧ fld e.a 18 16 = m.val ∧
        (l.tied = true ∨ (∃ z ∈ w.sup.limited, w.tied l z = true ∧ (both = true ∨ z.since + 2048 ≤ w.now)) → fld e.a 8 8 = 3) ∧
        (l.tied = false → (∀ z ∈ w.sup.limited, w.tied l z = true → both = false ∧ w.now < z.since + 2048) → fld e.a 8 8 = 1)) ∧
      (∀ z ∈ w.sup.limited, w.tied l z = true → { z with tied := true } ∈ b.sup.limited) ∧
      (w.partner m = none → b.cnt.outFault = satAdd 0xFFFF w.cnt.outFault 1) ∧
      (∀ p, w.partner m = some p → b.sup.fault.getLsbD p.val = true ∧
        (p ≠ m → w.sup.fault.getLsbD p.val = false → b.cnt.outFault = satAdd 0xFFFF (satAdd 0xFFFF w.cnt.outFault 1) 1)) := by
  have hnow : l.since + 2048 ≤ w.now := hw ▸ State.waitUntil_reaches _ _ (State.answering_ticking (Bool.and_eq_true_iff.1
    (Bool.and_eq_true_iff.1 hs).1).1)
  have hfault : (w.tiesNoted l).sup.fault.getLsbD m.val = false := hf
  have hdetail : w.limitDetail l both < 256 := by unfold State.limitDetail; split <;> decide
  refine ⟨_, exec_outputFault hs hl hw hm, ?_⟩
  obtain ⟨hbit, hcause, hlater⟩ := (w.tiesNoted l).outputFault_fields (w.limitDetail l both) m hfault
  obtain ⟨hone, htwo⟩ := State.outputFault_counts (w.limitDetail l both) hfault
  have hlog := State.outputFault_log (m := m) hdetail hfault
  have hrest : ((w.tiesNoted l).outputFault (w.limitDetail l both) m).sup.limited = (w.tiesNoted l).sup.limited ∧
      ((w.tiesNoted l).outputFault (w.limitDetail l both) m).now = w.now := by
    obtain ⟨e, c, k, la, g, o, f, b, heq⟩ := (w.tiesNoted l).outputFault_faulted (w.limitDetail l both) m
    rw [heq]
    exact ⟨rfl, rfl⟩
  obtain ⟨hlimited, hb⟩ := hrest
  have hmap : (w.tiesNoted l).sup.limited = w.sup.limited.map fun z => { z with tied := z.tied || w.tied l z } := rfl
  rw [hb, hlimited, hmap]
  refine ⟨?_, hcause, hnow, hlater, ?_, fun hroom => ?_, fun z hz ht => ?_, hone, fun p hp => ⟨?_, htwo p hp⟩⟩
  · rw [hbit, decide_eq_true (rfl : m = m), Bool.or_true, Bool.true_or]
  · rw [List.map_map]
    rfl
  · obtain ⟨e, he, hcode, hindex, hd⟩ := hlog hroom
    refine ⟨e, he, hcode, hindex, fun h => hd.trans (if_pos ?_), fun h h' => hd.trans (if_neg ?_)⟩
    · rw [Bool.or_eq_true, State.tieDue_iff]
      exact h
    · rw [Bool.or_eq_true, State.tieDue_iff, h]
      rintro (h | ⟨z, hz, ht, hdue⟩)
      · exact Bool.false_ne_true h
      · obtain ⟨hboth, hlt⟩ := h' z hz ht
        obtain hdue | hdue := hdue
        · exact Bool.false_ne_true (hboth.symm.trans hdue)
        · omega
  · exact List.mem_map.2 ⟨z, hz, by rw [ht, Bool.or_true]⟩
  · have hp' : (w.tiesNoted l).partner m = some p := hp
    rw [hbit, hp', decide_eq_true (rfl : some p = some p), Bool.or_true]

/-! ### Pair contention (R297) -/

theorem outBit_getLsbD_nat (m : OutNo) {k : Nat} (h : k ≠ m.val) : (outBit m).getLsbD k = false := by
  unfold outBit
  rw [BitVec.getLsbD_ofNat, Nat.testBit_two_pow, decide_eq_false (Ne.symm h), Bool.and_false]

/-- The outputs of pair p. -/
theorem pairOut_val (p : Fin 144) :
    (Fin.ofNat 292 (2 * p.val) : OutNo).val = 2 * p.val ∧ (Fin.ofNat 292 (2 * p.val + 1) : OutNo).val = 2 * p.val + 1 := by
  have hp := p.isLt
  exact ⟨Nat.mod_eq_of_lt (by omega), Nat.mod_eq_of_lt (by omega)⟩

theorem exec_pairContention {s : State} {dt : Nat} {p : Fin 144} {a b : OutNo} (ha : a = Fin.ofNat 292 (2 * p.val))
    (hb : b = Fin.ofNat 292 (2 * p.val + 1)) (hs : (s.arrive dt).senses = true)
    (hg : ((s.arrive dt).gangsAt a.val).getLsbD p.val = true) (hfa : (s.arrive dt).sup.fault.getLsbD a.val = false)
    (hfb : (s.arrive dt).sup.fault.getLsbD b.val = false) :
    exec (.pairContention dt p) s = .next ((((s.arrive dt).markFault a).markFault b).log_ 0x22 0 0 p.val).settle := by
  subst ha hb
  show execPairContention dt p s = _
  unfold execPairContention
  exact event_body (if_pos (by rw [hs, hg, hfa, hfb]; rfl))

theorem pairContention_acts (s : State) (dt : Nat) (p : Fin 144) (hs : (s.arrive dt).senses = true)
    (hg : ((s.arrive dt).gangsAt (2 * p.val)).getLsbD p.val = true) (hfa : (s.arrive dt).sup.fault.getLsbD (2 * p.val) = false)
    (hfb : (s.arrive dt).sup.fault.getLsbD (2 * p.val + 1) = false) :
    ∃ b : State, exec (.pairContention dt p) s = .next b.settle ∧ b.sup.fault.getLsbD (2 * p.val) = true ∧
      b.sup.fault.getLsbD (2 * p.val + 1) = true ∧ bitOf b.cause 4 = true ∧ Deferred.floatFaulted ∈ b.later ∧
      b.cnt.outFault = satAdd 0xFFFF (satAdd 0xFFFF (s.arrive dt).cnt.outFault 1) 1 ∧ b.sup.limited = (s.arrive dt).sup.limited ∧
      ((s.arrive dt).log.length < 16 →
        ∃ e, b.log = (s.arrive dt).log ++ [e] ∧ fld e.a 0 8 = 0x22 ∧ fld e.a 18 16 = p.val) ∧
      (∀ k, k ≠ 2 * p.val → k ≠ 2 * p.val + 1 → b.sup.fault.getLsbD k = (s.arrive dt).sup.fault.getLsbD k) := by
  obtain ⟨hva, hvb⟩ := pairOut_val p
  have hp := p.isLt
  generalize hax : (Fin.ofNat 292 (2 * p.val) : OutNo) = a at hva
  generalize hbx : (Fin.ofNat 292 (2 * p.val + 1) : OutNo) = b at hvb
  have hexec := exec_pairContention hax.symm hbx.symm hs (by rw [hva]; exact hg) (by rw [hva]; exact hfa) (by rw [hvb]; exact hfb)
  generalize s.arrive dt = x at hexec ⊢
  obtain ⟨hfault, -, -⟩ := x.markFault_fields a
  obtain ⟨hcnt, hlog, hlim⟩ := x.markFault_counts a
  obtain ⟨hfault', hcause', hlater'⟩ := (x.markFault a).markFault_fields b
  obtain ⟨hcnt', hlog', hlim'⟩ := (x.markFault a).markFault_counts b
  generalize hy : (x.markFault a).markFault b = y at *
  obtain ⟨hsup, hlater⟩ := y.log_faults 0x22 0 0 p.val
  rw [hfault] at hfault'
  refine ⟨_, hexec, ?_⟩
  rw [hsup, hlater, hfault', State.log_cnt, hcnt', hcnt]
  refine ⟨?_, ?_, (y.log_adds _ _ _ _).1 4 hcause', hlater', rfl, hlim'.trans hlim, fun hroom => ?_, fun k hka hkb => ?_⟩
  · rw [← hva, BitVec.getLsbD_or, BitVec.getLsbD_or, outBit_getLsbD a a, decide_eq_true rfl, Bool.or_true, Bool.true_or]
  · rw [← hvb, BitVec.getLsbD_or, outBit_getLsbD b b, decide_eq_true rfl, Bool.or_true]
  · have hlogs : y.log = x.log := hlog'.trans hlog
    obtain ⟨e, heq, -, hword⟩ := log_of_room y 0x22 0 0 p.val (by rw [hlogs]; exact hroom)
    obtain ⟨hcode, -, -, hindex⟩ := hword (by decide) (by decide) (by omega)
    exact ⟨e, by rw [heq, hlogs], hcode, hindex⟩
  · rw [BitVec.getLsbD_or, BitVec.getLsbD_or, outBit_getLsbD_nat a (by rw [hva]; exact hka), outBit_getLsbD_nat b (by rw [hvb]; exact hkb),
      Bool.or_false, Bool.or_false]

/-! ### The effects of a fault (R296, R298) -/

theorem floatFaulted_fields (s : State) :
    (s.runDeferred .floatFaulted).sup.floats = s.sup.floats ||| s.sup.fault ∧ (s.runDeferred .floatFaulted).sup.limited = s.sup.limited ∧
      (s.sup.limited ≠ [] → Deferred.dropLimited ∈ (s.runDeferred .floatFaulted).later) := by
  have hrun : ∃ x : State, s.runDeferred .floatFaulted = x.unsense ∧ x.sup.floats = s.sup.floats ||| s.sup.fault ∧
      x.sup.limited = s.sup.limited := ⟨_, rfl, rfl, rfl⟩
  obtain ⟨x, hrun, hfloats, hlimited⟩ := hrun
  rw [hrun]
  have hsup : x.unsense.sup = x.sup := by
    obtain ⟨l, heq, -⟩ := x.unsense_eq
    rw [heq]
  refine ⟨by rw [hsup, hfloats], by rw [hsup, hlimited], fun hne => ?_⟩
  have hempty : x.sup.limited.isEmpty = false := by rw [hlimited]; exact List.isEmpty_eq_false_iff.2 hne
  unfold State.unsense
  rw [hempty, Bool.false_or]
  split
  next h => simpa using h
  next => exact List.mem_append_right _ (List.mem_singleton_self _)

/-- Settles O49: the limits by `State.beginFoldback_begins`, the faults by `outputFault_acts` and `pairContention_acts`, what follows one edge
and two edges later by `floatFaulted_fields`. -/
theorem outputProtection : Obligations.OutputProtection := by
  unfold Obligations.OutputProtection
  refine ⟨⟨fun s dt held m sink ok hs hheld hm hnew hdone => ?_, fun s dt m ok ha hm => ?_⟩, outputFault_acts, pairContention_acts,
    fun s k hk => ?_, fun s => ?_⟩
  · refine ⟨_, State.exec_outputLimited hs hheld hm hnew hdone, ?_⟩
    generalize hx : State.senseOk _ ok = x
    obtain ⟨hsup, hfold⟩ := x.beginFoldback_sup
    have hbegins := State.beginFoldback_begins (s := x)
    have hsame : x.beginFoldback.sup.limited = x.sup.limited ∧ x.beginFoldback.sup.vposOk = x.sup.vposOk ∧
        x.beginFoldback.sup.vnegOk = x.sup.vnegOk ∧ x.beginFoldback.sup.vcomOk = x.sup.vcomOk := by
      obtain hsup | hsup := hsup <;> rw [hsup] <;> exact ⟨rfl, rfl, rfl, rfl⟩
    obtain ⟨hlimited, hpos, hneg, hcom⟩ := hsame
    rw [hlimited, hpos, hneg, hcom]
    subst hx
    refine ⟨rfl, rfl, rfl, rfl, hfold, fun hf hlen => ?_⟩
    obtain ⟨hcause, hsup', hlog⟩ := hbegins hlen hf
    exact ⟨hcause, by rw [hsup'], hlog⟩
  · refine ⟨_, State.exec_outputLimitRelease ha hm, ?_⟩
    rw [State.endFoldback_fields]
    exact ⟨rfl, rfl, rfl⟩
  · rw [(floatFaulted_fields s).1, BitVec.getLsbD_or]
  · obtain ⟨-, hlimited, hdrop⟩ := floatFaulted_fields s
    have hrun : s.runDeferred .dropLimited = (s.onSup fun u => { u with limited := u.limited.filter fun l => s.sensed l.out }).endFoldback := rfl
    refine ⟨hlimited, hdrop, ?_⟩
    rw [hrun, State.endFoldback_fields]
    rfl

end Sys2Proof.Machine

/-! SUPPORT. The instructions of the test access port and the pins that they drive (R368 to R372, Tables 18.1 and 18.2). The proof of O59. -/

namespace Sys2Proof.Machine

open Sys2Proof.Safety

/-! ### What a load of the instruction register leaves -/

/-- The TAP with op in its instruction register, in state c. -/
def Tap.loaded (t : Tap) (c : TapCtl) (op : BitVec 4) : Tap := ({ t with ir := op, drive := if op = 8 then 0 else t.drive }).enter c

/-- Nothing but the instruction register. -/
def State.irLoaded (s : State) (c : TapCtl) (op : BitVec 4) : State := { s with tap := s.tap.loaded c op }

theorem State.loadIr_eq {s : State} (c : TapCtl) (op : BitVec 4) (h : s.pw.por = false) :
    s.loadIr c op =
      if testMode op then (if s.heldInReset then s.irLoaded c op else (s.irLoaded c op).rstnState)
      else if testMode s.tap.ir then ((s.irLoaded c op).onPw fun p => { p with first := true }).clocked
      else s.irLoaded c op := if_neg (by rw [h]; decide)

/-- The reset of a test-mode instruction keeps ID_TILE_ID, the locks and the TAP. -/
theorem State.rstnState_held (s : State) :
    s.rstnState.tap = s.tap ∧ s.rstnState.lock = s.lock ∧ s.rstnState.tile = s.tile ∧ s.rstnState.heldInReset = s.heldInReset ∧
      s.rstnState.pw.st = .dormant := by
  obtain ⟨d, u, heq⟩ := s.fastDischarge_eq
  have hclear : s.rstnClear.tap = s.tap ∧ s.rstnClear.lock = s.lock ∧ s.rstnClear.tile = s.tile ∧
      s.rstnClear.heldInReset = s.heldInReset ∧ s.rstnClear.pw.st = .dormant := by
    unfold State.rstnClear
    rw [heq]
    exact ⟨rfl, rfl, rfl, rfl, rfl⟩
  exact hclear

/-- Edge 1 of the clocking that follows leaves them too. -/
theorem State.clocked_keeps (s : State) : s.clocked.tap = s.tap ∧ s.clocked.lock = s.lock ∧ s.clocked.tile = s.tile := by
  cases h : s.ticking with
  | false =>
    rw [State.clocked_standing h]
    exact ⟨rfl, rfl, rfl⟩
  | true =>
    have htick : s.firstEdge = s.beforeFirst.tick := s.beforeFirst.elapse_one h
    have hfixed := s.beforeFirst.advance_fixed
    have hlock : s.beforeFirst.advance.lock = s.lock := (congrArg (fun x : State => x.lock) hfixed :)
    have htile : s.beforeFirst.advance.tile = s.tile := (congrArg (fun x : State => x.tile) hfixed :)
    have htap : s.beforeFirst.advance.tap = s.tap := (congrArg (fun x : State => x.tap) hfixed :)
    have hclosed : s.beforeFirst.closeEdge = s.beforeFirst := rfl
    rw [State.clocked_ticking h, htick, State.tick, hclosed]
    exact ⟨htap, hlock, htile⟩

/-- A first clocking, with edge 1 where HCK runs (R371, R70). -/
theorem State.clocked_begins {s : State} (hf : s.pw.first = true) :
    s.clocked.pw.first = true ∧ (s.ticking = true → s.clocked.pw.qual = true ∧ s.clocked.edgeNo = 1) := by
  cases h : s.ticking with
  | false =>
    rw [State.clocked_standing h]
    exact ⟨hf, nofun⟩
  | true =>
    obtain ⟨hqual, hedge, -, -, -, hfirst⟩ := State.firstEdge_fields h
    rw [State.clocked_ticking h]
    exact ⟨hfirst.trans hf, fun _ => ⟨hqual, hedge⟩⟩

/-- What a load of op makes of an engine: the core held, left alone, or started. -/
theorem State.loadIr_fields {x : State} (c : TapCtl) (op : BitVec 4) (h : x.pw.por = false) :
    (x.loadIr c op).tap = x.tap.loaded c op ∧ (x.loadIr c op).lock = x.lock ∧ (x.loadIr c op).tile = x.tile ∧
      (testMode op = true → (x.loadIr c op).heldInReset = true ∧ (x.heldInReset = false → (x.loadIr c op).pw.st = .dormant)) ∧
      (testMode op = false → testMode x.tap.ir = false → (x.loadIr c op).port = x.port ∧ (x.loadIr c op).mem = x.mem ∧
        (x.loadIr c op).pw = x.pw) ∧
      (testMode op = false → testMode x.tap.ir = true → (x.loadIr c op).pw.first = true ∧
        (x.pw.rstn = true → x.pw.hck = true → (x.loadIr c op).pw.qual = true ∧ (x.loadIr c op).edgeNo = 1)) := by
  rw [State.loadIr_eq c op h]
  cases hop : testMode op with
  | true =>
    have hheld : (x.irLoaded c op).heldInReset = true := by
      show (_ || _ || testMode op) = true
      rw [hop, Bool.or_true]
    rw [if_pos rfl]
    cases hx : x.heldInReset with
    | true =>
      rw [if_pos rfl]
      exact ⟨rfl, rfl, rfl, fun _ => ⟨hheld, nofun⟩, nofun, nofun⟩
    | false =>
      rw [if_neg Bool.false_ne_true]
      obtain ⟨htap, hlock, htile, hsame, hst⟩ := (x.irLoaded c op).rstnState_held
      exact ⟨htap, hlock, htile, fun _ => ⟨hsame.trans hheld, fun _ => hst⟩, nofun, nofun⟩
  | false =>
    rw [if_neg Bool.false_ne_true]
    cases hwas : testMode x.tap.ir with
    | false =>
      rw [if_neg Bool.false_ne_true]
      exact ⟨rfl, rfl, rfl, nofun, fun _ _ => ⟨rfl, rfl, rfl⟩, nofun⟩
    | true =>
      rw [if_pos rfl]
      obtain ⟨htap, hlock, htile⟩ := ((x.irLoaded c op).onPw fun p => { p with first := true }).clocked_keeps
      obtain ⟨hfirst, hbegins⟩ := State.clocked_begins (s := (x.irLoaded c op).onPw fun p => { p with first := true }) rfl
      refine ⟨htap, hlock, htile, nofun, nofun, fun _ _ => ⟨hfirst, fun hr hh => hbegins ?_⟩⟩
      show (x.pw.hck && !(x.pw.por || !x.pw.rstn || testMode op)) = true
      rw [hh, h, hr, hop]
      rfl

/-! ### The commands -/

/-- Each instruction's command loads its opcode in Update-IR. -/
theorem exec_instruction {c : Instr} {dt : Nat} {tms : List Bool} {op : BitVec 4}
    (h : (c, op) ∈ [(Instr.extest ⟨dt, tms⟩, 0), (.samplePreload ⟨dt, tms⟩, 1), (.idcode ⟨dt, tms⟩, 2), (.clamp ⟨dt, tms⟩, 3),
        (.highz ⟨dt, tms⟩, 4), (.segtest ⟨dt, tms⟩, 8)] ∨ (c = .bypass ⟨dt, tms⟩ op ∧ listedOpcode op = false)) (s : State) :
    exec c s = event dt (fun s => s.updateIr tms op) s ∧ c ≠ .testLogicReset dt := by
  obtain h | ⟨rfl, hop⟩ := h
  · simp only [List.mem_cons, Prod.mk.injEq, List.not_mem_nil, or_false] at h
    obtain ⟨rfl, rfl⟩ | ⟨rfl, rfl⟩ | ⟨rfl, rfl⟩ | ⟨rfl, rfl⟩ | ⟨rfl, rfl⟩ | ⟨rfl, rfl⟩ := h <;> exact ⟨rfl, nofun⟩
  · have hbody : exec (.bypass ⟨dt, tms⟩ op) s = event dt (fun s => s.updateIr tms (if listedOpcode op then 0xF else op)) s := rfl
    rw [hbody, hop]
    exact ⟨rfl, nofun⟩

theorem State.updateIr_loads {x : State} {tms : List Bool} {op : BitVec 4} (hr : x.tap.ctl.reaches .updateIr tms = some .updateIr)
    (hop : x.tap.irShift = op) : x.updateIr tms op = x.loadIr .updateIr op := if_pos ⟨hr, hop⟩

/-- A load of either kind, where TMS leads to its state. -/
theorem exec_loadsIr (s : State) (dt : Nat) (tms : List Bool) (op : BitVec 4) (c : Instr)
    (h : (c = .testLogicReset dt ∧ op = 2) ∨ (s.tap.ctl.reaches .updateIr tms = some .updateIr ∧ s.tap.irShift = op ∧
      ((c, op) ∈ [(.extest ⟨dt, tms⟩, 0), (.samplePreload ⟨dt, tms⟩, 1), (.idcode ⟨dt, tms⟩, 2), (.clamp ⟨dt, tms⟩, 3), (.highz ⟨dt, tms⟩, 4),
        (.segtest ⟨dt, tms⟩, 8)] ∨ (c = .bypass ⟨dt, tms⟩ op ∧ listedOpcode op = false)))) :
    exec c s = .next ((s.arrive dt).loadIr (if c = .testLogicReset dt then .testLogicReset else .updateIr) op).settle := by
  obtain ⟨rfl, rfl⟩ | ⟨hr, hop, hc⟩ := h
  · have hbody : exec (.testLogicReset dt) s = event dt (fun s => s.loadIr .testLogicReset 2) s := rfl
    rw [hbody, if_pos rfl, event_next]
  · obtain ⟨hbody, hne⟩ := exec_instruction hc s
    rw [hbody, if_neg hne]
    exact event_body (State.updateIr_loads (by rw [State.arrive_tap]; exact hr) (by rw [State.arrive_tap]; exact hop))

/-- What a load leaves of the TAP, in a state that drives no TDO. -/
theorem Tap.loaded_fields (t : Tap) (op : BitVec 4) (reset : Prop) [Decidable reset] :
    (t.loaded (if reset then .testLogicReset else .updateIr) op).ir = op ∧
      (t.loaded (if reset then .testLogicReset else .updateIr) op).ctl = (if reset then .testLogicReset else .updateIr) ∧
      (t.loaded (if reset then .testLogicReset else .updateIr) op).tdo = none ∧
      (t.loaded (if reset then .testLogicReset else .updateIr) op).bnd = t.bnd ∧
      (t.loaded (if reset then .testLogicReset else .updateIr) op).bndOut = t.bndOut ∧
      (op = 8 → (t.loaded (if reset then .testLogicReset else .updateIr) op).drive = 0) ∧
      (op ≠ 8 → (t.loaded (if reset then .testLogicReset else .updateIr) op).drive = t.drive) := by
  split <;> exact ⟨rfl, rfl, rfl, rfl, rfl, fun h => if_pos h, fun h => if_neg h⟩

/-- The pins of a test-mode instruction (Table 18.2). -/
theorem testPins (s : State) (low : Bool) (p : LogicPin) (m : OutNo) (hp : p ≠ .tdo) :
    (s.tap.ir = 4 → s.logicPin low p = none ∧ s.outputPin m = .float ∧ s.vcomPin = .float) ∧
    (s.tap.ir = 0 ∨ s.tap.ir = 3 → s.logicPin low p = boundaryPin s.tap.bndOut p ∧ s.outputPin m = .node ∧ s.vcomPin = .ground) := by
  have hpin : s.logicPin low p = match s.boundaryPins with
      | some bnd => boundaryPin bnd p
      | none => if testMode s.tap.ir then none else s.corePin low p := by
    unfold State.logicPin
    split
    · exact absurd rfl hp
    · rfl
  unfold State.outputPin State.vcomPin
  rw [hpin, State.boundaryPins]
  refine ⟨fun h => ?_, fun h => ?_⟩
  · rw [h]
    exact ⟨rfl, rfl, rfl⟩
  · obtain h | h := h <;> rw [h] <;> exact ⟨rfl, rfl, rfl⟩

/-- Settles O59: `State.loadIr_fields` for the core, `Tap.loaded_fields` for the TAP, `testPins` for the pins. -/
theorem tapInstructions : Obligations.TapInstructions := by
  unfold Obligations.TapInstructions
  refine ⟨fun s dt tms op c hpor h => ?_, fun s dt tms h => ?_, fun c => ?_, by decide, testPins⟩
  · refine ⟨_, exec_loadsIr s dt tms op c h, ?_⟩
    obtain ⟨htap, hlock, htile, hheld, hleft, hstart⟩ :=
      State.loadIr_fields (x := s.arrive dt) (if c = .testLogicReset dt then .testLogicReset else .updateIr) op hpor
    obtain ⟨hir, hctl, htdo, hbnd, hout, hdrive, hkeep⟩ := s.tap.loaded_fields op (c = .testLogicReset dt)
    rw [State.arrive_tap] at htap hleft hstart
    rw [htap]
    exact ⟨hir, hctl, htdo, hbnd, hout, hdrive, hkeep, hlock, htile, hheld, hleft, hstart⟩
  · have hbody : exec (.extest ⟨dt, tms⟩) s = event dt (fun s => s.updateIr tms 0) s := rfl
    rw [hbody]
    refine event_body (if_neg ?_)
    rw [State.arrive_tap]
    rintro ⟨hr, hop⟩
    obtain h | h := h
    · rw [h] at hr
      cases hr
    · exact h hop
  · cases c <;> rfl

end Sys2Proof.Machine

/-! SUPPORT. Capture, update and shift of the test access port (R368, R370, R373 to R375). The proof of O60. -/

namespace Sys2Proof.Machine

open Sys2Proof.Safety

/-! ### The way of TMS -/

/-- A state that works ends with the edge on which it acts. -/
theorem TapCtl.reaches_works {f c c' : TapCtl} {tms : List Bool} (hc : c.works = true) (h : f.reaches c tms = some c') :
    ∃ b, tms.getLast? = some b ∧ f.walk tms.dropLast = some c ∧ c' = c.next b := by
  unfold reaches at h
  split at h
  next => cases h
  next b hb =>
    rw [if_pos hc] at h
    split at h
    next hw => exact ⟨b, hb, hw, (Option.some.inj h).symm⟩
    next => cases h

/-- No way leads on over the end of a state that works. -/
theorem TapCtl.walk_append_of_works {c : TapCtl} (hc : c.works = true) (b : Bool) :
    ∀ (l : List Bool) (f : TapCtl), f.walk l = some c → f.walk (l ++ [b]) = none := by
  intro l
  induction l with
  | nil =>
    intro f h
    cases h
    exact if_pos hc
  | cons x l ih =>
    intro f h
    cases l with
    | nil =>
      rw [walk] at h
      show (if f.works || (decide (f.next x ≠ f) && (f.next x).updates) then none else (f.next x).walk [b]) = none
      split at h
      · cases h
      · split
        · rfl
        · rw [walk, Option.some.inj h, if_pos hc]
    | cons y l =>
      rw [walk] at h
      · show (if f.works || (decide (f.next x ≠ f) && (f.next x).updates) then none else (f.next x).walk (y :: l ++ [b])) = none
        split at h
        · cases h
        · next hno => rw [if_neg hno, ih _ h]
      · exact nofun

/-- A way that ends a working state does not lead into it. -/
theorem TapCtl.walk_of_reaches {f c c' : TapCtl} {tms : List Bool} (hc : c.works = true) (h : f.reaches c tms = some c') :
    f.walk tms = none := by
  obtain ⟨b, hb, hw, -⟩ := reaches_works hc h
  obtain ⟨l, rfl⟩ := List.getLast?_eq_some_iff.1 hb
  rw [List.dropLast_concat] at hw
  exact walk_append_of_works hc b l f hw

/-- Update-DR is entered, not left, on the edge that acts. -/
theorem TapCtl.reaches_updateDr {f c' : TapCtl} {tms : List Bool} (h : f.reaches .updateDr tms = some c') : c' = .updateDr := by
  unfold reaches at h
  split at h
  next => cases h
  next =>
    rw [if_neg (by decide)] at h
    split at h
    · exact (Option.some.inj h).symm
    · cases h

/-- TDO in the instruction column. -/
theorem Tap.enter_ir (t : Tap) {c : TapCtl} (h : c = .shiftIr ∨ c = .exit1Ir) :
    (t.enter c).tdo = if c = .shiftIr then some (t.irShift.getLsbD 0) else none := by
  obtain rfl | rfl := h <;> rfl

/-- TDO in the data column. -/
theorem Tap.enter_dr (t : Tap) {c : TapCtl} (h : c = .shiftDr ∨ c = .exit1Dr) :
    (t.enter c).tdo = if c = .shiftDr then some t.low else none := by
  obtain rfl | rfl := h <;> rfl

/-- What a capture or a shift of either column leads to. -/
theorem TapCtl.next_ir {c : TapCtl} (h : c = .captureIr ∨ c = .shiftIr) (b : Bool) : c.next b = .shiftIr ∨ c.next b = .exit1Ir := by
  obtain rfl | rfl := h <;> cases b <;> decide

theorem TapCtl.next_dr {c : TapCtl} (h : c = .captureDr ∨ c = .shiftDr) (b : Bool) : c.next b = .shiftDr ∨ c.next b = .exit1Dr := by
  obtain rfl | rfl := h <;> cases b <;> decide

theorem State.onTap_reaches {s : State} {c c' : TapCtl} {tms : List Bool} (f : Tap → Tap) (hpor : s.pw.por = false)
    (h : s.tap.ctl.reaches c tms = some c') : s.onTap c tms f = { s with tap := (f s.tap).enter c' } := by
  unfold State.onTap
  rw [hpor, if_neg Bool.false_ne_true, h]

/-! ### The patterns of the segment test (R375) -/

/-- A number whose digit m to the base 4 has the bits a m and d m. -/
def pairNat (a d : Nat → Bool) (n : Nat) : Nat :=
  (List.range n).foldl (fun acc m => acc + (a m).toNat * 4 ^ m + 2 * ((d m).toNat * 4 ^ m)) 0

theorem pairNat_succ (a d : Nat → Bool) (n : Nat) :
    pairNat a d (n + 1) = 2 ^ (2 * n) * ((a n).toNat + 2 * (d n).toNat) + pairNat a d n := by
  have hpow : 4 ^ n = 2 ^ (2 * n) := by rw [Nat.pow_mul]
  unfold pairNat
  rw [List.range_succ, List.foldl_append]
  dsimp only [List.foldl_cons, List.foldl_nil]
  rw [hpow]
  ring

theorem pairNat_lt (a d : Nat → Bool) (n : Nat) : pairNat a d n < 2 ^ (2 * n) := by
  induction n with
  | zero => exact Nat.two_pow_pos _
  | succ n ih =>
    have hdigit : (a n).toNat + 2 * (d n).toNat ≤ 3 := by cases a n <;> cases d n <;> decide
    have hpow : 2 ^ (2 * (n + 1)) = 2 ^ (2 * n) * 4 := by rw [Nat.mul_succ, Nat.pow_add]
    rw [pairNat_succ, hpow]
    calc 2 ^ (2 * n) * ((a n).toNat + 2 * (d n).toNat) + pairNat a d n
        < 2 ^ (2 * n) * 3 + 2 ^ (2 * n) := Nat.add_lt_add_of_le_of_lt (Nat.mul_le_mul_left _ hdigit) ih
      _ = 2 ^ (2 * n) * 4 := by ring

theorem pairNat_testBit (a d : Nat → Bool) {n m : Nat} (h : m < n) :
    (pairNat a d n).testBit (2 * m) = a m ∧ (pairNat a d n).testBit (2 * m + 1) = d m := by
  induction n with
  | zero => omega
  | succ n ih =>
    rw [pairNat_succ, Nat.testBit_two_pow_mul_add _ (pairNat_lt a d n), Nat.testBit_two_pow_mul_add _ (pairNat_lt a d n)]
    obtain hm | rfl := Nat.lt_succ_iff_lt_or_eq.1 h
    · rw [if_pos (by omega), if_pos (by omega)]
      exact ih hm
    · rw [if_neg (by omega), if_neg (by omega), Nat.sub_self, Nat.add_sub_cancel_left]
      cases a m <;> cases d m <;> decide

/-- A number with the bits d m. -/
def bitsNat (d : Nat → Bool) (n : Nat) : Nat := (List.range n).foldl (fun acc m => acc + (d m).toNat * 2 ^ m) 0

theorem bitsNat_succ (d : Nat → Bool) (n : Nat) : bitsNat d (n + 1) = 2 ^ n * (d n).toNat + bitsNat d n := by
  unfold bitsNat
  rw [List.range_succ, List.foldl_append]
  dsimp only [List.foldl_cons, List.foldl_nil]
  ring

theorem bitsNat_lt (d : Nat → Bool) (n : Nat) : bitsNat d n < 2 ^ n := by
  induction n with
  | zero => exact Nat.two_pow_pos _
  | succ n ih =>
    have hdigit : (d n).toNat ≤ 1 := by cases d n <;> decide
    rw [bitsNat_succ, Nat.pow_succ]
    calc 2 ^ n * (d n).toNat + bitsNat d n < 2 ^ n * 1 + 2 ^ n := Nat.add_lt_add_of_le_of_lt (Nat.mul_le_mul_left _ hdigit) ih
      _ = 2 ^ n * 2 := by ring

theorem bitsNat_testBit (d : Nat → Bool) {n m : Nat} (h : m < n) : (bitsNat d n).testBit m = d m := by
  induction n with
  | zero => omega
  | succ n ih =>
    rw [bitsNat_succ, Nat.testBit_two_pow_mul_add _ (bitsNat_lt d n)]
    obtain hm | rfl := Nat.lt_succ_iff_lt_or_eq.1 h
    · rw [if_pos hm]
      exact ih hm
    · rw [if_neg (by omega), Nat.sub_self]
      cases d m <;> decide

theorem segPattern_eq (observe drive : BitVec 292) :
    segPattern observe drive = BitVec.ofNat 584 (pairNat (fun m => observe.getLsbD m) (fun m => drive.getLsbD m) 292) := by
  unfold segPattern pairNat
  rfl

theorem segPattern_bits (observe drive : BitVec 292) {m : Nat} (h : m < 292) :
    (segPattern observe drive).getLsbD (2 * m) = observe.getLsbD m ∧ (segPattern observe drive).getLsbD (2 * m + 1) = drive.getLsbD m := by
  obtain ⟨ho, hd⟩ := pairNat_testBit (fun m => observe.getLsbD m) (fun m => drive.getLsbD m) h
  rw [segPattern_eq]
  constructor
  · rw [BitVec.getLsbD_ofNat, ho, decide_eq_true (by omega : 2 * m < 584), Bool.true_and]
  · rw [BitVec.getLsbD_ofNat, hd, decide_eq_true (by omega : 2 * m + 1 < 584), Bool.true_and]

theorem segDrive_eq (p : BitVec 584) : segDrive p = BitVec.ofNat 292 (bitsNat (fun m => p.getLsbD (2 * m + 1)) 292) := by
  unfold segDrive bitsNat
  rfl

theorem segDrive_bits (p : BitVec 584) {m : Nat} (h : m < 292) : (segDrive p).getLsbD m = p.getLsbD (2 * m + 1) := by
  rw [segDrive_eq, BitVec.getLsbD_ofNat, bitsNat_testBit (fun m => p.getLsbD (2 * m + 1)) h, decide_eq_true h, Bool.true_and]

/-! ### Capture and update -/

/-- The input cells capture the pins (R374). -/
theorem capturedCells (pins cells other : BitVec 44) : ((pins &&& cells) ||| (other &&& ~~~cells)) &&& cells = pins &&& cells := by
  ext i hi
  simp only [BitVec.getElem_and, BitVec.getElem_or, BitVec.getElem_not]
  cases pins[i] <;> cases cells[i] <;> cases other[i] <;> rfl

/-- The bit that observes, before and after the test sources connect. -/
theorem testable_observe {u : Supply} (near : Bool) :
    (u.railsUp = false → ({ u with near := u.near || near } : Supply).testable = true) ∧
      (u.railsUp = true → near = false → u.near = false → ({ u with near := u.near || near } : Supply).testable = false) := by
  refine ⟨fun h => ?_, fun h hn hu => ?_⟩
  · unfold Supply.testable
    rw [h]
    rfl
  · unfold Supply.testable
    rw [h, hn, hu]
    simp

theorem capture_boundary {t : Tap} (h : dataReg t.ir = .boundary) (k : Nat) (pins : BitVec 44) (observe : BitVec 292) :
    t.capture k pins observe = { t with bnd := (pins &&& inputCells) ||| (BitVec.ofNat 44 (freeBits 44 k) &&& ~~~inputCells) } := by
  rw [Tap.capture, h]

theorem capture_ident {t : Tap} (h : dataReg t.ir = .ident) (k : Nat) (pins : BitVec 44) (observe : BitVec 292) :
    t.capture k pins observe = { t with id := idcodeValue } := by
  rw [Tap.capture, h]

theorem capture_bypass {t : Tap} (h : dataReg t.ir = .bypass) (k : Nat) (pins : BitVec 44) (observe : BitVec 292) :
    t.capture k pins observe = { t with byp := false } := by
  rw [Tap.capture, h]

theorem capture_segment {t : Tap} (h : dataReg t.ir = .segment) (k : Nat) (pins : BitVec 44) (observe : BitVec 292) :
    t.capture k pins observe = { t with seg := segPattern observe t.drive } := by
  rw [Tap.capture, h]

theorem capture_fields (t : Tap) (k : Nat) (pins : BitVec 44) (observe : BitVec 292) :
    (t.capture k pins observe).ir = t.ir ∧
      (dataReg t.ir = .ident → (t.capture k pins observe).id = if Config.filmDelivery then 0x121201AB else 0x111201AB) ∧
      (dataReg t.ir = .bypass → (t.capture k pins observe).byp = false) ∧
      (dataReg t.ir = .boundary → (t.capture k pins observe).bnd &&& inputCells = pins &&& inputCells) ∧
      (dataReg t.ir = .segment → (t.capture k pins observe).seg = segPattern observe t.drive) := by
  refine ⟨?_, fun h => ?_, fun h => ?_, fun h => ?_, fun h => ?_⟩
  · cases h : dataReg t.ir with
    | boundary => rw [capture_boundary h]
    | ident => rw [capture_ident h]
    | bypass => rw [capture_bypass h]
    | segment => rw [capture_segment h]
  · rw [capture_ident h]
    rfl
  · rw [capture_bypass h]
  · rw [capture_boundary h]
    exact capturedCells _ _ _
  · rw [capture_segment h]

theorem captureIr_acts (s : State) (dt : Nat) (tms : List Bool) (c : TapCtl) (hpor : (s.arrive dt).pw.por = false)
    (h : s.tap.ctl.reaches .captureIr tms = some c) :
    ∃ t, exec (.captureIr ⟨dt, tms⟩) s = .next t ∧ t.tap.irShift = 1 ∧ t.tap.ir = s.tap.ir ∧ t.tap.ctl = c ∧
      t.tap.tdo = (if c = .shiftIr then some true else none) := by
  have hbody : exec (.captureIr ⟨dt, tms⟩) s = event dt (fun s => s.onTap .captureIr tms fun t => { t with irShift := 1 }) s := rfl
  obtain ⟨b, -, -, hnext⟩ := TapCtl.reaches_works rfl h
  have hc : c = .shiftIr ∨ c = .exit1Ir := hnext ▸ TapCtl.next_ir (.inl rfl) b
  have htap : (s.arrive dt).tap = s.tap := s.arrive_tap dt
  rw [hbody, event_next, State.onTap_reaches _ hpor (by rw [htap]; exact h)]
  refine ⟨_, rfl, ?_⟩
  rw [State.settle_tap, htap]
  have hone : (1 : BitVec 4).getLsbD 0 = true := by decide
  refine ⟨rfl, rfl, rfl, ?_⟩
  rw [← hone]
  exact Tap.enter_ir _ hc

theorem captureDr_acts (s : State) (dt : Nat) (tms : List Bool) (pins : BitVec 44) (observe : BitVec 292) (near : Bool) (c : TapCtl)
    (hpor : (s.arrive dt).pw.por = false) (h : s.tap.ctl.reaches .captureDr tms = some c) :
    ∃ t, exec (.captureDr ⟨dt, tms⟩ pins ⟨observe, near⟩) s = .next t ∧ t.tap.ir = s.tap.ir ∧ t.tap.ctl = c ∧
      (dataReg s.tap.ir = .ident → t.tap.id = if Config.filmDelivery then 0x121201AB else 0x111201AB) ∧
      (dataReg s.tap.ir = .bypass → t.tap.byp = false) ∧
      (dataReg s.tap.ir = .boundary → t.tap.bnd &&& inputCells = pins &&& inputCells) ∧
      (dataReg s.tap.ir = .segment →
        ∀ m, m < 292 → t.tap.seg.getLsbD (2 * m + 1) = s.tap.drive.getLsbD m ∧
          ((s.arrive dt).sup.railsUp = false → t.tap.seg.getLsbD (2 * m) = observe.getLsbD m) ∧
          ((s.arrive dt).sup.railsUp = true → near = false → (s.arrive dt).sup.near = false → t.tap.seg.getLsbD (2 * m) = false)) := by
  let x : State := (s.arrive dt).onSup fun u => { u with near := u.near || near }
  have htap : x.tap = s.tap := s.arrive_tap dt
  have hexec : exec (.captureDr ⟨dt, tms⟩ pins ⟨observe, near⟩) s =
      .next ({ x with tap := (s.tap.capture x.free pins (if x.sup.testable then observe else 0)).enter c, free := x.free + 44 } : State).settle := by
    have hon := State.onTap_reaches (s := x) (fun t => t.capture x.free pins (if x.sup.testable then observe else 0)) hpor (by rw [htap]; exact h)
    rw [htap] at hon
    have hbody : exec (.captureDr ⟨dt, tms⟩ pins ⟨observe, near⟩) s = event dt (fun s => s.captureDr tms pins ⟨observe, near⟩) s := rfl
    have hcapture : (s.arrive dt).captureDr tms pins ⟨observe, near⟩ =
        { x.onTap .captureDr tms fun t => t.capture x.free pins (if x.sup.testable then observe else 0) with
          free := (x.onTap .captureDr tms fun t => t.capture x.free pins (if x.sup.testable then observe else 0)).free + 44 } := rfl
    rw [hbody, event_next, hcapture, hon]
  obtain ⟨hir, hident, hbyp, hbnd, hseg⟩ := capture_fields s.tap x.free pins (if x.sup.testable then observe else 0)
  obtain ⟨hon, hoff⟩ := testable_observe (u := (s.arrive dt).sup) near
  refine ⟨_, hexec, ?_⟩
  rw [State.settle_tap]
  refine ⟨hir, rfl, hident, hbyp, hbnd, fun hd m hm => ?_⟩
  have hseg' := hseg hd
  obtain ⟨hobserve, hdrive⟩ := segPattern_bits (if x.sup.testable then observe else 0) s.tap.drive hm
  rw [← hseg'] at hobserve hdrive
  refine ⟨hdrive, fun hup => ?_, fun hup hn hu => ?_⟩
  · refine hobserve.trans ?_
    rw [show x.sup.testable = true from hon hup, if_pos rfl]
  · refine hobserve.trans ?_
    rw [show x.sup.testable = false from hoff hup hn hu, if_neg Bool.false_ne_true]
    exact BitVec.getLsbD_zero

/-- Update-DR moves the shift stage to the outputs (R374, R375). -/
def Tap.updated (t : Tap) : Tap :=
  match dataReg t.ir with
  | .boundary => { t with bndOut := t.bnd }
  | .segment => { t with drive := segDrive t.seg }
  | _ => t

theorem updated_boundary {t : Tap} (h : dataReg t.ir = .boundary) : t.updated = { t with bndOut := t.bnd } := by
  rw [Tap.updated, h]

theorem updated_segment {t : Tap} (h : dataReg t.ir = .segment) : t.updated = { t with drive := segDrive t.seg } := by
  rw [Tap.updated, h]

theorem updated_ir (t : Tap) : t.updated.ir = t.ir := by
  unfold Tap.updated
  split <;> rfl

theorem updateDr_acts (s : State) (dt : Nat) (tms : List Bool) (c : TapCtl) (hpor : (s.arrive dt).pw.por = false)
    (h : s.tap.ctl.reaches .updateDr tms = some c) :
    ∃ t, exec (.updateDr ⟨dt, tms⟩) s = .next t ∧ t.tap.ir = s.tap.ir ∧ t.tap.ctl = c ∧
      (dataReg s.tap.ir = .boundary → t.tap.bndOut = s.tap.bnd) ∧
      (dataReg s.tap.ir = .segment → ∀ m, m < 292 → t.tap.drive.getLsbD m = s.tap.seg.getLsbD (2 * m + 1)) := by
  have htap : (s.arrive dt).tap = s.tap := s.arrive_tap dt
  have hbody : exec (.updateDr ⟨dt, tms⟩) s = event dt (fun s => s.onTap .updateDr tms Tap.updated) s := rfl
  rw [hbody, event_next, State.onTap_reaches _ hpor (by rw [htap]; exact h)]
  refine ⟨_, rfl, ?_⟩
  rw [State.settle_tap, htap]
  refine ⟨updated_ir s.tap, rfl, fun hd => ?_, fun hd m hm => ?_⟩
  · rw [updated_boundary hd]
    rfl
  · rw [updated_segment hd]
    exact segDrive_bits _ hm

/-! ### Shift -/

/-- One cycle of a shift stage: the lowest bit leaves, TDI enters at the top. -/
theorem shift_eq_append {n : Nat} (x : BitVec (1 + n)) (tdi : Bool) :
    (x >>> 1 ||| (if tdi then BitVec.ofNat (1 + n) (2 ^ n) else 0)) = BitVec.ofBool tdi ++ x.extractLsb' 1 n := by
  refine BitVec.eq_of_getLsbD_eq fun i hi => ?_
  have htop : (if tdi then BitVec.ofNat (1 + n) (2 ^ n) else 0).getLsbD i = (tdi && decide (n = i)) := by
    cases tdi with
    | false => simp
    | true => rw [if_pos rfl, BitVec.getLsbD_ofNat, Nat.testBit_two_pow, decide_eq_true hi]
  rw [BitVec.getLsbD_or, BitVec.getLsbD_ushiftRight, htop, BitVec.getLsbD_append, BitVec.getLsbD_extractLsb']
  by_cases h : i < n
  · rw [if_pos h, decide_eq_true h, decide_eq_false (by omega : ¬ n = i), Bool.and_false, Bool.or_false, Bool.true_and]
  · have hin : i = n := by omega
    subst hin
    rw [if_neg h, Nat.sub_self, BitVec.getLsbD_of_ge x _ (by omega), decide_eq_true rfl, Bool.and_true, Bool.false_or]
    cases tdi <;> rfl

theorem exec_tapShift_reaches {s : State} {dt : Nat} {tms : List Bool} {ir tdi : Bool} {k c : TapCtl} (hk : k = if ir then .shiftIr else .shiftDr)
    (hpor : (s.arrive dt).pw.por = false) (h : s.tap.ctl.reaches k tms = some c) :
    exec (.tapShift ⟨dt, tms⟩ ir tdi) s = .next ({ s.arrive dt with tap := (s.tap.shift ir tdi).enter c } : State).settle := by
  have htap : (s.arrive dt).tap = s.tap := s.arrive_tap dt
  have hworks : k.works = true := by rw [hk]; cases ir <;> rfl
  have hwalk := TapCtl.walk_of_reaches hworks h
  have hbody : exec (.tapShift ⟨dt, tms⟩ ir tdi) s = event dt (fun s =>
      if tms ≠ [] ∧ s.tap.ctl.walk tms = some (if ir then .shiftIr else .shiftDr) then s.enterShift (if ir then .shiftIr else .shiftDr)
      else s.onTap (if ir then .shiftIr else .shiftDr) tms fun t => t.shift ir tdi) s := rfl
  rw [hbody, event_next, ← hk, htap, hwalk, if_neg (fun hn => nomatch hn.2), State.onTap_reaches _ hpor (by rw [htap]; exact h), htap]

theorem exec_tapShift_enters {s : State} {dt : Nat} {tms : List Bool} {ir tdi : Bool} {k : TapCtl} (hk : k = if ir then .shiftIr else .shiftDr)
    (hpor : (s.arrive dt).pw.por = false) (hne : tms ≠ []) (h : s.tap.ctl.walk tms = some k) :
    exec (.tapShift ⟨dt, tms⟩ ir tdi) s = .next ({ s.arrive dt with tap := s.tap.enter k } : State).settle := by
  have htap : (s.arrive dt).tap = s.tap := s.arrive_tap dt
  have hbody : exec (.tapShift ⟨dt, tms⟩ ir tdi) s = event dt (fun s =>
      if tms ≠ [] ∧ s.tap.ctl.walk tms = some (if ir then .shiftIr else .shiftDr) then s.enterShift (if ir then .shiftIr else .shiftDr)
      else s.onTap (if ir then .shiftIr else .shiftDr) tms fun t => t.shift ir tdi) s := rfl
  rw [hbody, event_next, ← hk, htap, if_pos ⟨hne, h⟩, State.enterShift, hpor, if_neg Bool.false_ne_true, htap]

theorem shift_dr_fields (t : Tap) (tdi : Bool) :
    (t.shift false tdi).ir = t.ir ∧
      (dataReg t.ir = .boundary → (t.shift false tdi).low = (t.shift false tdi).bnd.getLsbD 0 ∧
        (t.shift false tdi).bnd = BitVec.ofBool tdi ++ t.bnd.extractLsb' 1 43) ∧
      (dataReg t.ir = .ident → (t.shift false tdi).low = (t.shift false tdi).id.getLsbD 0 ∧
        (t.shift false tdi).id = BitVec.ofBool tdi ++ t.id.extractLsb' 1 31) ∧
      (dataReg t.ir = .bypass → (t.shift false tdi).low = (t.shift false tdi).byp ∧ (t.shift false tdi).byp = tdi) ∧
      (dataReg t.ir = .segment → (t.shift false tdi).low = (t.shift false tdi).seg.getLsbD 0 ∧
        (t.shift false tdi).seg = BitVec.ofBool tdi ++ t.seg.extractLsb' 1 583) := by
  have hlow : ∀ u : Tap, u.ir = t.ir → u.low = match dataReg t.ir with
      | .boundary => u.bnd.getLsbD 0
      | .ident => u.id.getLsbD 0
      | .bypass => u.byp
      | .segment => u.seg.getLsbD 0 := fun u hu => by rw [← hu]; rfl
  have hshift : t.shift false tdi = match dataReg t.ir with
      | .boundary => { t with bnd := t.bnd >>> 1 ||| (if tdi then BitVec.ofNat 44 (2 ^ 43) else 0) }
      | .ident => { t with id := t.id >>> 1 ||| (if tdi then BitVec.ofNat 32 (2 ^ 31) else 0) }
      | .bypass => { t with byp := tdi }
      | .segment => { t with seg := t.seg >>> 1 ||| (if tdi then BitVec.ofNat 584 (2 ^ 583) else 0) } := rfl
  cases hreg : dataReg t.ir with
  | boundary =>
    rw [hreg] at hlow hshift
    rw [hshift]
    exact ⟨rfl, fun _ => ⟨hlow _ rfl, shift_eq_append (n := 43) t.bnd tdi⟩, nofun, nofun, nofun⟩
  | ident =>
    rw [hreg] at hlow hshift
    rw [hshift]
    exact ⟨rfl, nofun, fun _ => ⟨hlow _ rfl, shift_eq_append (n := 31) t.id tdi⟩, nofun, nofun⟩
  | bypass =>
    rw [hreg] at hlow hshift
    rw [hshift]
    exact ⟨rfl, nofun, nofun, fun _ => ⟨hlow _ rfl, rfl⟩, nofun⟩
  | segment =>
    rw [hreg] at hlow hshift
    rw [hshift]
    exact ⟨rfl, nofun, nofun, nofun, fun _ => ⟨hlow _ rfl, shift_eq_append (n := 583) t.seg tdi⟩⟩

theorem shift_ir_fields (t : Tap) (tdi : Bool) :
    (t.shift true tdi).irShift = BitVec.ofBool tdi ++ t.irShift.extractLsb' 1 3 := shift_eq_append (n := 3) t.irShift tdi

/-- Settles O60: one lemma for each command, the way of TMS by `TapCtl.reaches_works` and `TapCtl.walk_of_reaches`. -/
theorem tapData : Obligations.TapData := by
  unfold Obligations.TapData
  refine ⟨fun s dt tms pins observe near c hpor => ⟨captureIr_acts s dt tms c hpor, captureDr_acts s dt tms pins observe near c hpor,
    updateDr_acts s dt tms c hpor⟩, fun s dt tms tdi c hpor => ⟨fun h => ?_, fun h => ?_, fun hne h => ?_, fun hne h => ?_⟩⟩
  · obtain ⟨b, -, -, hnext⟩ := TapCtl.reaches_works rfl h
    have hc : c = .shiftIr ∨ c = .exit1Ir := hnext ▸ TapCtl.next_ir (.inr rfl) b
    refine ⟨_, exec_tapShift_reaches (ir := true) rfl hpor h, ?_⟩
    rw [State.settle_tap]
    exact ⟨rfl, shift_ir_fields _ _, Tap.enter_ir _ hc⟩
  · obtain ⟨b, -, -, hnext⟩ := TapCtl.reaches_works rfl h
    have hc : c = .shiftDr ∨ c = .exit1Dr := hnext ▸ TapCtl.next_dr (.inr rfl) b
    refine ⟨_, exec_tapShift_reaches (ir := false) rfl hpor h, ?_⟩
    rw [State.settle_tap]
    obtain ⟨hir, hbnd, hid, hbyp, hseg⟩ := shift_dr_fields s.tap tdi
    exact ⟨hir, rfl, Tap.enter_dr _ hc, hbnd, hid, hbyp, hseg⟩
  · refine ⟨_, exec_tapShift_enters (ir := true) rfl hpor hne h, ?_⟩
    rw [State.settle_tap]
    exact ⟨rfl, rfl, rfl⟩
  · refine ⟨_, exec_tapShift_enters (ir := false) rfl hpor hne h, ?_⟩
    rw [State.settle_tap]
    rfl

end Sys2Proof.Machine

/-! SUPPORT. Slot bytes: the holding buffer, the commit, what is left short (R91, R92). The proof of O13. -/

namespace Sys2Proof.Machine

open Sys2Proof.Safety

/-! ### What an edge leaves up to its bit -/

namespace State

theorem leaveSlot_cases (s : State) :
    (∀ h, s.port.buf = some h → h.short = true → s.leaveSlot = (s.onPort fun p => { p with buf := none }).setSetupst (bitMask 1)) ∧
      ((∀ h, s.port.buf = some h → h.short = false) → s.leaveSlot = s.onPort fun p => { p with buf := none }) := by
  unfold leaveSlot
  refine ⟨fun h hb hs => ?_, fun hs => ?_⟩
  · rw [hb]
    exact if_pos hs
  · split
    next h hb => exact if_neg (by rw [hs h hb]; decide)
    next hb => rw [onPort, ← hb]

/-- Where the bit of an edge leaves a slot, it leaves no holding buffer. -/
theorem sampleBit_cases (w : State) :
    (∃ p, w.sampleBit = { w with port := p } ∧ p.setupst = w.port.setupst ∧ p.ptr = w.port.ptr) ∨ w.sampleBit.port.buf = none := by
  by_cases h : w.port.bits = 0 ∧ w.port.phase = .write
  · obtain ⟨hbits, hphase⟩ := h
    unfold sampleBit
    dsimp only
    split
    · have htake : w.sampleLines.takeBit w.sampleLines.port.sda.level = w.sampleLines.enterSlot.onPort fun p =>
          { p with shift := p.shift <<< 1 ||| (BitVec.ofBool w.sampleLines.port.sda.level).setWidth 8, bits := p.bits + 1 } := by
        have hbits' : w.sampleLines.port.bits = 0 := hbits
        have hphase' : w.sampleLines.port.phase = .write := hphase
        unfold takeBit
        rw [hphase', hbits']
        rfl
      rw [htake]
      unfold enterSlot
      split
      next h hb =>
        split
        · exact .inl ⟨_, rfl, rfl, rfl⟩
        · obtain ⟨b, hleave⟩ := w.sampleLines.leaveSlot_port
          exact .inr (by rw [onPort_port, hleave])
      next hb => exact .inl ⟨_, rfl, rfl, rfl⟩
    · exact .inl ⟨_, rfl, rfl, rfl⟩
  · obtain ⟨p, heq, -, hptr, -, -, -, -, -, -, hst, -⟩ := w.sampleBit_frame h
    exact .inl ⟨p, heq, hst, hptr⟩

/-- A falling edge of SCL in time, where the bit of its edge has left no slot. -/
theorem sampleBus_fall_port {w : State} (ha : w.answering = true) (ht : inTime w w.sampleBit = true) (hf : sclFalls w w.sampleBit = true)
    (hp : ∃ p, w.sampleBit = { w with port := p }) :
    ∃ q, w.sampleBus = ({ w with port := q } : State).sclFall ∧ ∃ a f, q = { w.sampleBit.port with sclAt := a, fallAt := f } := by
  obtain ⟨p, hp⟩ := hp
  have hfall := w.sampleBus_fall ha hf ht
  rw [hp] at hfall ⊢
  exact ⟨_, hfall, _, _, rfl⟩

/-- The falling edge that ends a byte of a write. -/
theorem sampleBus_writeByte {w : State} (ha : w.answering = true) (ht : inTime w w.sampleBit = true) (hf : sclFalls w w.sampleBit = true)
    (hp : w.sampleBit.port.phase = .write) (hb : w.sampleBit.port.bits = 8) :
    ∃ q, w.sampleBus = ({ w with port := q } : State).writeByte w.sampleBit.port.shift ∧ q.ptr = w.sampleBit.port.ptr ∧
      q.buf = w.sampleBit.port.buf := by
  obtain ⟨p, heq, -⟩ := w.sampleBit_byte (by omega)
  obtain ⟨q, hbus, a, f, hq⟩ := sampleBus_fall_port ha ht hf ⟨p, heq⟩
  have hphase : q.phase = .write := by rw [hq]; exact hp
  have hbits : q.bits = 8 := by rw [hq]; exact hb
  have hshift : q.shift = w.sampleBit.port.shift := by rw [hq]
  have hend := (sclFall_byteEnd { w with port := q } (by rw [hphase]; rfl) hbits).trans (byteEnd_write _ hphase)
  rw [hend] at hbus
  rw [← hshift]
  exact ⟨_, hbus, by rw [hq], by rw [hq]⟩

/-! ### The bytes of a slot (R91) -/

/-- A byte, once fed into the holding buffer. -/
theorem writeByte_eq {s : State} {b : Byte} {h : HoldBuf} {full : Bool}
    (hfeed : (s.port.buf.getD ⟨slotOf s.port.ptr, 0, false, []⟩).feed (s.port.ptr.toNat % 8) b = (h, full)) :
    ∃ k, s.writeByte b =
      if full then (s.onPort fun p => { p with
          buf := some h, ptr := pageNext p.ptr, ack := true, drive := some true, hold := k }).commitSlot (slotOf s.port.ptr) (slotWord h.bytes)
      else s.onPort fun p => { p with buf := some h, ptr := pageNext p.ptr, ack := true, drive := some true, hold := k } := by
  obtain ⟨k, hack⟩ := acknowledge_eq (s.onPort fun p => { p with buf := some h, ptr := pageNext p.ptr })
  refine ⟨k, ?_⟩
  unfold writeByte
  dsimp only
  rw [hfeed]
  dsimp only
  rw [hack]
  rfl

end State

/-- A byte in order, before the last. -/
theorem feed_next (slot : BitVec 13) (k : Nat) (bs : List Byte) (b : Byte) (h : k < 4) :
    HoldBuf.feed ⟨slot, k, false, bs⟩ k b = (⟨slot, k + 1, false, bs ++ [b]⟩, false) := by
  unfold HoldBuf.feed
  have h4 : (k == 4) = false := by simpa using (by omega : k ≠ 4)
  rw [if_neg (by omega), if_pos (by simp), h4]

/-- Byte 4, in order. -/
theorem feed_last (slot : BitVec 13) (bs : List Byte) (b : Byte) :
    HoldBuf.feed ⟨slot, 4, false, bs⟩ 4 b = (⟨slot, 5, false, bs ++ [b]⟩, true) := rfl

/-- Bytes 5 to 7. -/
theorem feed_after (h : HoldBuf) {k : Nat} (b : Byte) (hk : 4 < k) : h.feed k b = (h, false) := if_pos hk

/-- What has committed is settled already (R109). -/
theorem State.settle_committed {s : State} (h : s.edge.committed = true) : s.settle = s := by
  rw [State.settle, h, Bool.not_true, Bool.and_false]
  rfl

theorem byte_collected {w u : State} (ha : w.answering = true) (hu : u = w.sampleBit) (ht : inTime w u = true) (hf : sclFalls w u = true)
    (hp : u.port.phase = .write) (hb : u.port.bits = 8) {k : Nat} {bs : List Byte} (hk : u.port.ptr.toNat % 8 = k) (hlt : k < 4)
    (hbuf : u.port.buf.getD ⟨slotOf u.port.ptr, 0, false, []⟩ = ⟨slotOf u.port.ptr, k, false, bs⟩) :
    ∃ p, w.sampleBus = { w with port := p } ∧ p.buf = some ⟨slotOf u.port.ptr, k + 1, false, bs ++ [u.port.shift]⟩ ∧ p.ack = true ∧
      p.drive = some true := by
  subst hu
  obtain ⟨q, heq, hptr, hqbuf⟩ := State.sampleBus_writeByte ha ht hf hp hb
  have hfeed : (({ w with port := q } : State).port.buf.getD ⟨slotOf q.ptr, 0, false, []⟩).feed (q.ptr.toNat % 8) w.sampleBit.port.shift =
      (⟨slotOf w.sampleBit.port.ptr, k + 1, false, bs ++ [w.sampleBit.port.shift]⟩, false) := by
    rw [hptr, hqbuf, hbuf, hk, feed_next _ _ _ _ hlt]
  obtain ⟨j, hwrite⟩ := State.writeByte_eq hfeed
  exact ⟨_, heq.trans hwrite, rfl, rfl, rfl⟩

theorem byte_ignored {w u : State} (ha : w.answering = true) (hu : u = w.sampleBit) (ht : inTime w u = true) (hf : sclFalls w u = true)
    (hp : u.port.phase = .write) (hb : u.port.bits = 8) {h : HoldBuf} (hk : 4 < u.port.ptr.toNat % 8) (hbuf : u.port.buf = some h) :
    ∃ p, w.sampleBus = { w with port := p } ∧ p.buf = u.port.buf ∧ p.ack = true := by
  subst hu
  obtain ⟨q, heq, hptr, hqbuf⟩ := State.sampleBus_writeByte ha ht hf hp hb
  have hfeed : (({ w with port := q } : State).port.buf.getD ⟨slotOf q.ptr, 0, false, []⟩).feed (q.ptr.toNat % 8) w.sampleBit.port.shift =
      (h, false) := by
    rw [hptr, hqbuf, hbuf, Option.getD_some, feed_after _ _ hk]
  obtain ⟨j, hwrite⟩ := State.writeByte_eq hfeed
  exact ⟨_, heq.trans hwrite, hbuf.symm, rfl⟩

theorem slot_committed {w u : State} (ha : w.answering = true) (hu : u = w.sampleBit) (ht : inTime w u = true) (hf : sclFalls w u = true)
    (hp : u.port.phase = .write) (hb : u.port.bits = 8) {bs : List Byte} (hk : u.port.ptr.toNat % 8 = 4)
    (hbuf : u.port.buf = some ⟨slotOf u.port.ptr, 4, false, bs⟩) :
    ∃ p, w.sampleBus = ({ w with port := p } : State).commitSlot (slotOf u.port.ptr) (slotWord (bs ++ [u.port.shift])) ∧
      p.buf = some ⟨slotOf u.port.ptr, 5, false, bs ++ [u.port.shift]⟩ ∧ p.ptr = pageNext u.port.ptr ∧ p.ack = true ∧ p.drive = some true := by
  subst hu
  obtain ⟨q, heq, hptr, hqbuf⟩ := State.sampleBus_writeByte ha ht hf hp hb
  have hfeed : (({ w with port := q } : State).port.buf.getD ⟨slotOf q.ptr, 0, false, []⟩).feed (q.ptr.toNat % 8) w.sampleBit.port.shift =
      (⟨slotOf w.sampleBit.port.ptr, 5, false, bs ++ [w.sampleBit.port.shift]⟩, true) := by
    rw [hptr, hqbuf, hbuf, Option.getD_some, hk, feed_last]
  obtain ⟨j, hwrite⟩ := State.writeByte_eq hfeed
  rw [if_pos rfl, hptr] at hwrite
  exact ⟨_, heq.trans hwrite, rfl, congrArg pageNext hptr, rfl, rfl⟩

/-! ### A slot left short (R92) -/

/-- A mark of PWR_SETUPST on an edge that has set the cause setup_err already. -/
theorem mark_again (s : State) (p : SetupPort) (e : EdgeRec) :
    ∃ p' e', ({ s with port := p, cause := s.cause ||| bitMask 13, edge := e } : State).setSetupst (bitMask 0) =
      { s with port := p', cause := s.cause ||| bitMask 13, edge := e' } := by
  have hcause : s.cause ||| bitMask 13 ||| bitMask 13 = s.cause ||| bitMask 13 := by rw [BitVec.or_assoc, BitVec.or_self]
  refine ⟨{ p with setupst := p.setupst ||| bitMask 0 }, { e with cause := e.cause ||| bitMask 13, setupst := e.setupst ||| bitMask 0 }, ?_⟩
  unfold State.setSetupst State.setCause
  dsimp only [State.onPort, State.onEdge]
  rw [hcause]

/-- The end of a transaction, and the mark of a framing error on the same edge. -/
theorem startOrStop_slot {s : State} {h : HoldBuf} (hb : s.port.buf = some h) :
    s.startOrStop.port.buf = none ∧
      (h.short = true → bitOf s.startOrStop.port.setupst 1 = true ∧
        ∃ p e, s.startOrStop = { s with port := p, cause := s.cause ||| bitMask 13, edge := e }) ∧
      (h.short = false → bitOf s.startOrStop.port.setupst 1 = bitOf s.port.setupst 1) := by
  obtain ⟨p, -, -, -, -, hbuf, -, -, -, -, -, hshort, hnot⟩ := s.endTransaction_eq
  have hframe (x : State) : bitOf (x.setSetupst (bitMask 0)).port.setupst 1 = bitOf x.port.setupst 1 := by
    show bitOf (x.port.setupst ||| bitMask 0) 1 = _
    rw [bitOf_or]
    simp [bitOf, bitMask]
  have hmask : bitOf (s.port.setupst ||| bitMask 1) 1 = true := by rw [bitOf_or, bitOf_bitMask (by decide), Bool.or_true]
  unfold State.startOrStop
  dsimp only
  cases hs : h.short with
  | true =>
    obtain ⟨hst, heq⟩ := hshort ⟨h, hb, hs⟩
    rw [heq]
    split
    · exact ⟨hbuf, fun _ => ⟨(hframe _).trans (hst ▸ hmask), mark_again _ _ _⟩, nofun⟩
    · exact ⟨hbuf, fun _ => ⟨hst ▸ hmask, _, _, rfl⟩, nofun⟩
  | false =>
    obtain ⟨hst, heq⟩ := hnot fun h' hb' => by
      rw [hb] at hb'
      cases hb'
      exact hs
    rw [heq]
    split
    · exact ⟨hbuf, nofun, fun _ => (hframe _).trans (by rw [hst])⟩
    · exact ⟨hbuf, nofun, fun _ => by rw [hst]⟩

/-- The same on the edge that recognises the START or STOP. -/
theorem sampleBus_startOrStop_slot {w u : State} {h : HoldBuf} (ha : w.answering = true) (hu : u = w.sampleBit) (ht : inTime w u = true)
    (hs : startSeen w u = true ∨ stopSeen w u = true) (hb : u.port.buf = some h) :
    w.sampleBus.port.buf = none ∧
      (h.short = true → bitOf w.sampleBus.port.setupst 1 = true ∧
        ∃ p e, w.sampleBus = { w with port := p, cause := w.cause ||| bitMask 13, edge := e }) ∧
      (h.short = false → bitOf w.sampleBus.port.setupst 1 = bitOf w.port.setupst 1) := by
  subst hu
  obtain ⟨hnone, hshort, hnot⟩ := startOrStop_slot hb
  obtain ⟨p, hbit, hst, -⟩ | hbit := w.sampleBit_cases
  · have hport : w.sampleBit.port.setupst = w.port.setupst := by rw [hbit]; exact hst
    have heq : ∃ f, w.sampleBus = w.sampleBit.startOrStop.onPort f ∧ ∀ p, (f p).buf = p.buf ∧ (f p).setupst = p.setupst := by
      obtain hs | hs := hs
      · exact ⟨_, w.sampleBus_start ha hs ht, fun _ => ⟨rfl, rfl⟩⟩
      · exact ⟨fun p => { p with inForce := p.setup, broken := false }, w.sampleBus_stop ha hs ht, fun _ => ⟨rfl, rfl⟩⟩
    obtain ⟨f, heq, hf⟩ := heq
    obtain ⟨hfb, hfs⟩ := hf w.sampleBit.startOrStop.port
    rw [heq, State.onPort_port, hfb, hfs]
    refine ⟨hnone, fun hsh => ?_, fun hsh => (hnot hsh).trans (by rw [hport])⟩
    obtain ⟨hone, p', e, hstop⟩ := hshort hsh
    refine ⟨hone, f p', e, ?_⟩
    rw [hstop, hbit]
    rfl
  · rw [hbit] at hb
    cases hb

/-- A data byte of another slot begins (R92). -/
theorem sampleBit_otherSlot {w : State} {h : HoldBuf} (hr : w.port.rose = true) (hp : w.port.phase = .write) (hb : w.port.bits = 0)
    (hbuf : w.port.buf = some h) (hslot : h.slot ≠ slotOf w.port.ptr) :
    ∃ p, (h.short = true → (∃ e, w.sampleBit = { w with port := p, cause := w.cause ||| bitMask 13, edge := e }) ∧
        bitOf p.setupst 1 = true) ∧
      (h.short = false → w.sampleBit = { w with port := p } ∧ p.setupst = w.port.setupst) ∧ p.buf = none ∧ p.bits = 1 := by
  let f : SetupPort → SetupPort := fun p =>
    { p with shift := p.shift <<< 1 ||| (BitVec.ofBool w.sampleLines.port.sda.level).setWidth 8, bits := p.bits + 1 }
  have hbuf' : w.sampleLines.port.buf = some h := hbuf
  have htake : w.sampleBit = w.sampleLines.leaveSlot.onPort f := by
    have hbits' : w.sampleLines.port.bits = 0 := hb
    have hphase' : w.sampleLines.port.phase = .write := hp
    have henter : w.sampleLines.enterSlot = w.sampleLines.leaveSlot := by
      unfold State.enterSlot
      rw [hbuf']
      exact if_neg hslot
    unfold State.sampleBit State.takeBit
    rw [hr, if_pos rfl, hphase', hbits', henter]
    rfl
  obtain ⟨hshort, hnot⟩ := w.sampleLines.leaveSlot_cases
  have hmask : bitOf (w.port.setupst ||| bitMask 1) 1 = true := by rw [bitOf_or, bitOf_bitMask (by decide), Bool.or_true]
  have hone : w.sampleLines.port.bits + 1 = 1 := congrArg (· + 1) hb
  rw [htake]
  cases hs : h.short with
  | true =>
    rw [hshort h hbuf' hs]
    exact ⟨_, fun _ => ⟨⟨_, rfl⟩, hmask⟩, nofun, rfl, hone⟩
  | false =>
    rw [hnot fun h' hb' => by
      rw [hbuf'] at hb'
      cases hb'
      exact hs]
    exact ⟨_, nofun, fun _ => ⟨rfl, rfl⟩, rfl, hone⟩

/-! ### The value of a slot (R91) -/

theorem toNat_append_eq {m n : Nat} (x : BitVec m) (y : BitVec n) : (x ++ y).toNat = x.toNat * 2 ^ n + y.toNat := by
  rw [BitVec.toNat_append, ← Nat.shiftLeft_add_eq_or_of_lt y.isLt, Nat.shiftLeft_eq]

theorem slotWord_bytes (b0 b1 b2 b3 b4 : Byte) : slotWord [b0, b1, b2, b3, b4] = b4.extractLsb' 0 4 ++ b3 ++ b2 ++ b1 ++ b0 := by
  refine BitVec.eq_of_toNat_eq ?_
  have hnat : leNat ([b0, b1, b2, b3, b4].take 5) =
      b0.toNat + 256 * (b1.toNat + 256 * (b2.toNat + 256 * (b3.toNat + 256 * (b4.toNat + 256 * 0)))) := rfl
  have h0 := b0.isLt
  have h1 := b1.isLt
  have h2 := b2.isLt
  have h3 := b3.isLt
  have h4 := b4.isLt
  rw [slotWord, BitVec.toNat_ofNat, hnat, toNat_append_eq, toNat_append_eq, toNat_append_eq, toNat_append_eq, BitVec.extractLsb'_toNat,
    Nat.shiftRight_zero]
  omega

/-- Settles O13: a byte of a slot by `byte_collected`, `slot_committed` and `byte_ignored`, a slot left short by
`sampleBus_startOrStop_slot` and `sampleBit_otherSlot`. -/
theorem slotCommits : Obligations.SlotCommits := by
  unfold Obligations.SlotCommits
  refine ⟨fun s w u dt c d hw ha hu ht => ?_, fun w h => sampleBit_otherSlot, slotWord_bytes⟩
  have hrun := event_runBus_one hw ha
  refine ⟨fun hf hp hb => ⟨fun k bs hk hlt hbuf => ?_, fun bs hk hbuf => ?_, fun bs hk hbuf => ?_⟩, fun h hs hbuf => ?_⟩
  · obtain ⟨p, hbus, hrest⟩ := byte_collected ha hu ht hf hp hb hk hlt hbuf
    rw [hbus] at hrun
    exact ⟨p, hrun, hrest⟩
  · obtain ⟨p, hbus, hrest⟩ := slot_committed ha hu ht hf hp hb hk hbuf
    rw [hbus] at hrun
    exact ⟨p, _, rfl, hrun.trans (congrArg _ (State.settle_committed rfl)), hrest⟩
  · obtain ⟨p, hbus, hrest⟩ := byte_ignored ha hu ht hf hp hb hk hbuf
    rw [hbus] at hrun
    exact ⟨p, hrun, hrest⟩
  · obtain ⟨hnone, hshort, hnot⟩ := sampleBus_startOrStop_slot ha hu ht hs hbuf
    refine ⟨_, hrun, ?_⟩
    rw [State.settle_port, State.markSampled_port]
    refine ⟨hnone, fun hsh => ?_, hnot⟩
    obtain ⟨hone, p, e, heq⟩ := hshort hsh
    refine ⟨hone, p, { e with sampled := true }, ?_⟩
    rw [heq]
    rfl

end Sys2Proof.Machine

/-! SUPPORT. Aborted transactions, the stretch of SCL and edges of the bus that come too soon (R99, R100, R103). The proof of O14. -/

namespace Sys2Proof.Machine

open Sys2Proof.Safety

namespace State

/-! ### PWR_SETUPST.framing (R103) -/

/-- A slot left short marks another bit of PWR_SETUPST. -/
theorem setSetupst_short_framing (s : State) : bitOf (s.setSetupst (bitMask 1)).port.setupst 0 = bitOf s.port.setupst 0 := by
  show bitOf (s.port.setupst ||| bitMask 1) 0 = _
  rw [bitOf_or, show bitOf (bitMask 1) 0 = false from rfl, Bool.or_false]

theorem leaveSlot_framing (s : State) : bitOf s.leaveSlot.port.setupst 0 = bitOf s.port.setupst 0 := by
  unfold leaveSlot
  split
  · dsimp only
    split
    · exact setSetupst_short_framing _
    · rfl
  · rfl

theorem enterSlot_framing (s : State) : bitOf s.enterSlot.port.setupst 0 = bitOf s.port.setupst 0 := by
  unfold enterSlot
  split
  · split
    · rfl
    · exact s.leaveSlot_framing
  · rfl

theorem takeBit_framing (s : State) (x : Bool) : bitOf (s.takeBit x).port.setupst 0 = bitOf s.port.setupst 0 := by
  unfold takeBit
  dsimp only
  split
  · rfl
  · split
    · split
      · exact s.enterSlot_framing
      · rfl
    · rfl

theorem sampleBit_framing (w : State) : bitOf w.sampleBit.port.setupst 0 = bitOf w.port.setupst 0 := by
  unfold sampleBit
  dsimp only
  split
  · exact w.sampleLines.takeBit_framing _
  · rfl

/-- A START or STOP marks framing where the engine takes part and stands at no end of an acknowledge bit. -/
theorem startOrStop_framing (s : State) :
    bitOf s.startOrStop.port.setupst 0 = (bitOf s.port.setupst 0 || (s.port.phase.takesPart && !s.port.atEnd)) := by
  have hend : bitOf s.endTransaction.port.setupst 0 = bitOf s.port.setupst 0 := s.leaveSlot_framing
  unfold startOrStop
  dsimp only
  split
  next h =>
    rw [h, Bool.or_true]
    show bitOf (s.endTransaction.port.setupst ||| bitMask 0) 0 = true
    rw [bitOf_or, bitOf_bitMask (by decide)]
    simp
  next h =>
    rw [hend, Bool.eq_false_iff.2 h, Bool.or_false]

theorem sampleBus_framing {w : State} (ha : w.answering = true) (ht : inTime w w.sampleBit = true)
    (hs : Safety.startSeen w w.sampleBit = true ∨ Safety.stopSeen w w.sampleBit = true) :
    bitOf w.sampleBus.port.setupst 0 = (bitOf w.port.setupst 0 || (w.sampleBit.port.phase.takesPart && !w.sampleBit.port.atEnd)) := by
  have hmark := w.sampleBit.startOrStop_framing
  rw [w.sampleBit_framing] at hmark
  obtain hs | hs := hs
  · rw [w.sampleBus_start ha hs ht]
    exact hmark
  · rw [w.sampleBus_stop ha hs ht]
    exact hmark

/-- What else a START or STOP leaves of the port. -/
theorem sampleBus_startOrStop_port {w : State} (ha : w.answering = true) (ht : inTime w w.sampleBit = true)
    (hs : Safety.startSeen w w.sampleBit = true ∨ Safety.stopSeen w w.sampleBit = true) :
    w.sampleBus.port.phase = (if Safety.startSeen w w.sampleBit then .address else .idle) ∧ w.sampleBus.port.buf = none ∧
      w.sampleBus.port.hold = none ∧ w.sampleBus.port.sdaLow = false := by
  obtain ⟨b, e⟩ := w.sampleBit.startOrStop_port
  by_cases h : Safety.startSeen w w.sampleBit = true
  · rw [w.sampleBus_start ha h ht, onPort_port, e, if_pos h]
    exact ⟨rfl, rfl, rfl, rfl⟩
  · rw [w.sampleBus_stop ha (hs.resolve_left h) ht, onPort_port, stopSeen, onPort_port, e, if_neg h]
    exact ⟨rfl, rfl, rfl, rfl⟩

/-! ### An edge that comes too soon (R99) -/

/-- A breach of R99 is a host error, and the transaction is broken. -/
theorem timed_broken {s : State} (hp : s.port.phase.takesPart = true) :
    (s.timed true).wild.isSome = true ∧ (s.timed true).port.broken = true := by
  have hwild : (s.wild.or (some .busTiming)).isSome = true := by cases s.wild <;> rfl
  unfold timed
  rw [hp, Bool.and_self, if_pos rfl]
  exact ⟨hwild, rfl⟩

theorem startOrStop_wild (s : State) : s.startOrStop.wild = s.wild := by
  unfold startOrStop endTransaction leaveSlot
  dsimp only
  repeat' split
  all_goals rfl

theorem recognise_rise {u : State} {c : Bool} (d : Bool) (h : (!c && u.port.scl.level) = true) :
    u.recognise c d = (u.timed (u.port.tooSoon u.now false)).onPort fun p => { p with sclAt := u.now, rose := true } := by
  simp only [Bool.and_eq_true, Bool.not_eq_true'] at h
  simp [recognise, h.1, h.2]

theorem recognise_start {u : State} {c d : Bool} (h : (c && u.port.scl.level && d && !u.port.sda2) = true) : u.recognise c d = u.startMet := by
  simp only [Bool.and_eq_true, Bool.not_eq_true'] at h
  simp [recognise, h.1.1.1, h.1.1.2, h.1.2, h.2]

theorem recognise_stop {u : State} {c d : Bool} (h : (c && u.port.scl.level && !d && u.port.sda2) = true) : u.recognise c d = u.stopMet := by
  simp only [Bool.and_eq_true, Bool.not_eq_true'] at h
  simp [recognise, h.1.1.1, h.1.1.2, h.1.2, h.2]

/-- What an edge that is too soon, and not a falling one of SCL, is. -/
theorem tooSoon_cases {w u : State} (h : tooSoon w u = true) (hf : sclFalls w u = false) :
    (sclRises w u = true ∧ u.port.tooSoon u.now false = true) ∨
      (u.port.setupShort u.now = true ∧ (Safety.startSeen w u = true ∨ Safety.stopSeen w u = true)) := by
  unfold tooSoon at h
  rw [if_neg (by rw [hf]; decide)] at h
  split at h
  next hr => exact .inl ⟨hr, h⟩
  next => exact .inr ⟨((Bool.and_eq_true _ _).mp h).2, (Bool.or_eq_true _ _).mp ((Bool.and_eq_true _ _).mp h).1⟩

/-- The edge that breaks R99, other than a falling one of SCL, which may go on with the byte. -/
theorem sampleBus_broken {w : State} (ha : w.answering = true) (hp : w.sampleBit.port.phase.takesPart = true)
    (hsoon : tooSoon w w.sampleBit = true) (hf : sclFalls w w.sampleBit = false) :
    w.sampleBus.wild.isSome = true ∧ w.sampleBus.port.broken = true := by
  have hbus : w.sampleBus = w.sampleBit.recognise w.port.scl.level w.port.sda2 := by
    simp [sampleBus, answering_ticking ha, ha]
  obtain ⟨hwild, hbroken⟩ := timed_broken hp
  rw [hbus]
  obtain ⟨hr, hbad⟩ | ⟨hbad, hs | hs⟩ := tooSoon_cases hsoon hf
  · rw [recognise_rise _ hr, hbad]
    exact ⟨hwild, hbroken⟩
  · rw [recognise_start hs]
    unfold startMet
    dsimp only
    rw [hp, hbad]
    exact ⟨(congrArg Option.isSome (startOrStop_wild _)).trans hwild, rfl⟩
  · rw [recognise_stop hs]
    unfold stopMet
    dsimp only
    rw [hp, hbad]
    exact ⟨(congrArg Option.isSome (startOrStop_wild _)).trans hwild, rfl⟩

end State

/-! ### The stretch (R100, R101) -/

theorem stretch_hold (s : State) : s.stretch.port.hold = if bitOf s.port.inForce 4 then some s.now else s.port.hold := by
  unfold State.stretch
  split <;> rfl

theorem acknowledge_hold (s : State) : s.acknowledge.port.hold = if bitOf s.port.inForce 4 then some s.now else s.port.hold :=
  stretch_hold _

theorem sclLow_iff {p : SetupPort} {k : Nat} (e : Nat) (h : p.hold = some k) : p.sclLow e = true ↔ k < e ∧ e < k + 4 := by
  unfold SetupPort.sclLow
  rw [h]
  simp

theorem exec_sclStretchRelease {s w : State} {dt k : Nat} {lines : BusLevels} (hw : w = (s.arrive dt).runBus lines) (ht : w.ticking = true)
    (hh : w.port.hold = some k) : exec (.sclStretchRelease ⟨dt, lines⟩) s = .next (w.waitUntil (k + 4)).settle := by
  show execSclStretchRelease _ s = _
  unfold execSclStretchRelease
  refine event_body ?_
  dsimp only
  rw [← hw, hh]
  exact if_pos ht

/-- Settles O14: what a START or STOP leaves by `sampleBus_startOrStop_port` and `sampleBus_framing`, the stretch by `sclLow_iff`, an edge
too soon by `timed_broken` and `sampleBus_broken`. -/
theorem framingAndStretch : Obligations.FramingAndStretch := by
  unfold Obligations.FramingAndStretch
  refine ⟨?_, fun s w dt k lines hw ht hh => ⟨exec_sclStretchRelease hw ht hh, w.waitUntil_reaches _ ht⟩, acknowledge_hold,
    fun p k e h => sclLow_iff e h, ?_⟩
  · rintro s w _ dt c d hw ha rfl ht hs
    obtain ⟨hphase, hbuf, hhold, hsda⟩ := State.sampleBus_startOrStop_port ha ht hs
    refine ⟨_, event_runBus_one hw ha, ?_⟩
    rw [State.settle_port, State.markSampled_port]
    exact ⟨hphase, hbuf, w.sampleBus_startOrStop_ptr ha ht hs, hhold, hsda, State.sampleBus_framing ha ht hs⟩
  · rintro w _ ha rfl hp hsoon
    obtain ⟨hwild, hbroken⟩ := State.timed_broken hp
    exact ⟨hwild, hbroken, State.sampleBus_broken ha hp hsoon⟩

end Sys2Proof.Machine

/-! SUPPORT. The bytes of a read: the capture, the bits sent, the acknowledge bit (R88, R95, R96, R98). The proof of O15. -/

namespace Sys2Proof.Machine

open Sys2Proof.Safety

namespace State

/-! ### The capture of a register (R95) -/

/-- What the capture of the pointer's slot holds: what this transaction has taken there already, or else the register now (R95). -/
def captured (s : State) : Word :=
  match s.port.cap with
  | some (k, v) => if k = slotOf s.port.ptr then v else s.readSlot (slotOf s.port.ptr)
  | none => s.readSlot (slotOf s.port.ptr)

theorem captured_none {s : State} (h : s.port.cap = none) : s.captured = s.readSlot (slotOf s.port.ptr) := by
  unfold captured
  rw [h]

theorem captured_other {s : State} {k : BitVec 13} {v : Word} (h : s.port.cap = some (k, v)) (hk : k ≠ slotOf s.port.ptr) :
    s.captured = s.readSlot (slotOf s.port.ptr) := by
  unfold captured
  rw [h]
  exact if_neg hk

theorem captured_same {s : State} {v : Word} (h : s.port.cap = some (slotOf s.port.ptr, v)) : s.captured = v := by
  unfold captured
  rw [h]
  exact if_pos rfl

theorem capture_eq (s : State) : s.capture = s.onPort fun p => { p with cap := some (slotOf p.ptr, s.captured) } := by
  unfold capture
  dsimp only
  split
  next k v hcap =>
    split
    next hk =>
      have hsame : s.port.cap = some (slotOf s.port.ptr, v) := by rw [hcap, hk]
      rw [captured_same hsame, onPort, ← hsame]
    next hk => rw [captured_other hcap hk, onPort, onPort]
  next hcap => rw [captured_none hcap, onPort, onPort]

/-- The byte at the pointer, from the capture. -/
theorem sendByte_eq (s : State) :
    s.sendByte = s.onPort fun p => { p with
      cap := some (slotOf p.ptr, s.captured), tx := regByte s.captured (p.ptr.toNat % 8)
      drive := some (!(regByte s.captured (p.ptr.toNat % 8)).getLsbD 7) } := by
  unfold sendByte
  rw [capture_eq]
  rfl

/-- A read of a register sees of the port PWR_SETUP and PWR_SETUPST alone. -/
theorem readSlot_port (s : State) (q : SetupPort) (k : BitVec 13) (hs : q.setup = s.port.setup) (hst : q.setupst = s.port.setupst) :
    ({ s with port := q } : State).readSlot k = s.readSlot k := by
  unfold readSlot
  split
  next r _ =>
    cases r
    case pwrSetup => exact hs
    case pwrSetupst => exact hst
    all_goals rfl
  next => rfl

end State

theorem regByte_eq (v : Word) (k : Nat) : regByte v k = if k < 5 then BitVec.ofNat 8 (v.toNat / 256 ^ k) else 0 := by
  unfold regByte
  by_cases h : k < 5
  · rw [if_pos h, if_neg (by omega), Nat.shiftRight_eq_div_pow, Nat.pow_mul]
  · rw [if_neg h, if_pos (by omega)]

/-! ### A falling edge of SCL in a read -/

namespace State

theorem stretch_port (s : State) : ∃ k, s.stretch = s.onPort fun p => { p with hold := k } := by
  unfold stretch
  split
  · exact ⟨_, rfl⟩
  · exact ⟨s.port.hold, rfl⟩

/-- After the acknowledge bit: the next byte. -/
theorem sclFall_nextByte {s : State} (hp : s.port.phase = .read) (hb : s.port.bits = 9) :
    ∃ k, s.sclFall = s.onPort fun p => { p with
      ack := false, bits := 0, atEnd := true, cap := some (slotOf p.ptr, s.captured), tx := regByte s.captured (p.ptr.toNat % 8)
      drive := some (!(regByte s.captured (p.ptr.toNat % 8)).getLsbD 7), hold := k } := by
  let y : State := s.onPort fun p => { p with ack := false, bits := 0, atEnd := true, drive := some false }
  have hcap : y.captured = s.captured := by
    unfold captured
    rw [show y.readSlot (slotOf y.port.ptr) = s.readSlot (slotOf s.port.ptr) from s.readSlot_port y.port _ rfl rfl]
    rfl
  have hfall : s.sclFall = if s.port.ack then y.sendByte else y.sendByte.stretch := by
    simp [sclFall, hp, hb, PortPhase.takesPart, ackEnd, y, onPort]
  obtain ⟨k, hstretch⟩ := y.sendByte.stretch_port
  rw [hfall]
  split
  · refine ⟨s.port.hold, ?_⟩
    rw [sendByte_eq, hcap]
    rfl
  · refine ⟨k, ?_⟩
    rw [hstretch, sendByte_eq, hcap]
    rfl

/-- Within a byte: the next bit. -/
theorem sclFall_nextBit {s : State} (hp : s.port.phase = .read) (h0 : 0 < s.port.bits) (h8 : s.port.bits < 8) :
    s.sclFall = s.onPort fun p => { p with atEnd := p.atEnd && p.bits == 0, drive := some (!p.tx.getLsbD (7 - p.bits)) } := by
  have hne : s.port.bits ≠ 0 := by omega
  simp [sclFall, hp, PortPhase.takesPart, hne, h8, onPort]

/-- After the last bit of a byte: the pointer moves on, and SDA is let go for the controller's acknowledge bit. -/
theorem sclFall_lastBit {s : State} (hp : s.port.phase = .read) (hb : s.port.bits = 8) :
    ∃ k, s.sclFall = s.onPort fun p => { p with
      atEnd := p.atEnd && p.bits == 0, ptr := p.ptr + 1, drive := some false, hold := k } := by
  let y : State := s.onPort fun p => { p with atEnd := p.atEnd && p.bits == 0 }
  have hy : y.port.phase = .read := hp
  have hend : y.byteEnd = (y.onPort fun p => { p with ptr := p.ptr + 1, drive := some false }).stretch := by
    unfold byteEnd
    rw [hy]
  obtain ⟨k, hstretch⟩ := (y.onPort fun p => { p with ptr := p.ptr + 1, drive := some false }).stretch_port
  exact ⟨k, ((s.sclFall_byteEnd (by rw [hp]; rfl) hb).trans hend).trans hstretch⟩

/-- A bit taken leaves the phase, but where it ends a read. -/
theorem takeBit_phase (s : State) (x : Bool) : (s.takeBit x).port.phase = .away ∨ (s.takeBit x).port.phase = s.port.phase := by
  have henter : s.enterSlot.port.phase = s.port.phase := by
    obtain ⟨b, st, h⟩ := s.enterSlot_port
    rw [h]
  unfold takeBit
  dsimp only
  split
  · exact .inr rfl
  · split
    · split
      · exact .inr henter
      · exact .inr rfl
    · simp only [onPort_port]
      split
      · exact .inl rfl
      · exact .inr rfl

/-- A bit taken in a read has met a port that reads already. -/
theorem sampleBit_read {w : State} (h : w.sampleBit.port.phase = .read) : w.port.phase = .read := by
  unfold sampleBit at h
  dsimp only at h
  split at h
  · obtain haway | hsame := w.sampleLines.takeBit_phase w.sampleLines.port.sda.level
    · rw [haway] at h
      cases h
    · rw [hsame] at h
      exact h
  · exact h

/-- A falling edge of SCL in a read: up to what it recognises, the edge has changed nothing but the port, and there not the pointer, the
capture or a register. -/
theorem sampleBus_readFall {w : State} (ha : w.answering = true) (ht : inTime w w.sampleBit = true) (hf : sclFalls w w.sampleBit = true)
    (hp : w.sampleBit.port.phase = .read) :
    ∃ q, w.sampleBus = ({ w with port := q } : State).sclFall ∧ (∃ a f, q = { w.sampleBit.port with sclAt := a, fallAt := f }) ∧
      q.ptr = w.port.ptr ∧ q.setup = w.port.setup ∧ q.setupst = w.port.setupst := by
  have hread := sampleBit_read hp
  obtain ⟨p, heq, -, hptr, -, -, -, -, hset, -, hst, -⟩ := w.sampleBit_frame (by rw [hread]; exact fun h => nomatch h.2)
  obtain ⟨q, hbus, hq⟩ := sampleBus_fall_port ha ht hf ⟨p, heq⟩
  refine ⟨q, hbus, hq, ?_⟩
  obtain ⟨a, f, hq⟩ := hq
  rw [hq, heq]
  exact ⟨hptr, hset, hst⟩

/-- A controller that does not acknowledge ends the read (R88). -/
theorem sampleBit_acknowledge {w : State} (hr : w.port.rose = true) (hp : w.port.phase = .read) (hb : w.port.bits = 8)
    (hack : w.port.ack = false) : w.sampleBit.port.phase = if w.sampleLines.port.sda.level then .away else .read := by
  have hp' : w.sampleLines.port.phase = .read := hp
  have hb' : w.sampleLines.port.bits = 8 := hb
  have hack' : w.sampleLines.port.ack = false := hack
  unfold sampleBit takeBit
  simp [hr, hp', hb', hack', PortPhase.takesPart]

/-- SDA takes what the port has recognised on the edge before (R98). -/
theorem tick_sdaLow (s : State) : s.tick.port.sdaLow = s.closeEdge.port.drive.getD s.closeEdge.port.sdaLow := by
  have hport : s.closeEdge.advance.port = s.closeEdge.port.put := (congrArg State.port s.closeEdge.advance_fixed :)
  exact congrArg SetupPort.sdaLow hport

end State

/-- A read of one pair of levels is one edge of the bus, on which BAR_N is sampled too. -/
theorem exec_readCapture {s w : State} {dt : Nat} {bar c d : Bool} (hw : w = ((s.arrive dt).barSeen bar).busEdge.setPins c d)
    (ha : w.answering = true) :
    exec (.readCapture ⟨dt, [(c, d)]⟩ bar) s = .next (State.settle (if bar then w.sampleBus.markSampled else w.sampleBus.markSampled.barLow)) := by
  have ht : ((s.arrive dt).barSeen bar).ticking = true := by
    have := State.answering_ticking ha
    rwa [hw, State.setPins_ticking, State.busEdge_ticking] at this
  show execReadCapture _ _ s = _
  unfold execReadCapture
  refine event_body ?_
  dsimp only
  rw [State.runBus_one _ c d ht, ← hw]

/-- Settles O15: the next byte, bit and the end of a byte by `sclFall_nextByte`, `sclFall_nextBit` and `sclFall_lastBit`, the
controller's acknowledge bit by `sampleBit_acknowledge`. -/
theorem readBytes : Obligations.ReadBytes := by
  unfold Obligations.ReadBytes
  refine ⟨?_, ?_, fun w => State.sampleBit_acknowledge, State.tick_sdaLow⟩
  · rintro s w _ dt bar c d - hw ha rfl ht hf hp hb
    obtain ⟨q, hbus, ⟨a, f, hq⟩, hptr, hset, hst⟩ := State.sampleBus_readFall ha ht hf hp
    obtain ⟨k, hnext⟩ := State.sclFall_nextByte (s := { w with port := q }) (by rw [hq]; exact hp) (by rw [hq]; exact hb)
    have hcap : q.cap = w.sampleBit.port.cap := by rw [hq]
    have hptr' : w.sampleBit.port.ptr = q.ptr := by rw [hq]
    have hread (m : BitVec 13) : ({ w with port := q } : State).readSlot m = w.readSlot m := w.readSlot_port q m hset hst
    have hrun := exec_readCapture hw ha
    rw [hbus, hnext] at hrun
    rw [hptr', ← hcap, ← hread]
    refine ⟨_, ({ w with port := q } : State).captured, _, hrun, rfl, rfl, fun h => ?_, fun m y h hm => ?_, fun y h => ?_, regByte_eq _ _, rfl,
      rfl, hptr⟩
    · exact congrArg (fun v => some (slotOf q.ptr, v)) (State.captured_none h)
    · exact congrArg (fun v => some (slotOf q.ptr, v)) (State.captured_other h hm)
    · exact State.captured_same h
  · rintro s w _ dt c d hw ha rfl ht hf hp
    obtain ⟨q, hbus, ⟨a, f, hq⟩, hptr, -⟩ := State.sampleBus_readFall ha ht hf hp
    have hrun := event_runBus_one hw ha
    have hphase : ({ w with port := q } : State).port.phase = .read := by rw [hq]; exact hp
    have hbits : w.sampleBit.port.bits = q.bits := by rw [hq]
    have htx : w.sampleBit.port.tx = q.tx := by rw [hq]
    rw [hbits, htx]
    refine ⟨fun h0 h8 => ?_, fun hb => ?_⟩
    · rw [hbus, State.sclFall_nextBit hphase h0 h8] at hrun
      exact ⟨_, hrun, rfl, hptr⟩
    · obtain ⟨k, hlast⟩ := State.sclFall_lastBit hphase hb
      rw [hbus, hlast] at hrun
      exact ⟨_, hrun, rfl, congrArg (· + 1) hptr⟩

end Sys2Proof.Machine

/-! SUPPORT. The arbitration edge: the transaction that it opens, or the failure (R165, R166, Table 8.1). The proof of O33. -/

namespace Sys2Proof.Machine

open Sys2Proof.Safety

/-- What a transaction takes from its access whatever its kind (Table 8.2). -/
theorem OpenAccess.txn_fields (o : OpenAccess) (k : TxKind) (f : Nat) :
    (o.txn k f).kind = k ∧ (o.txn k f).sel = o.win.selCode ∧ (o.txn k f).stretch = [] ∧ (o.txn k f).fall = f ∧ (o.txn k f).piece = o.piece := by
  unfold OpenAccess.txn
  cases k
  case read =>
    dsimp only
    split
    · exact ⟨rfl, rfl, rfl, rfl, rfl⟩
    · split <;> exact ⟨rfl, rfl, rfl, rfl, rfl⟩
  case edgeFill => exact ⟨rfl, rfl, rfl, rfl, rfl⟩
  case h8write => exact ⟨rfl, rfl, rfl, rfl, rfl⟩
  all_goals
    dsimp only
    split <;> exact ⟨rfl, rfl, rfl, rfl, rfl⟩

/-- An access cut at the end of its window is otherwise the same. -/
theorem Access.clip_fields (a : Access) (w : Win) : (a.clip w).addr = a.addr ∧ (a.clip w).write = a.write ∧ (a.clip w).asker = a.asker := by
  unfold Access.clip
  split <;> exact ⟨rfl, rfl, rfl⟩

namespace State

/-- The transaction that an access begins, and the access with it (R168, R169). -/
theorem beginPiece_eq (s : State) (o : OpenAccess) :
    ∃ x : Txn, s.beginPiece o = s.onMem (fun m => { m with cur := some { o with polls := 0, fill := [] }, txn := some x }) ∧
      x.fall = s.fallEdge ∧ x.sel = o.win.selCode ∧ x.stretch = [] ∧ (o.acc.write = false → x.kind = .read) ∧
      (o.acc.write = true → o.win.profile = 2 → x.kind = .h8write) := by
  unfold beginPiece beginTxn
  dsimp only
  obtain ⟨hkind, hsel, hstretch, hfall, -⟩ := OpenAccess.txn_fields { o with polls := 0, fill := [] }
    (if !o.acc.write then TxKind.read else if o.win.profile = 2 then .h8write
      else if OpenAccess.needsFill { o with polls := 0, fill := [] } then .edgeFill else .writeEnable) s.fallEdge
  refine ⟨_, rfl, hfall, hsel, hstretch, fun hw => ?_, fun hw hp => ?_⟩
  · rw [hkind, hw]
    rfl
  · rw [hkind, hw, if_pos hp]
    rfl

/-- The request of an access is a ring's or the journal's. -/
theorem takeRequest_eq (s : State) (a : Access) : ∃ r j, s.takeRequest a = { s with rings := r, jnl := j } := by
  have hring (n : RingNo) (f : Ring → Ring) : ∃ r j, s.onRing n f = { s with rings := r, jnl := j } := ⟨_, s.jnl, rfl⟩
  have hjnl (f : Journal → Journal) : ∃ r j, s.onJnl f = { s with rings := r, jnl := j } := ⟨s.rings, _, rfl⟩
  have hsame : ∃ r j, s = { s with rings := r, jnl := j } := ⟨s.rings, s.jnl, rfl⟩
  unfold takeRequest
  cases a.asker
  case tail | probe | head => exact hring _ _
  case erase | intent | progress | close | tomb | scan | replayIntent => exact hjnl _
  all_goals exact hsame

theorem err_if (s : State) (c : Prop) [Decidable c] (k : HostError) : ∃ e, (if c then s.err k else s) = { s with wild := e } := by
  split
  · exact ⟨_, rfl⟩
  · exact ⟨s.wild, rfl⟩

/-- What becomes of an access whose first byte a window matches (R165, R166, R171). -/
theorem startAccess_resolved {s y : State} {a : Access} {n : Fin 8} {more : List (Fin 8)} {w : Win} (hy : s.takeRequest a = y)
    (hm : y.matching a.anchor = n :: more) (hw : y.applied.window.win[n] = w) :
    ∃ e e', s.startAccess a =
      if w.last < a.addr + (a.clip w).len - 1 then ({ y with wild := e } : State).memFailure 7 n.val a.addr false (a.clip w)
      else if a.write && !w.writable then ({ y with wild := e } : State).memFailure 4 n.val a.addr false (a.clip w)
      else if a.asker == .erase && decide (w.profile = 2) then ({ y with wild := e } : State).writeDone (a.clip w)
      else ({ y with wild := e' } : State).beginPiece ⟨a.clip w, w, n.val, w.target a.addr, (a.clip w).len, [], 0, [], false⟩ := by
  obtain ⟨hadr, hwr, hask⟩ := a.clip_fields w
  obtain ⟨e1, h1⟩ := y.err_if ((!more.isEmpty || y.doubleMatch n (a.clip w) || y.journalShared (a.clip w)) = true) .windowsOverlap
  obtain ⟨e2, h2⟩ := err_if { y with wild := e1 } (State.structuresClash { y with wild := e1 } (a.clip w) = true) .structuresOverlap
  obtain ⟨e3, h3⟩ := err_if { y with wild := e2 } ((decide (w.profile ≠ 0) && decide (w.latency = 0)) = true) .zeroLatency
  refine ⟨e2, e3, ?_⟩
  unfold startAccess
  dsimp only
  rw [hy, hm]
  dsimp only
  rw [hw, h1, h2, h3, hadr, hwr, hask]

/-- The access whose window can serve it is opened. -/
theorem startAccess_opens {s : State} {a : Access} {n : Fin 8} {w : Win} (hm : s.matching a.anchor = [n])
    (hw : w = s.applied.window.win[n]) (hlen : a.addr + (a.clip w).len - 1 ≤ w.last) (hwrite : a.write = true → w.writable = true)
    (herase : a.asker = .erase → w.profile ≠ 2) :
    ∃ r j e, s.startAccess a = ({ s with rings := r, jnl := j, wild := e } : State).beginPiece
      ⟨a.clip w, w, n.val, w.target a.addr, (a.clip w).len, [], 0, [], false⟩ := by
  obtain ⟨r, j, hreq⟩ := s.takeRequest_eq a
  obtain ⟨e, e', hstart⟩ := startAccess_resolved hreq hm hw.symm
  refine ⟨r, j, e', ?_⟩
  rw [hstart, if_neg (by omega), if_neg (by simpa using hwrite), if_neg (by simpa using herase)]

theorem arbitrate_new {s : State} {a : Access} (h : s.choice = some (.inr a)) :
    s.arbitrate = (s.onEdge fun e => { e with arbitrated := true }).startAccess a := by
  unfold arbitrate
  rw [h]

theorem arbitrate_parked {s : State} {o : OpenAccess} (h : s.choice = some (.inl o)) :
    s.arbitrate = ((s.onEdge fun e => { e with arbitrated := true }).onMem fun m => { m with parked := m.parked.erase o }).beginPiece o := by
  unfold arbitrate
  rw [h]

/-- The port is not busy before MCS_N falls (Table 2.5). -/
theorem mbusy_before {s : State} {x : Txn} (hx : s.mem.txn = some x) (hf : s.now < x.fall) : s.mbusy = false := by
  unfold mbusy mcsLow
  rw [hx]
  exact decide_eq_false (by omega)

end State

/-- On an edge that may arbitrate, and with MCS_N high, MEM_ARBITRATE is the arbitration. -/
theorem exec_memArbitrate {s : State} {dt : Nat} (hmay : (s.arrive dt).mayArbitrate = true) (harb : (s.arrive dt).edge.arbitrated = false)
    (hrise : (s.arrive dt).mem.rise ≤ (s.arrive dt).now) : exec (.memArbitrate dt) s = .next (s.arrive dt).arbitrate.settle := by
  show execMemArbitrate _ s = _
  unfold execMemArbitrate
  refine event_body ?_
  generalize s.arrive dt = x at *
  dsimp only
  rw [if_pos hmay, if_neg (c := x.edge.arbitrated = true) (by rw [harb]; decide), x.waitUntil_past _ hrise]
  exact if_pos (by rw [hmay, harb]; rfl)

/-- Settles O33: the choice is `exec_memArbitrate`, what becomes of a new access `startAccess_opens`, its first transaction
`beginPiece_eq`. -/
theorem arbitrationStarts : Obligations.ArbitrationStarts := by
  unfold Obligations.ArbitrationStarts
  intro s dt hmay harb hrise
  have hrun := exec_memArbitrate hmay harb hrise
  generalize s.arrive dt = y at *
  refine ⟨fun a n w hc hm hw hlen hwrite herase => ?_, fun o hc hread => ?_⟩
  · obtain ⟨r, j, e, hopen⟩ := State.startAccess_opens (s := y.onEdge fun e => { e with arbitrated := true }) hm hw hlen hwrite herase
    obtain ⟨x, hbegin, hfall, hsel, hstretch, hkind, hkind'⟩ := State.beginPiece_eq
      { (y.onEdge fun e => { e with arbitrated := true }) with rings := r, jnl := j, wild := e }
      ⟨a.clip w, w, n.val, w.target a.addr, (a.clip w).len, [], 0, [], false⟩
    obtain ⟨-, hwr, -⟩ := a.clip_fields w
    rw [State.arbitrate_new hc, hopen, hbegin] at hrun
    have hlate : y.now < x.fall := by
      rw [hfall]
      exact lt_of_lt_of_le (by omega : y.now < y.now + 2) (le_max_left _ _)
    exact ⟨_, _, x, hrun, rfl, rfl, rfl, rfl, rfl, rfl, hfall, hsel, hstretch, fun h => hkind (hwr.trans h), fun h => hkind' (hwr.trans h),
      State.mbusy_before rfl hlate⟩
  · obtain ⟨x, hbegin, hfall, hsel, hstretch, hkind, -⟩ := State.beginPiece_eq
      ((y.onEdge fun e => { e with arbitrated := true }).onMem fun m => { m with parked := m.parked.erase o }) o
    rw [State.arbitrate_parked hc, hbegin] at hrun
    exact ⟨_, x, hrun, rfl, rfl, hkind hread, hsel, hfall, rfl⟩

end Sys2Proof.Machine

/-! SUPPORT. The end of a transaction, the stretches of MRDY and the status polls (R150, R153, R168, R169, R174). The proof of O34. -/

namespace Sys2Proof.Machine

open Sys2Proof.Safety

/-- The access after a piece of k bytes (R168, R169). -/
def OpenAccess.after (o : OpenAccess) (k : Nat) (bs : List Byte) : OpenAccess :=
  { o with target := (o.target + k) % 2 ^ 32, left := o.left - k, got := o.got ++ bs }

namespace State

/-! ### What a transaction's end gives its access -/

/-- The end of a read. -/
theorem txnEnd_read {w : State} {q : OpenAccess} {x : Txn} {bytes : List Byte} (hk : x.kind = .read) :
    w.txnEnd q x bytes = w.riseNow.pieceDone q x.piece (brought q x bytes) := by
  unfold txnEnd brought
  rw [hk]
  dsimp only
  split <;> rfl

/-- The end of a write enable: the program or erase follows at once (R169). -/
theorem txnEnd_writeEnable {w : State} {q : OpenAccess} {x : Txn} {bytes : List Byte} (hk : x.kind = .writeEnable) :
    w.txnEnd q x bytes = w.riseNow.beginTxn q (if q.acc.asker == .erase then .erase else .program) (w.now + 4) := by
  have hfall : w.riseNow.fallEdge = w.now + 4 := max_eq_right (by show w.now + 2 ≤ w.now + 4; omega)
  unfold txnEnd
  rw [hk]
  dsimp only
  rw [hfall]

/-- The end of a program or an erase: it waits for its first poll (R169). -/
theorem txnEnd_started {w : State} {q : OpenAccess} {x : Txn} {bytes : List Byte} (hk : x.kind = .program ∨ x.kind = .erase) :
    w.txnEnd q x bytes = w.riseNow := by
  unfold txnEnd
  obtain hk | hk := hk <;> rw [hk]

/-- A poll that shows write-in-progress (R169). -/
theorem txnEnd_busy {w : State} {q : OpenAccess} {x : Txn} {bytes : List Byte} (hk : x.kind = .status)
    (hbusy : ((busBytes x.count bytes).getD 0 0).getLsbD 0 = true) :
    w.txnEnd q x bytes = if q.polls + 1 = q.win.pollMax then w.riseNow.txnFails q x 2
      else w.riseNow.onMem fun m => { m with cur := some { q with polls := q.polls + 1 } } := by
  unfold txnEnd
  rw [hk]
  exact if_pos hbusy

/-- A poll that shows no write-in-progress, and the write of an H8 window, end a piece of a write (R169). -/
theorem txnEnd_written {w : State} {q : OpenAccess} {x : Txn} {bytes : List Byte}
    (hk : x.kind = .h8write ∨ (x.kind = .status ∧ ((busBytes x.count bytes).getD 0 0).getLsbD 0 = false)) :
    w.txnEnd q x bytes = w.riseNow.pieceDone q x.piece [] := by
  unfold txnEnd
  obtain hk | ⟨hk, hidle⟩ := hk
  · rw [hk]
  · rw [hk]
    exact if_neg (by rw [hidle]; decide)

/-! ### What a piece leaves to do -/

theorem pieceDone_read {w : State} {q : OpenAccess} (hr : q.acc.write = false) (k : Nat) (bs : List Byte) :
    w.pieceDone q k bs =
      if q.drop then w.freePort
      else if q.left - k = 0 then
        w.freePort.readDone (q.after k bs) (q.got ++ bs)
      else w.freePort.onMem fun m =>
        { m with parked := m.parked ++ [q.after k bs] } := by
  unfold pieceDone
  dsimp only
  rw [hr]
  rfl

theorem pieceDone_write {w : State} {q : OpenAccess} (hwr : q.acc.write = true) (k : Nat) (bs : List Byte) :
    w.pieceDone q k bs =
      if q.left - k = 0 ∨ q.acc.asker = .erase then w.freePort.writeDone q.acc
      else w.beginPiece (q.after k bs) := by
  unfold pieceDone
  dsimp only
  rw [hwr]
  rfl

/-! ### The edge on which a transaction ends -/

theorem runMrdy_ticking (l : List Bool) (s : State) : (s.runMrdy l).ticking = s.ticking := by
  induction l generalizing s with
  | nil => rfl
  | cons b l ih => exact (ih _).trans (elapse_ticking _ _)

/-- The access that is still open on the edge given. -/
theorem atEdge_holds {y w : State} {e : Nat} {q : OpenAccess} (hw : w = y.waitUntil e) (hq : holds w q) (body : OpenAccess → State → State) :
    y.atEdge e body = body q w := by
  obtain ⟨hcur, htxn⟩ := hq
  unfold atEdge
  dsimp only
  rw [← hw, hcur]
  exact if_pos htxn

/-- A transaction to which every answer comes in time ends (R150). -/
theorem endTxn_answered {y w : State} {o q : OpenAccess} {x0 x : Txn} {wait : Nat} {bytes : List Byte}
    (hx : x = x0.foresee y.mem y.d (mrdyBound y.applied.window.ctl) y.now) (hok : x.mrdyFails y.d (mrdyBound y.applied.window.ctl) = none)
    (ha : answered o x y.d wait bytes) (hw : w = y.waitUntil (endEdge o x y.d wait)) (hq : holds w q) :
    y.endTxn o x0 wait bytes = w.txnEnd q x bytes := by
  obtain ⟨hlen, hwait, hpair⟩ := ha
  refine Eq.trans ?_ (atEdge_holds hw hq fun o s => s.txnEnd o x bytes)
  unfold endTxn
  dsimp only
  rw [← hx, hok]
  dsimp only
  rw [if_neg (by simpa using le_trans (Nat.le_add_right _ _) hlen), if_neg (by omega),
    if_neg (fun h => Bool.false_ne_true (h.2.symm.trans (hpair h.1)))]
  rfl

end State

/-- What MEM_TRANSACTION_END meets. -/
theorem exec_memTransactionEnd {s y : State} {dt wait : Nat} {mrdy : List Bool} {bytes : List Byte} {o : OpenAccess} {x : Txn}
    (h : meets s dt mrdy y o x) :
    ∃ x0, x = x0.foresee y.mem y.d (mrdyBound y.applied.window.ctl) y.now ∧
      exec (.memTransactionEnd dt ⟨mrdy, wait⟩ bytes) s = .next (y.endTxn o x0 wait bytes).settle := by
  obtain ⟨ht, hy, hcur, x0, hx0, hx⟩ := h
  refine ⟨x0, hx, ?_⟩
  show execMemTransactionEnd _ _ _ s = _
  unfold execMemTransactionEnd
  refine event_body ?_
  dsimp only
  rw [ht, if_neg (by decide), ← hy, hcur, hx0]

/-! ### Ready points (R153) -/

theorem readyStretches_cons (d bound e k p : Nat) (l : List Nat) (base : Nat) (hp : p = base + d * (2 + k) - 1) :
    readyStretches d bound e e (k :: l) base =
      if e < max p e ∨ p + bound ≤ max p e then []
      else (max p e - p) :: readyStretches d bound e e l (base + (max p e - p)) := by
  subst hp
  rfl

/-- One edge with MRDY high, from its next ready point's view. -/
theorem pass_edge {x : Txn} {d bound e k p : Nat} (hk : x.ready[x.stretch.length]? = some k)
    (hp : p = x.fall + x.stretch.sum + d * (2 + k) - 1) :
    (e < p → (x.pass d bound e e).stretch = x.stretch) ∧
      (p ≤ e → e < p + bound → ∃ l, (x.pass d bound e e).stretch = x.stretch ++ (e - p) :: l) ∧
      (p + bound ≤ e → (x.pass d bound e e).stretch = x.stretch) := by
  obtain ⟨hlt, hget⟩ := List.getElem?_eq_some_iff.mp hk
  have hdrop : x.ready.drop x.stretch.length = k :: x.ready.drop (x.stretch.length + 1) := by rw [List.drop_eq_getElem_cons hlt, hget]
  have hpass : (x.pass d bound e e).stretch = x.stretch ++
      readyStretches d bound e e (k :: x.ready.drop (x.stretch.length + 1)) (x.fall + x.stretch.sum) := by rw [← hdrop]; rfl
  rw [readyStretches_cons d bound e k p _ _ hp] at hpass
  refine ⟨fun h => ?_, fun h h' => ?_, fun h => ?_⟩
  · rw [hpass, if_pos (.inl (by omega)), List.append_nil]
  · rw [if_neg (by omega), Nat.max_eq_right h] at hpass
    exact ⟨_, hpass⟩
  · rw [hpass, if_pos (.inr (by omega)), List.append_nil]

theorem cycleAt_unstretched {x : Txn} (h : x.stretch = []) (d k : Nat) : x.cycleAt d k = x.fall + d * (2 + k) := by
  unfold Txn.cycleAt
  rw [h, List.zip_nil_right]
  rfl

/-! ### The polls of a write in progress (R169) -/

theorem pollGap_eq {s : State} {o : OpenAccess} {gap : Nat} (h : s.pollGap = some (o, gap)) :
    gap = o.win.pollGap * (if o.acc.asker = .erase then 256 else 1) := by
  unfold State.pollGap at h
  split at h
  · cases h
    by_cases he : o.acc.asker = .erase <;> simp [he]
  · cases h

theorem exec_statusPoll {s w : State} {dt gap : Nat} {o : OpenAccess} (ht : (s.arrive dt).ticking = true)
    (hp : (s.arrive dt).pollGap = some (o, gap)) (hw : w = (s.arrive dt).waitUntil ((s.arrive dt).mem.rise + gap))
    (hs : w.pollGap.isSome = true) : exec (.statusPoll dt) s = .next (w.beginTxn o .status w.now).settle := by
  obtain ⟨g, hg⟩ := Option.isSome_iff_exists.mp hs
  show execStatusPoll _ s = _
  unfold execStatusPoll
  refine event_body ?_
  generalize s.arrive dt = x at *
  dsimp only
  rw [hp]
  dsimp only
  rw [if_pos ht, ← hw, hg]

/-- Settles O34: a transaction that ends is `endTxn_answered`, with one lemma for each kind; a ready point is `pass_edge`, a poll
`exec_statusPoll`. -/
theorem transactionsEnd : Obligations.TransactionsEnd := by
  unfold Obligations.TransactionsEnd
  refine ⟨fun s y w dt wait mrdy bytes o q x hmeets hok ha hw hq => ?_,
    ⟨fun x d k h => cycleAt_unstretched h d k, fun s => ⟨rfl, rfl, fun h => if_neg (by rw [h]; decide)⟩,
      fun x d bound e k p hk hp => pass_edge hk hp⟩,
    fun s w dt gap o ht hp hw hs => ?_⟩
  · obtain ⟨x0, hx, hrun⟩ := exec_memTransactionEnd (wait := wait) (bytes := bytes) hmeets
    rw [State.endTxn_answered hx hok ha hw hq] at hrun
    have hcur := hq.1
    have hlate : endEdge o x y.d wait ≤ w.now := by
      rw [hw]
      refine State.waitUntil_reaches _ _ ?_
      rw [hmeets.2.1, State.runMrdy_ticking]
      exact hmeets.1
    refine ⟨hlate, fun hk hr hd => ?_, fun hk hr hleft hd => ?_, fun hk => ?_, fun hk => ?_, fun hk hbusy hpoll => ?_⟩
    · rwa [State.txnEnd_read hk, State.pieceDone_read hr, if_pos hd] at hrun
    · rw [State.txnEnd_read hk, State.pieceDone_read hr, if_neg (by rw [hd]; decide), if_neg (by omega)] at hrun
      exact ⟨_, _, hrun, rfl, rfl, rfl, rfl, rfl, rfl, rfl, rfl⟩
    · rw [State.txnEnd_writeEnable hk] at hrun
      obtain ⟨hkind, -, -, hfall, -⟩ := q.txn_fields (if q.acc.asker == .erase then .erase else .program) (w.now + 4)
      refine ⟨_, _, hrun, rfl, rfl, rfl, hkind.trans ?_, hfall⟩
      by_cases he : q.acc.asker = .erase <;> simp [he]
    · rw [State.txnEnd_started hk] at hrun
      exact ⟨_, hrun, rfl, rfl, hcur⟩
    · rw [State.txnEnd_busy hk hbusy, if_neg hpoll] at hrun
      exact ⟨_, hrun, rfl, rfl, rfl⟩
  · obtain ⟨hkind, -, -, hfall, -⟩ := o.txn_fields .status w.now
    refine ⟨pollGap_eq hp, _, _, exec_statusPoll ht hp hw hs, rfl, rfl, hkind, hfall, ?_, ?_⟩
    · show _ ≤ w.now
      rw [hw]
      exact State.waitUntil_reaches _ _ ht
    · show decide ((o.txn .status w.now).fall ≤ w.now) = true
      rw [hfall]
      exact decide_eq_true le_rfl

end Sys2Proof.Machine

/-! SUPPORT. What a complete access gives its unit: rings, updates, the scan and the open slots (R168 to R169, R203 to R210, R264 to R270,
R330 to R334). The proof of O35. -/

namespace Sys2Proof.Machine

open Sys2Proof.Safety

namespace State

/-! ### Entries, tails and probes -/

/-- A fetched entry (R210). -/
theorem gotEntry_fetches (s : State) (n : RingNo) (e : Entry) (table : List Byte) :
    ∃ f : Fetched, (s.gotEntry n e table).rings[n].fetched = s.rings[n].fetched ++ [f] ∧ f.index = s.rings[n].fetch ∧ f.entry = e ∧
      f.table = table ∧ f.runsHere = e.runsHere s.tile ∧ (s.gotEntry n e table).rings[n].fetch = s.rings[n].fetch + 1 ∧
      (s.gotEntry n e table).rings[n].fetching = .none := by
  let f : Fetched := ⟨s.rings[n].fetch, e, table, e.runsHere s.tile, ⟨none, none, s.applied.drive.atlas, s.thm.tpan, false⟩⟩
  have hring : (s.gotEntry n e table).rings[n] =
      { s.rings[n] with
        fetched := s.rings[n].fetched ++ [f], fetch := s.rings[n].fetch + 1, fetching := .none, probe := s.rings[n].phaseMode } :=
    s.onRing_same n fun r => { r with fetched := r.fetched ++ [f], fetch := r.fetch + 1, fetching := .none, probe := r.phaseMode }
  rw [hring]
  exact ⟨f, rfl, rfl, rfl, rfl, rfl, rfl, rfl⟩

/-- A probe that finds an entry (R206, R208). -/
theorem gotProbe_found {s : State} {n : RingNo} {bs : List Byte} (h : phaseBit bs ≠ s.rings[n].lap s.rings[n].fetch) :
    (s.gotProbe n bs).rings[n].fetching = .entry ∧
      ((s.rings[n].fetch - s.rings[n].head).toNat < 2 ^ ringExp s.rings[n].ctl → (s.gotProbe n bs).wild = s.wild) := by
  have hbit : (phaseBit bs == !s.rings[n].lap s.rings[n].fetch) = true := beq_iff_eq.mpr (Bool.eq_not.mpr h)
  unfold gotProbe
  dsimp only
  rw [if_pos hbit]
  refine ⟨congrArg Ring.fetching (onRing_same _ n _), fun hspan => ?_⟩
  rw [if_neg (by omega)]
  rfl

/-- A probe that finds none: the poll interval begins (R209). -/
theorem gotProbe_missed {s : State} {n : RingNo} {bs : List Byte} (h : phaseBit bs = s.rings[n].lap s.rings[n].fetch) :
    (s.gotProbe n bs).rings[n].timer = some s.now ∧ (s.gotProbe n bs).rings[n].fetching = s.rings[n].fetching := by
  have hbit : ¬(phaseBit bs == !s.rings[n].lap s.rings[n].fetch) = true := by simpa using h
  unfold gotProbe
  dsimp only
  rw [if_neg hbit, onRing_same]
  exact ⟨rfl, rfl⟩

/-- What a tail word breaks: the span of its ring, or its order. -/
theorem span_iff (far back : Prop) [Decidable far] [Decidable back] (stale tailRead : Bool) :
    ((decide far && !stale) || (tailRead && decide back)) = true ↔ (stale = false ∧ far) ∨ (tailRead = true ∧ back) := by
  simp [and_comm]

/-- The tail word, and what it may not name (R203, R204). -/
theorem gotTail_takes {s : State} {n : RingNo} {bs : List Byte} {v : BitVec 16} (hv : v.toNat = fld (wordAt bs 0) 0 16) :
    (s.gotTail n bs).rings[n].tail = v ∧ (s.gotTail n bs).rings[n].tailRead = true ∧
      ((v - s.rings[n].head).toNat ≤ 2 ^ ringExp s.rings[n].ctl →
        s.rings[n].tailRead = false ∨ (v - s.rings[n].tail).toNat < 2 ^ 15 → (s.gotTail n bs).wild = s.wild) ∧
      ((s.rings[n].stale = false ∧ 2 ^ ringExp s.rings[n].ctl < (v - s.rings[n].head).toNat) ∨
        (s.rings[n].tailRead = true ∧ 2 ^ 15 ≤ (v - s.rings[n].tail).toNat) → (s.gotTail n bs).wild.isSome = true) := by
  have hword : BitVec.ofNat 16 (fld (wordAt bs 0) 0 16) = v := by rw [← hv, BitVec.ofNat_toNat, BitVec.setWidth_eq]
  unfold gotTail
  dsimp only
  rw [hword]
  refine ⟨congrArg Ring.tail (onRing_same _ n _), congrArg Ring.tailRead (onRing_same _ n _), fun hspan hback => ?_, fun herr => ?_⟩
  · rw [if_neg fun h => by
      obtain ⟨-, hfar⟩ | ⟨hread, hfar⟩ := (span_iff _ _ _ _).mp h
      · omega
      · obtain hnot | hnear := hback
        · exact Bool.false_ne_true (hnot.symm.trans hread)
        · omega]
    rfl
  · rw [if_pos ((span_iff _ _ _ _).mpr herr)]
    show (s.wild.or _).isSome = true
    cases s.wild <;> rfl

/-! ### The reads of an update (R264, R268, R270) -/

/-- A read of an update takes its place in it. -/
theorem gotUpdateRead_takes {s : State} {n : RingNo} {i : BitVec 16} {u v : Update} {f : Update → Update}
    (hu : s.rings[n].update? = some (i, u)) (hf : f u = v) :
    s.gotUpdateRead n f = (s.onUpdate n fun _ => v).readsDone n ∧ (s.onUpdate n fun _ => v).rings[n].update? = some (i, v) := by
  have hwork : s.rings[n].work = some (i, .update u) := by
    unfold Ring.update? at hu
    split at hu
    next j x h =>
      cases hu
      exact h
    next => cases hu
  have hsame : s.onUpdate n f = s.onUpdate n fun _ => v := by
    unfold onUpdate onRing
    simp only [hwork, hf]
  refine ⟨congrArg (fun x => State.readsDone x n) hsame, ?_⟩
  rw [onUpdate_update, if_pos rfl, hu]
  rfl

/-- An update that lacks a read waits for it. -/
theorem readsDone_waits {s : State} {n : RingNo} {i : BitVec 16} {u : Update} (hu : s.rings[n].update? = some (i, u))
    (hw : u.legend = none ∨ u.nextRead.isSome = true) : s.readsDone n = s := by
  unfold readsDone
  rw [hu]
  dsimp only
  obtain hw | hw := hw
  · rw [hw]
  · split
    · exact if_pos (by rw [hw]; rfl)
    · rfl

/-- The state ranges that the reads of an update show (R190). -/
theorem stateRange_if (s : State) (b : Bool) :
    (if b then s.err .stateRange else s) = { s with wild := if b then s.wild.or (some .stateRange) else s.wild } := by
  cases b <;> rfl

/-- The last read of an update is there. -/
theorem readsDone_last {s : State} {n : RingNo} {i : BitVec 16} {u : Update} {lg : List Byte} {p : Plan}
    (hu : s.rings[n].update? = some (i, u)) (hstage : u.stage = .reads) (hlg : u.legend = some lg) (hnext : u.nextRead = none)
    (hp : p = planOf (legendNs lg) (bandOf lg u.tpan) u.moves u.records) {x : State}
    (hx : x = { s with wild := if u.statesBad (legendNs lg) then s.wild.or (some .stateRange) else s.wild }) :
    s.readsDone n = if p.drives then x.onUpdate n fun u => { u with plan := some p, stage := if u.journaled then .waitIntent else .ready }
      else (x.completeUpdate n i).onRing n fun r => if u.gated then { r with barrier := none } else r := by
  unfold readsDone
  rw [hu]
  dsimp only
  rw [hlg]
  dsimp only
  rw [if_neg (by rw [hnext, hstage]; decide), stateRange_if, ← hx, ← hp]
  cases p.drives <;> rfl

theorem completeUpdate_wild (s : State) (n : RingNo) (i : BitVec 16) : (s.completeUpdate n i).wild = s.wild := by
  obtain ⟨e, c, k, heq⟩ := s.count_eq .updates
  unfold completeUpdate
  rw [heq]
  rfl

/-- What the last read of an update leaves. -/
theorem readsDone_ends {s : State} {n : RingNo} {i : BitVec 16} {u : Update} {lg : List Byte} {p : Plan}
    (hu : s.rings[n].update? = some (i, u)) (hstage : u.stage = .reads) (hlg : u.legend = some lg) (hnext : u.nextRead = none)
    (hp : p = planOf (legendNs lg) (bandOf lg u.tpan) u.moves u.records) :
    (s.readsDone n).wild = (if u.statesBad (legendNs lg) then s.wild.or (some .stateRange) else s.wild) ∧
      (p.drives = true → (s.readsDone n).rings[n].update? =
        some (i, { u with plan := some p, stage := if u.journaled then .waitIntent else .ready })) ∧
      (p.drives = false → (s.readsDone n).rings[n].work = none ∧ (s.readsDone n).rings[n].comp = s.rings[n].compAfter i ∧
        (s.readsDone n).cnt.updates = satAdd 0xFFFFFFFFF s.cnt.updates 1 ∧
        (s.readsDone n).rings[n].barrier = (if u.gated then none else s.rings[n].barrier)) := by
  obtain ⟨x, hx⟩ : ∃ x : State, x = { s with wild := if u.statesBad (legendNs lg) then s.wild.or (some .stateRange) else s.wild } := ⟨_, rfl⟩
  have hxu : x.rings[n].update? = some (i, u) := by rw [hx]; exact hu
  have hring : x.rings[n] = s.rings[n] := by rw [hx]
  have hcount : x.cnt = s.cnt := by rw [hx]
  have hwild : x.wild = if u.statesBad (legendNs lg) then s.wild.or (some .stateRange) else s.wild := by rw [hx]
  obtain ⟨-, -, hfin, hcnt⟩ := x.completeUpdate_fields n i
  rw [readsDone_last hu hstage hlg hnext hp hx, ← hwild, ← hring, ← hcount]
  cases p.drives
  · rw [if_neg (by decide)]
    refine ⟨x.completeUpdate_wild n i, nofun, fun _ => ?_⟩
    rw [onRing_same, hfin]
    refine ⟨?_, ?_, congrArg Counters.updates hcnt, ?_⟩ <;> split <;> rfl
  · rw [if_pos rfl]
    refine ⟨rfl, fun _ => ?_, nofun⟩
    rw [onUpdate_update, if_pos rfl, hxu]
    rfl

/-! ### The scan (R78, R79, R334) -/

/-- The scan asks for what is still to come of the region. -/
theorem askScan_asks {s : State} {c : Scan} (hc : s.jnl.scan = some c) (hlen : c.bytes.length < regionBytes s.jnl.size) :
    s.askScan = s.enqueue (jnlAccess .scan 0 0 (fld s.jnl.base 0 32 + c.bytes.length) (min 512 (regionBytes s.jnl.size - c.bytes.length)) 0
      false []) := by
  unfold askScan
  rw [hc]
  exact if_pos hlen

/-- Updates that are forgotten leave the journal and the journal-open flag. -/
theorem forgetUpdates_keeps (s : State) : s.forgetUpdates.jnl = s.jnl ∧ s.forgetUpdates.pw.jopen = s.pw.jopen := by
  unfold forgetUpdates
  dsimp only
  generalize hy : List.foldl _ s _ = y
  have hfold : y.jnl = s.jnl ∧ y.pw = s.pw := by
    subst hy
    exact List.foldlRecOn (motive := fun t : State => t.jnl = s.jnl ∧ t.pw = s.pw) _ _ ⟨rfl, rfl⟩ fun t ht n _ => ht
  exact ⟨(y.abandonCut_jnl _).trans hfold.1, (jopen_of_aloof y.abandonAll_aloof).trans (congrArg Power.jopen hfold.2)⟩

end State

end Sys2Proof.Machine

/-! SUPPORT. The end of a scan, and the proof of O35. -/

namespace Sys2Proof.Machine

open Sys2Proof.Safety

namespace State

/-! ### The end of a scan (R78, R79, R334) -/

/-- A region without a valid intent record begins its numbers afresh. -/
theorem newestIntent_none {region : List Byte} {b : Nat} (h : ∀ q, scanIntent region b q = none) (slots : List Nat) :
    newestIntent (slots.filterMap fun q => (scanIntent region b q).map fun i => (q, i.seq)) = none := by
  have hnil : (slots.filterMap fun q => (scanIntent region b q).map fun i => (q, i.seq)) = [] :=
    List.filterMap_eq_nil_iff.mpr fun q _ => by rw [h q]; rfl
  rw [hnil]
  rfl

/-- What a scan whose region has been read leaves (`z`: JNL_SEQ and JNL_WPOS as it has found them). -/
theorem scanEnd_eq (s : State) (c : Scan) :
    ∃ (seq : BitVec 24) (wpos : Nat) (found : List OpenSlot),
      ((∀ q, scanIntent c.bytes (sectorBytes s.jnl.ctl) q = none) → seq = 0 ∧ wpos = 0) ∧
        s.scanEnd c =
          let x := s.onJnl fun j => { j with scan := none, scanFail := false, seq := seq, wpos := wpos }
          if c.gateOpen then x
          else
            let y := (x.rescan found).forgetUpdates
            if y.jnl.slots.isEmpty then y.updateOpen.onJnl fun j => { j with gate := true }
            else (y.onPw fun p => { p with jopen := true }).onJnl fun j => { j with gateAfter := true } := by
  refine ⟨_, _, _, fun h => ?_, rfl⟩
  rw [newestIntent_none h]
  exact ⟨rfl, rfl⟩

theorem scanEnd_fields (s : State) (c : Scan) :
    (s.scanEnd c).jnl.scan = none ∧ (s.scanEnd c).jnl.scanFail = false ∧
      ((∀ q, scanIntent c.bytes (sectorBytes s.jnl.ctl) q = none) → (s.scanEnd c).jnl.seq = 0 ∧ (s.scanEnd c).jnl.wpos = 0) ∧
      (c.gateOpen = true → (s.scanEnd c).jnl.gate = s.jnl.gate ∧ (s.scanEnd c).jnl.slots = s.jnl.slots) ∧
      (c.gateOpen = false → (s.scanEnd c).jnl.slots = [] → (s.scanEnd c).jnl.gate = true ∧ (s.scanEnd c).pw.jopen = false) ∧
      (c.gateOpen = false → (s.scanEnd c).jnl.slots ≠ [] →
        (s.scanEnd c).jnl.gate = s.jnl.gate ∧ (s.scanEnd c).jnl.gateAfter = true ∧ (s.scanEnd c).pw.jopen = true) := by
  obtain ⟨seq, wpos, found, hnone, heq⟩ := s.scanEnd_eq c
  dsimp only at heq
  generalize hx : (s.onJnl fun j => { j with scan := none, scanFail := false, seq := seq, wpos := wpos }) = x at heq
  have hjnl : x.jnl = { s.jnl with scan := none, scanFail := false, seq := seq, wpos := wpos } := hx ▸ rfl
  cases hopen : c.gateOpen
  · rw [hopen, if_neg (by decide)] at heq
    obtain ⟨hkept, -⟩ := (x.rescan found).forgetUpdates_keeps
    generalize (x.rescan found).forgetUpdates = y at heq hkept
    have hy : y.jnl = { s.jnl with scan := none, scanFail := false, seq := seq, wpos := wpos, slots := (x.rescan found).jnl.slots } := by
      have hres : (x.rescan found).jnl = { x.jnl with slots := (x.rescan found).jnl.slots } := rfl
      exact hkept.trans (hres.trans (by rw [hjnl]))
    have hgate : y.jnl.gate = s.jnl.gate := by rw [hy]
    have hrest : y.jnl.scan = none ∧ y.jnl.scanFail = false ∧ y.jnl.seq = seq ∧ y.jnl.wpos = wpos := by rw [hy]; exact ⟨rfl, rfl, rfl, rfl⟩
    obtain ⟨hscan, hfail, hseq, hwpos⟩ := hrest
    cases hempty : y.jnl.slots.isEmpty
    · rw [hempty, if_neg (by decide)] at heq
      rw [heq]
      refine ⟨hscan, hfail, fun h => ?_, nofun, fun _ h => ?_, fun _ _ => ⟨hgate, rfl, rfl⟩⟩
      · obtain ⟨h1, h2⟩ := hnone h
        exact ⟨hseq.trans h1, hwpos.trans h2⟩
      · rw [show y.jnl.slots = [] from h] at hempty
        cases hempty
    · rw [hempty, if_pos rfl, updateOpen_eq] at heq
      rw [heq]
      refine ⟨hscan, hfail, fun h => ?_, nofun, fun _ _ => ⟨rfl, ?_⟩, fun _ h => absurd (List.isEmpty_iff.mp hempty) h⟩
      · obtain ⟨h1, h2⟩ := hnone h
        exact ⟨hseq.trans h1, hwpos.trans h2⟩
      · show (_ && !y.jnl.slots.isEmpty) = false
        rw [hempty]
        exact Bool.and_false _
  · rw [hopen, if_pos rfl] at heq
    rw [heq, hjnl]
    exact ⟨rfl, rfl, hnone, fun _ => ⟨rfl, rfl⟩, nofun, nofun⟩

/-- A read of the scan: the next 512 bytes, or its end. -/
theorem readDone_scan {s : State} {o : OpenAccess} {bs : List Byte} {c : Scan} (ha : o.acc.asker = .scan) (hc : s.jnl.scan = some c) :
    s.readDone o bs =
      if regionBytes s.jnl.size ≤ c.bytes.length + bs.length then
        (s.onJnl fun j => { j with scan := some { c with bytes := c.bytes ++ bs } }).scanEnd { c with bytes := c.bytes ++ bs }
      else (s.onJnl fun j => { j with scan := some { c with bytes := c.bytes ++ bs } }).askScan := by
  unfold readDone
  rw [ha]
  dsimp only
  rw [hc, ← List.length_append]
  rfl

theorem scan_goesOn {s : State} {o : OpenAccess} {bs : List Byte} {c : Scan} (ha : o.acc.asker = .scan) (hc : s.jnl.scan = some c) :
    (c.bytes.length + bs.length < regionBytes s.jnl.size →
      ∃ a, (s.readDone o bs).jnl.queue = s.jnl.queue ++ [a] ∧ (s.readDone o bs).jnl.scan = some { c with bytes := c.bytes ++ bs } ∧
        a.asker = .scan ∧ a.addr = fld s.jnl.base 0 32 + (c.bytes.length + bs.length) ∧
        a.len = min 512 (regionBytes s.jnl.size - (c.bytes.length + bs.length))) ∧
      (regionBytes s.jnl.size ≤ c.bytes.length + bs.length →
        (s.readDone o bs).jnl.scan = none ∧ (s.readDone o bs).jnl.scanFail = false ∧
        ((∀ q, scanIntent (c.bytes ++ bs) (sectorBytes s.jnl.ctl) q = none) →
          (s.readDone o bs).jnl.seq = 0 ∧ (s.readDone o bs).jnl.wpos = 0) ∧
        (c.gateOpen = true → (s.readDone o bs).jnl.gate = s.jnl.gate ∧ (s.readDone o bs).jnl.slots = s.jnl.slots) ∧
        (c.gateOpen = false → (s.readDone o bs).jnl.slots = [] → (s.readDone o bs).jnl.gate = true ∧ (s.readDone o bs).pw.jopen = false) ∧
        (c.gateOpen = false → (s.readDone o bs).jnl.slots ≠ [] → (s.readDone o bs).jnl.gate = s.jnl.gate ∧
          (s.readDone o bs).jnl.gateAfter = true ∧ (s.readDone o bs).pw.jopen = true)) := by
  rw [readDone_scan ha hc]
  refine ⟨fun h => ?_, fun h => ?_⟩
  · have hlen : (c.bytes ++ bs).length < regionBytes s.jnl.size := by rw [List.length_append]; exact h
    have hask := askScan_asks (s := s.onJnl fun j => { j with scan := some { c with bytes := c.bytes ++ bs } }) rfl hlen
    rw [if_neg (by omega), hask]
    exact ⟨_, rfl, rfl, rfl, by rw [← List.length_append]; rfl, by rw [← List.length_append]; rfl⟩
  · rw [if_pos h]
    exact scanEnd_fields _ _

/-! ### Open slots (R330 to R332) -/

theorem findSlot_onSlot {s : State} {q : Nat} {o : OpenSlot} {f : OpenSlot → OpenSlot} (h : s.findSlot q = some o)
    (hf : ∀ x, (f x).q = x.q) : (s.onSlot q f).findSlot q = some (f o) := by
  have hq : (o.q == q) = true := List.find?_some (p := fun x : OpenSlot => x.q == q) h
  have hsame : ((fun x : OpenSlot => x.q == q) ∘ fun x => if x.q == q then f x else x) = fun x => x.q == q := by
    funext x
    show ((if x.q == q then f x else x).q == q) = _
    split
    · rw [hf]
    · rfl
  show (s.jnl.slots.map fun x => if x.q == q then f x else x).find? (fun x => x.q == q) = _
  rw [List.find?_map, hsame, show s.jnl.slots.find? (fun x => x.q == q) = some o from h]
  exact congrArg some (if_pos hq)

/-- A complete intent, progress mark or tombstone. -/
theorem writeDone_slot {s : State} {a : Access} {o : OpenSlot} (ho : s.findSlot a.slot = some o) :
    (a.asker = .intent → o.wantTomb = false → ∀ i u, s.rings[o.ring].update? = some (i, u) → u.slot = some a.slot → u.stage = .intent →
        (s.writeDone a).rings[o.ring].update? = some (i, { u with stage := .ready })) ∧
      (a.asker = .intent → o.wantTomb = true → s.writeDone a = s.requestMark a.slot .tomb) ∧
      (∀ d, a.asker = .progress d → (s.writeDone a).findSlot a.slot = some { o with done := d }) ∧
      (a.asker = .tomb → (s.writeDone a).findSlot a.slot = none ∧ (s.writeDone a).cnt.tomb = satAdd 0xFFFF s.cnt.tomb 1 ∧
        ((∀ x ∈ s.jnl.slots, x.q = a.slot) → (s.writeDone a).pw.jopen = false)) := by
  unfold writeDone
  refine ⟨fun ha hw i u hu hslot hstage => ?_, fun ha hw => ?_, fun d ha => ?_, fun ha => ?_⟩
  · rw [ha]
    dsimp only
    rw [ho]
    dsimp only
    rw [if_neg (by rw [hw]; decide), onUpdate_update, if_pos rfl, hu]
    exact congrArg (fun v => some (i, v)) (if_pos ⟨hslot, hstage⟩)
  · rw [ha]
    dsimp only
    rw [ho]
    exact if_pos hw
  · rw [ha]
    exact findSlot_onSlot ho fun _ => rfl
  · rw [ha]
    dsimp only
    obtain ⟨-, hcnt, hjopen, -⟩ := (s.count .tomb).closeSlot_fields a.slot
    have hcount := s.count_cnt .tomb
    obtain ⟨e, c, k, heq⟩ := s.count_eq .tomb
    refine ⟨findSlot_none ((s.count .tomb).closeSlot_findSlot a.slot), ?_, fun hall => ?_⟩
    · rw [hcnt, hcount]
      rfl
    · have hempty : (s.jnl.slots.filter fun x => x.q != a.slot) = [] := List.filter_eq_nil_iff.2 fun x hx => by simp [hall x hx]
      rw [hjopen, heq]
      show (_ && !(s.jnl.slots.filter fun x => x.q != a.slot).isEmpty) = false
      rw [hempty]
      exact Bool.and_false _

/-- A read of an update that its ring has admitted, whichever it is. -/
theorem readDone_update {s : State} {o : OpenAccess} {bs : List Byte} {i : BitVec 16} {u v : Update}
    (hu : s.rings[o.acc.ring].update? = some (i, u))
    (hv : (o.acc.asker, v) ∈ [(Asker.oldImage, { u with oldImg := some bs }), (.newImage, { u with newImg := some bs }),
        (.mask, { u with masks := u.masks ++ [bs] }), (.legend, { u with legend := some bs }), (.index, { u with index := some bs })] ∨
      (∃ w, (o.acc.asker, v) ∈ [(Asker.record w, { u with records := addRecord u.records w bs }),
        (.recordRest w, { u with records := addRest u.records w bs })])) :
    s.readDone o bs = (s.onUpdate o.acc.ring fun _ => v).readsDone o.acc.ring ∧
      (s.onUpdate o.acc.ring fun _ => v).rings[o.acc.ring].update? = some (i, v) := by
  simp only [List.mem_cons, List.not_mem_nil, or_false, Prod.mk.injEq] at hv
  unfold readDone
  obtain (⟨ha, hv⟩ | ⟨ha, hv⟩ | ⟨ha, hv⟩ | ⟨ha, hv⟩ | ⟨ha, hv⟩) | ⟨w, ⟨ha, hv⟩ | ⟨ha, hv⟩⟩ := hv
  all_goals
    rw [ha]
    exact gotUpdateRead_takes hu hv.symm

end State

/-- Settles O35: the last transaction by `endTxn_answered`, an entry, a tail and a probe by `gotEntry_fetches`, `gotTail_takes` and
`gotProbe_found`, the reads of an update by `readDone_update` and `readsDone_ends`, the scan by `scan_goesOn`, a slot by
`writeDone_slot`. -/
theorem accessesComplete : Obligations.AccessesComplete := by
  unfold Obligations.AccessesComplete
  refine ⟨fun s y w dt wait mrdy bytes o q x hmeets hok ha hw hq => ?_, ?_,
    ⟨fun s n i u hu hstage => ⟨State.readsDone_waits hu, fun lg p hlg hnext hp => State.readsDone_ends hu hstage hlg hnext hp⟩, ?_⟩⟩
  · obtain ⟨x0, hx, hrun⟩ := exec_memTransactionEnd (wait := wait) (bytes := bytes) hmeets
    rw [State.endTxn_answered hx hok ha hw hq] at hrun
    refine ⟨fun hk hr hleft hd => ?_, fun hwr hk => ⟨fun hleft => ?_, fun hleft he => ?_⟩⟩
    · rw [State.txnEnd_read hk, State.pieceDone_read hr, if_neg (by rw [hd]; decide), if_pos (by omega)] at hrun
      exact ⟨q.after x.piece (brought q x bytes), rfl, rfl, hrun⟩
    · rwa [State.txnEnd_written hk, State.pieceDone_write hwr, if_pos (hleft.imp_left fun h => by omega)] at hrun
    · rw [State.txnEnd_written hk, State.pieceDone_write hwr, if_neg (by
        rintro (h | h)
        · omega
        · exact he h)] at hrun
      exact ⟨q.after x.piece [], rfl, rfl, rfl, hrun⟩
  · rintro s t o bs n rfl rfl
    refine ⟨fun ha ht => ?_, fun ha ht => ?_, fun e ha he => ?_, fun ha => ?_, fun v ha hv => ?_, fun i u v hu hv => ?_, fun c ha hc => ?_⟩
    · have hread : s.readDone o bs = s.gotEntry o.acc.ring (entryOf bs) [] := by
        unfold State.readDone
        rw [ha]
        exact if_neg (by rw [ht]; decide)
      obtain ⟨f, hfetched, hindex, hentry, htable, hruns, hrest⟩ := s.gotEntry_fetches o.acc.ring (entryOf bs) []
      rw [hread]
      exact ⟨f, hfetched, hindex, hentry, htable, by rw [hentry]; exact hruns, hrest⟩
    · have hread : s.readDone o bs = s.onRing o.acc.ring fun r => { r with fetching := .table (entryOf bs) } := by
        unfold State.readDone
        rw [ha]
        exact if_pos ht
      rw [hread, State.onRing_same]
      exact ⟨rfl, rfl⟩
    · have hread : s.readDone o bs = s.gotEntry o.acc.ring e bs := by
        unfold State.readDone
        rw [ha]
        dsimp only
        rw [he]
      rw [hread]
      exact s.gotEntry_fetches _ _ _
    · have hread : s.readDone o bs = s.gotProbe o.acc.ring bs := by
        unfold State.readDone
        rw [ha]
      rw [hread]
      exact ⟨State.gotProbe_found, State.gotProbe_missed⟩
    · have hread : s.readDone o bs = s.gotTail o.acc.ring bs := by
        unfold State.readDone
        rw [ha]
      rw [hread]
      exact State.gotTail_takes hv
    · exact State.readDone_update hu hv
    · exact State.scan_goesOn ha hc
  · rintro s t a o ho rfl
    exact State.writeDone_slot ho

end Sys2Proof.Machine

/-! SUPPORT. A failure of the memory port: the registers, the counter, the causes, the log entry, and what the unit's answer leaves of them
(R177, R131, R135). -/

namespace Sys2Proof.Machine

open Sys2Proof.Safety

/-! ### Fields of a word -/

theorem fld_or (a b : Word) (lo n : Nat) : fld (a ||| b) lo n = fld a lo n ||| fld b lo n := by
  rw [fld, fld, fld, BitVec.toNat_or, Nat.shiftRight_or_distrib, Nat.or_mod_two_pow]

theorem fld_put_eq (v at_ lo n : Nat) : fld (put v at_) lo n = v * 2 ^ at_ % 2 ^ 36 / 2 ^ lo % 2 ^ n := by
  rw [fld, put, BitVec.toNat_ofNat, Nat.shiftRight_eq_div_pow]

theorem fld_bitIf_seven (b : Bool) (lo n : Nat) : fld (bitIf b 7) lo n = b.toNat * 2 ^ 7 % 2 ^ 36 / 2 ^ lo % 2 ^ n := by
  rw [← fld_put_eq]
  cases b <;> rfl

/-- MEM_FAIL of a failure (Table 7.14). -/
def failWord (code win : Nat) (a : Access) : Word := put code 0 ||| put win 4 ||| bitIf a.write 7 ||| put a.user.toNat 8 ||| put a.ring.val 11

theorem failWord_code (code win : Nat) (a : Access) (h : code < 16) : fld (failWord code win a) 0 4 = code := by
  have hu := a.user.isLt
  have hr := a.ring.isLt
  have hb := a.write.toNat_lt
  unfold failWord
  simp only [fld_or, fld_put_eq, fld_bitIf_seven]
  rw [show win * 2 ^ 4 % 2 ^ 36 / 2 ^ 0 % 2 ^ 4 = 0 by omega, show a.write.toNat * 2 ^ 7 % 2 ^ 36 / 2 ^ 0 % 2 ^ 4 = 0 by omega,
    show a.user.toNat * 2 ^ 8 % 2 ^ 36 / 2 ^ 0 % 2 ^ 4 = 0 by omega, show a.ring.val * 2 ^ 11 % 2 ^ 36 / 2 ^ 0 % 2 ^ 4 = 0 by omega,
    show code * 2 ^ 0 % 2 ^ 36 / 2 ^ 0 % 2 ^ 4 = code by omega]
  simp

theorem failWord_window (code win : Nat) (a : Access) (h : code < 16) : fld (failWord code win a) 4 3 = win % 8 := by
  have hu := a.user.isLt
  have hr := a.ring.isLt
  have hb := a.write.toNat_lt
  unfold failWord
  simp only [fld_or, fld_put_eq, fld_bitIf_seven]
  rw [show win * 2 ^ 4 % 2 ^ 36 / 2 ^ 4 % 2 ^ 3 = win % 8 by omega, show a.write.toNat * 2 ^ 7 % 2 ^ 36 / 2 ^ 4 % 2 ^ 3 = 0 by omega,
    show a.user.toNat * 2 ^ 8 % 2 ^ 36 / 2 ^ 4 % 2 ^ 3 = 0 by omega, show a.ring.val * 2 ^ 11 % 2 ^ 36 / 2 ^ 4 % 2 ^ 3 = 0 by omega,
    show code * 2 ^ 0 % 2 ^ 36 / 2 ^ 4 % 2 ^ 3 = 0 by omega]
  simp

/-- The rest of MEM_FAIL, with a window number of three bits. -/
theorem failWord_access (code win : Nat) (a : Access) (h : code < 16) (hw : win < 8) :
    bitOf (failWord code win a) 7 = a.write ∧ fld (failWord code win a) 8 3 = a.user.toNat ∧ fld (failWord code win a) 11 2 = a.ring.val := by
  have hu := a.user.isLt
  have hr := a.ring.isLt
  have hb := a.write.toNat_lt
  refine ⟨?_, ?_, ?_⟩
  · have hcode : bitOf (put code 0) 7 = false := Nat.testBit_lt_two_pow (by rw [toNat_put (by omega)]; omega)
    have hwin : bitOf (put win 4) 7 = false := Nat.testBit_lt_two_pow (by rw [toNat_put (by omega)]; omega)
    unfold failWord
    rw [bitOf_or, bitOf_or, bitOf_or, bitOf_or, hcode, hwin, bitOf_bitIf _ _ _ (by decide), bitOf_put_low _ _ _ (by decide),
      bitOf_put_low _ _ _ (by decide)]
    simp
  · unfold failWord
    simp only [fld_or, fld_put_eq, fld_bitIf_seven]
    rw [show win * 2 ^ 4 % 2 ^ 36 / 2 ^ 8 % 2 ^ 3 = 0 by omega, show a.write.toNat * 2 ^ 7 % 2 ^ 36 / 2 ^ 8 % 2 ^ 3 = 0 by omega,
      show a.user.toNat * 2 ^ 8 % 2 ^ 36 / 2 ^ 8 % 2 ^ 3 = a.user.toNat by omega,
      show a.ring.val * 2 ^ 11 % 2 ^ 36 / 2 ^ 8 % 2 ^ 3 = 0 by omega, show code * 2 ^ 0 % 2 ^ 36 / 2 ^ 8 % 2 ^ 3 = 0 by omega]
    simp
  · unfold failWord
    simp only [fld_or, fld_put_eq, fld_bitIf_seven]
    rw [show win * 2 ^ 4 % 2 ^ 36 / 2 ^ 11 % 2 ^ 2 = 0 by omega, show a.write.toNat * 2 ^ 7 % 2 ^ 36 / 2 ^ 11 % 2 ^ 2 = 0 by omega,
      show a.user.toNat * 2 ^ 8 % 2 ^ 36 / 2 ^ 11 % 2 ^ 2 = 0 by omega,
      show a.ring.val * 2 ^ 11 % 2 ^ 36 / 2 ^ 11 % 2 ^ 2 = a.ring.val by omega, show code * 2 ^ 0 % 2 ^ 36 / 2 ^ 11 % 2 ^ 2 = 0 by omega]
    simp

/-! ### What the unit's answer leaves of a failure -/

/-- The edge, the counters, the log and what no edge changes stay, the registers of the failure among it; causes that are set stay set. -/
structure Reacts (s t : State) : Prop where
  now : t.now = s.now
  cnt : t.cnt = s.cnt
  log : t.log = s.log
  rooted : t.rooted = s.rooted
  cause : ∀ i, bitOf s.cause i = true → bitOf t.cause i = true

theorem Reacts.refl (s : State) : Reacts s s := ⟨rfl, rfl, rfl, rfl, fun _ h => h⟩

theorem Reacts.trans {a b c : State} (h : Reacts a b) (h' : Reacts b c) : Reacts a c :=
  ⟨h'.now.trans h.now, h'.cnt.trans h.cnt, h'.log.trans h.log, h'.rooted.trans h.rooted, fun i hi => h'.cause i (h.cause i hi)⟩

/-- What reaches the rings, the memory port and the journal alone. -/
theorem Reacts.of_apart {s t : State} (h : t.apart = s.apart) (hr : t.rooted = s.rooted) : Reacts s t :=
  ⟨(congrArg State.now h :), cnt_of_apart h, (congrArg State.log h :), hr, fun _ hi => (cause_of_apart h).symm ▸ hi⟩

theorem Replays.reacts {s t : State} (h : Replays s t) : Reacts s t := by
  obtain ⟨l, u, d, j, rfl, -⟩ := h
  exact ⟨rfl, rfl, rfl, rfl, fun _ h => h⟩

namespace State

theorem onJnl_reacts (s : State) (f : Journal → Journal) : Reacts s (s.onJnl f) := .of_apart rfl rfl

theorem onRing_reacts (s : State) (n : RingNo) (f : Ring → Ring) : Reacts s (s.onRing n f) := .of_apart rfl rfl

theorem setCause_reacts (s : State) (m : Word) : Reacts s (s.setCause m) := ⟨rfl, rfl, rfl, rfl, (s.setCause_adds m).1⟩

theorem discardUpdate_reacts (s : State) (n : RingNo) : Reacts s (s.discardUpdate n) := .of_apart (s.discardUpdate_apart n) (s.discardUpdate_rooted n)

theorem stopRing_reacts (s : State) (n : RingNo) : Reacts s (s.stopRing n) := .of_apart (s.stopRing_apart n) (s.stopRing_rooted n)

theorem tombstone_reacts (s : State) (q : Nat) : Reacts s (s.tombstone q) := .of_apart (s.tombstone_apart q) (s.tombstone_rooted q)

theorem fetchFailure_reacts (s : State) (n : RingNo) : Reacts s (s.fetchFailure n) := by
  unfold fetchFailure
  dsimp only
  split
  · exact (s.setCause_reacts (bitMask (20 + n.val))).trans (.of_apart rfl (dropReads_rooted _ _ _))
  · have hedge (x : State) : Reacts x (x.onEdge fun e => { e with enableCleared := e.enableCleared ||| ringBit n }) :=
      ⟨rfl, rfl, rfl, rfl, fun _ h => h⟩
    exact (((s.setCause_reacts _).trans (onRing_reacts _ n _)).trans (hedge _)).trans (stopRing_reacts _ _)

theorem readFails_reacts (s : State) (n : RingNo) : Reacts s (s.readFails n) := by
  unfold readFails
  split
  · split
    · exact (s.discardUpdate_reacts n).trans (fetchFailure_reacts _ _)
    · exact .refl s
  · exact .refl s

theorem intentFails_reacts (s : State) (n : RingNo) (q : Nat) : Reacts s (s.intentFails n q) := by
  have hdrop : Reacts s ((s.dropReplaySlot q).onJnl fun j => { j with queue := j.queue.filter fun a => !(a.slot == q && a.asker == .intent) }) :=
    (s.dropReplaySlot_replays q).reacts.trans (onJnl_reacts _ _)
  unfold intentFails
  dsimp only
  refine Reacts.trans ?_ (fetchFailure_reacts _ n)
  split
  · split
    · exact hdrop.trans (discardUpdate_reacts _ _)
    · exact hdrop.trans (tombstone_reacts _ _)
  · exact hdrop.trans (tombstone_reacts _ _)

theorem killAhead_reacts (s : State) (n : RingNo) (i : BitVec 16) : Reacts s (failUnit.killAhead s n i) := by
  unfold failUnit.killAhead
  dsimp only
  split
  · split
    · exact (s.onRing_reacts n _).trans (onRing_reacts _ n _)
    · exact s.onRing_reacts n _
  · exact s.onRing_reacts n _

theorem retryLater_reacts (s : State) (a : Access) : Reacts s (s.retryLater a) := .of_apart rfl rfl

theorem replayFails_reacts (s : State) : Reacts s s.replayFails := (s.onJnl_reacts _).trans (replayDischarge_replays _).reacts

theorem failUnit_reacts (s : State) (a : Access) : Reacts s (s.failUnit a) := by
  unfold failUnit
  cases a.asker
  case aheadLegend | aheadIndex => exact s.killAhead_reacts _ _
  case tail | probe | entry | table | head => exact s.fetchFailure_reacts _
  case scan => exact s.onJnl_reacts _
  case erase | intent => exact s.intentFails_reacts _ _
  case progress => exact .refl s
  case close | tomb => exact s.retryLater_reacts a
  case replayIntent | replayLegend | replayIndex | replayRecord | replayRest => exact s.replayFails_reacts
  all_goals exact s.readFails_reacts _

/-! ### A failure (R177, R131) -/

/-- The numbers of a log entry fit their fields. -/
theorem failureLog_fits (a : Access) : (failureLog a).1 < 256 ∧ (failureLog a).2.2 < 65536 := by
  have hindex := a.index.isLt
  unfold failureLog
  cases a.asker <;> dsimp only
  case head v => exact ⟨by decide, v.isLt⟩
  case scan | replayIntent | replayLegend | replayIndex | replayRecord | replayRest => exact ⟨by decide, by decide⟩
  all_goals exact ⟨by decide, hindex⟩

/-- The failure as the port notes it, before the unit answers (R131). -/
def failNoted (s : State) (code win addr : Nat) (a : Access) : State :=
  let s := s.onMem fun m => { m with fail := failWord code win a, failAddr := put (addr % 2 ^ 32) 0 }
  let s := ((s.count .memFail).setCause (bitMask 6)).log_ (failureLog a).1 (fld (failWord code win a) 0 8) (failureLog a).2.1 (failureLog a).2.2
  if a.asker.isJournal then s.setCause (bitMask 7) else s

theorem memFailure_eq (s : State) (code win addr : Nat) (drop : Bool) (a : Access) :
    s.memFailure code win addr drop a = if drop then s.failNoted code win addr a else (s.failNoted code win addr a).failUnit a := rfl

theorem memFailure_reacts (s : State) (code win addr : Nat) (drop : Bool) (a : Access) :
    Reacts (s.failNoted code win addr a) (s.memFailure code win addr drop a) := by
  rw [memFailure_eq]
  split
  · exact .refl _
  · exact failUnit_reacts _ a

theorem failNoted_fields (s : State) (code win addr : Nat) (a : Access) :
    (s.failNoted code win addr a).now = s.now ∧
      (s.failNoted code win addr a).rooted =
        (s.onMem fun m => { m with fail := failWord code win a, failAddr := put (addr % 2 ^ 32) 0 }).rooted ∧
      (s.failNoted code win addr a).cnt = s.cnt.put .memFail (satAdd 0xFFFF s.cnt.memFail 1) ∧
      bitOf (s.failNoted code win addr a).cause 6 = true ∧
      (a.asker.isJournal = true → bitOf (s.failNoted code win addr a).cause 7 = true) ∧
      (s.log.length < 16 → ∃ e, (s.failNoted code win addr a).log[s.log.length]? = some e ∧ fld e.a 0 8 = (failureLog a).1 ∧
        fld e.a 8 8 = fld (failWord code win a) 0 8 ∧ fld e.a 16 2 = (failureLog a).2.1.val ∧ fld e.a 18 16 = (failureLog a).2.2) := by
  obtain ⟨hcode, hindex⟩ := failureLog_fits a
  have hdetail : fld (failWord code win a) 0 8 < 256 := Nat.mod_lt _ (by decide)
  let y := ((s.onMem fun m => { m with fail := failWord code win a, failAddr := put (addr % 2 ^ 32) 0 }).count .memFail).setCause (bitMask 6)
  let z := y.log_ (failureLog a).1 (fld (failWord code win a) 0 8) (failureLog a).2.1 (failureLog a).2.2
  have hcnt : y.cnt = s.cnt.put .memFail (satAdd 0xFFFF s.cnt.memFail 1) := count_cnt _ .memFail
  have hrooted : y.rooted = (s.onMem fun m => { m with fail := failWord code win a, failAddr := put (addr % 2 ^ 32) 0 }).rooted :=
    (setCause_rooted _ _).trans (count_rooted _ _)
  have hsame : y.now = s.now ∧ y.log = s.log := by
    obtain ⟨e, n, k, heq⟩ := (s.onMem fun m => { m with fail := failWord code win a, failAddr := put (addr % 2 ^ 32) 0 }).count_eq .memFail
    show (State.setCause _ _).now = _ ∧ (State.setCause _ _).log = _
    rw [heq]
    exact ⟨rfl, rfl⟩
  have hznow : z.now = y.now := by
    obtain ⟨e, l, o, k, heq⟩ := y.log_eq (failureLog a).1 (fld (failWord code win a) 0 8) (failureLog a).2.1 (failureLog a).2.2
    exact (congrArg State.now heq :)
  have hreact : Reacts z (s.failNoted code win addr a) := by
    show Reacts z (if a.asker.isJournal then z.setCause (bitMask 7) else z)
    split
    · exact z.setCause_reacts _
    · exact .refl z
  obtain ⟨hnow, hlog⟩ := hsame
  refine ⟨hreact.now.trans (hznow.trans hnow), hreact.rooted.trans ((y.log_rooted _ _ _ _).trans hrooted),
    hreact.cnt.trans ((y.log_cnt _ _ _ _).trans hcnt), hreact.cause 6 ((y.log_adds _ _ _ _).1 6 (setCause_bit _ (by decide))), fun hj => ?_,
    fun hroom => ?_⟩
  · rw [show s.failNoted code win addr a = z.setCause (bitMask 7) from if_pos hj]
    exact setCause_bit z (by decide)
  · obtain ⟨e, heq, -, hfields⟩ := log_of_room y (failureLog a).1 (fld (failWord code win a) 0 8) (failureLog a).2.1 (failureLog a).2.2
      (by rw [hlog]; exact hroom)
    refine ⟨e, ?_, hfields hcode hdetail hindex⟩
    rw [hreact.log, show z.log = y.log ++ [e] from (congrArg State.log heq :), hlog, List.getElem?_concat_length]

/-- What a failure leaves (R177, R131). -/
theorem memFailure_fields (s : State) (code win addr : Nat) (drop : Bool) (a : Access) :
    (s.memFailure code win addr drop a).now = s.now ∧ (s.memFailure code win addr drop a).ticking = s.ticking ∧
      (s.memFailure code win addr drop a).d = s.d ∧ (s.memFailure code win addr drop a).mem.fail = failWord code win a ∧
      (s.memFailure code win addr drop a).mem.failAddr = put (addr % 2 ^ 32) 0 := by
  obtain ⟨hnow, hrooted, -⟩ := s.failNoted_fields code win addr a
  have hreact := s.memFailure_reacts code win addr drop a
  have hall := hreact.rooted.trans hrooted
  exact ⟨hreact.now.trans hnow, (congrArg State.ticking hall :), (congrArg State.d hall :), (congrArg (fun t : State => t.mem.fail) hall :),
    (congrArg (fun t : State => t.mem.failAddr) hall :)⟩

end State

end Sys2Proof.Machine

/-! SUPPORT. Failures on the arbitration edge and in a transaction; a failed fetch (R135, R155, R159, R163, R165, R169, R177). The proof of
O36. -/

namespace Sys2Proof.Machine

open Sys2Proof.Safety

/-! ### The port without an access -/

/-- No access is open. -/
def NoAccess (s : State) : Prop := s.mem.cur = none

/-- No transaction is open. -/
def NoTxn (s : State) : Prop := s.mem.txn = none

theorem noAccess_of_eq {s t : State} (h : NoAccess s)
    (e : t.mem.cur.map (fun _ => (default : OpenAccess)) = s.mem.cur.map fun _ => default) : NoAccess t :=
  Option.map_eq_none_iff.mp (e.trans (Option.map_eq_none_iff.mpr h))

theorem noTxn_of_eq {s t : State} (h : NoTxn s) (e : t.mem.txn.map (fun _ => (default : Txn)) = s.mem.txn.map fun _ => default) : NoTxn t :=
  Option.map_eq_none_iff.mp (e.trans (Option.map_eq_none_iff.mpr h))

theorem noAccess_running : Running NoAccess where
  frame h e := noAccess_of_eq h (congrArg (fun x => x.mem.cur) e)
  count _ h := h
  log _ _ h := h
  modifyLog _ _ h := h
  clearLog h := h
  wraps _ h := h
  drive _ h := h
  supply _ h := h
  dropSupply h := h
  window _ h := h
  thermal _ h := h
  poke h e _ := noAccess_of_eq h (congrArg (fun x => x.mem.cur) e)
  hccnt _ h := h
  clocked _ _ _ h := h
  newEdge h _ := h
  noteShadow h _ := h
  put _ _ h := h
  commit _ h := h
  unstage h := h
  frees _ := rfl
  setCnt _ _ _ h := h
  setWraps _ _ h := h

theorem noTxn_stable : Stable NoTxn where
  frame h e := noTxn_of_eq h (congrArg (fun x => x.mem.txn) e)
  count _ h := h
  log _ _ h := h
  modifyLog _ _ h := h
  clearLog h := h
  wraps _ h := h
  drive _ h := h
  supply _ h := h
  dropSupply h := h
  window _ h := h
  thermal _ h := h

namespace State

/-! ### Failures of an access and of a transaction -/

/-- An access that fails on the arbitration edge. -/
theorem memFailure_idle {s : State} (hcur : s.mem.cur = none) (htxn : s.mem.txn = none) (code win addr : Nat) (drop : Bool) (a : Access)
    (hcode : code < 16) :
    (s.memFailure code win addr drop a).mem.txn = none ∧ (s.memFailure code win addr drop a).mem.cur = none ∧
      fld (s.memFailure code win addr drop a).mem.fail 0 4 = code ∧ fld (s.memFailure code win addr drop a).mem.fail 4 3 = win % 8 ∧
      (s.memFailure code win addr drop a).mem.failAddr = put (addr % 2 ^ 32) 0 := by
  obtain ⟨-, -, -, hfail, haddr⟩ := s.memFailure_fields code win addr drop a
  rw [hfail]
  exact ⟨noTxn_stable.memFailure htxn, noAccess_running.memFailure hcur, failWord_code _ _ _ hcode, failWord_window _ _ _ hcode, haddr⟩

/-- A transaction that fails: its access ends, and MCS_N rises d hc later. -/
theorem abortTxn_fields {w : State} (ht : w.ticking = true) (q : OpenAccess) (x : Txn) {code : Nat} (hcode : code < 16) :
    (w.abortTxn q x code).mem.txn = none ∧ (w.abortTxn q x code).mem.cur = none ∧ fld (w.abortTxn q x code).mem.fail 0 4 = code ∧
      fld (w.abortTxn q x code).mem.fail 4 3 = q.wix % 8 ∧ (w.abortTxn q x code).mem.rise = w.now + w.d := by
  have hfree : NoAccess (w.txnFails q x code) := noAccess_running.memFailure (s := w.onMem fun m => { m with cur := none }) rfl
  have hlater : NoAccess ((w.txnFails q x code).elapse w.d) := noAccess_running.elapse hfree
  obtain ⟨hnow, htick, -, hfail, -⟩ := (w.onMem fun m => { m with cur := none }).memFailure_fields code q.wix (q.txnAddr x) q.drop q.acc
  have hword : (w.abortTxn q x code).mem.fail = failWord code q.wix q.acc := (elapse_fail _ _).trans hfail
  rw [hword]
  refine ⟨rfl, hlater, failWord_code _ _ _ hcode, failWord_window _ _ _ hcode, ?_⟩
  exact (elapse_now (w.txnFails q x code) w.d (htick.trans ht)).trans (congrArg (· + w.d) hnow)

/-- The last poll that still shows write-in-progress (R169). -/
theorem txnFails_risen {w : State} (q : OpenAccess) (x : Txn) {code : Nat} (hcode : code < 16) :
    (w.riseNow.txnFails q x code).mem.txn = none ∧ (w.riseNow.txnFails q x code).mem.cur = none ∧
      fld (w.riseNow.txnFails q x code).mem.fail 0 4 = code := by
  obtain ⟨htxn, hcur, hfail, -⟩ := memFailure_idle (s := w.riseNow.onMem fun m => { m with cur := none }) rfl rfl code q.wix (q.txnAddr x) q.drop
    q.acc hcode
  exact ⟨htxn, hcur, hfail⟩

/-! ### The failing ends of a transaction -/

/-- The state that a failing transaction leaves on the edge e that it fails on. -/
theorem atEdge_fails {y w : State} {e : Nat} {q : OpenAccess} (ht : y.ticking = true) (hw : w = y.waitUntil e) (hq : holds w q) (x : Txn)
    {code : Nat} (hcode : code < 16) {z : State} (hz : z = y.atEdge e fun o s => s.abortTxn o x code) :
    z.mem.txn = none ∧ z.mem.cur = none ∧ fld z.mem.fail 0 4 = code ∧ fld z.mem.fail 4 3 = q.wix % 8 ∧ e + y.d ≤ z.mem.rise := by
  have hwt : w.ticking = true := by rw [hw, waitUntil_ticking]; exact ht
  have hd : w.d = y.d := by rw [hw]; exact elapse_d _ _
  have hlate : e ≤ w.now := by rw [hw]; exact waitUntil_reaches _ _ ht
  obtain ⟨htxn, hcur, hfail, hwin, hrise⟩ := abortTxn_fields hwt q x hcode
  rw [hz, atEdge_holds hw hq, hrise, hd]
  exact ⟨htxn, hcur, hfail, hwin, by omega⟩

/-- An MDQS edge of the data that is missing (R159). -/
theorem endTxn_lacks {y : State} {o : OpenAccess} {x0 x : Txn} {wait : Nat} {bytes : List Byte}
    (hx : x = x0.foresee y.mem y.d (mrdyBound y.applied.window.ctl) y.now) (hok : x.mrdyFails y.d (mrdyBound y.applied.window.ctl) = none)
    (hlack : bytes.length < (o.strobed x).1) :
    y.endTxn o x0 wait bytes =
      y.atEdge (Txn.late y.d (x.endBefore y.d (if (o.strobed x).2 = 0 then x.cycles else x.cycles - 1))) fun o s => s.abortTxn o x 5 := by
  unfold endTxn
  dsimp only
  rw [← hx, hok]
  exact if_pos (decide_eq_true hlack)

/-- An MDQS edge of the status pair that is missing, or one that is late (R159). -/
theorem endTxn_late {y : State} {o : OpenAccess} {x0 x : Txn} {wait : Nat} {bytes : List Byte}
    (hx : x = x0.foresee y.mem y.d (mrdyBound y.applied.window.ctl) y.now) (hok : x.mrdyFails y.d (mrdyBound y.applied.window.ctl) = none)
    (hdata : (o.strobed x).1 ≤ bytes.length)
    (hlate : bytes.length < (o.strobed x).1 + (o.strobed x).2 ∨ (0 < (o.strobed x).1 + (o.strobed x).2 ∧ 8 * y.d < wait)) :
    y.endTxn o x0 wait bytes = y.atEdge (Txn.late y.d (x.cycleAt y.d x.cycles)) fun o s => s.abortTxn o x 5 := by
  unfold endTxn
  dsimp only
  rw [← hx, hok]
  dsimp only
  rw [if_neg (by simpa using hdata)]
  exact if_pos hlate

/-- A status pair that shows no success (R163). -/
theorem endTxn_refused {y : State} {o : OpenAccess} {x0 x : Txn} {wait : Nat} {bytes : List Byte}
    (hx : x = x0.foresee y.mem y.d (mrdyBound y.applied.window.ctl) y.now) (hok : x.mrdyFails y.d (mrdyBound y.applied.window.ctl) = none)
    (hlen : (o.strobed x).1 + (o.strobed x).2 ≤ bytes.length) (hwait : wait ≤ 8 * y.d) (hstat : 0 < (o.strobed x).2)
    (hbad : h8Ok (bytes.drop (o.strobed x).1) = false) :
    y.endTxn o x0 wait bytes = y.atEdge (x.cycleAt y.d x.cycles + wait) fun o s => s.abortTxn o x 6 := by
  have hsum : 0 < (o.strobed x).1 + (o.strobed x).2 := by omega
  unfold endTxn
  dsimp only
  rw [← hx, hok]
  dsimp only
  rw [if_neg (by simpa using le_trans (Nat.le_add_right _ _) hlen), if_neg (by omega), if_pos ⟨hstat, hbad⟩, if_pos hsum]

/-- Missing data before a status cycle whose ready point is stretched to its bound (R159). -/
theorem endTxn_stretched {y : State} {o : OpenAccess} {x0 x : Txn} {wait e : Nat} {bytes : List Byte}
    (hx : x = x0.foresee y.mem y.d (mrdyBound y.applied.window.ctl) y.now)
    (hfails : x.mrdyFails y.d (mrdyBound y.applied.window.ctl) = some e) (hlack : bytes.length < (o.strobed x).1)
    (hstat : 0 < (o.strobed x).2) (hready : x.stretch.length + 1 = x.ready.length)
    (hlate : Txn.late y.d (x.endBefore y.d (x.cycles - 1)) ≤ e) :
    y.endTxn o x0 wait bytes = y.atEdge (Txn.late y.d (x.endBefore y.d (x.cycles - 1))) fun o s => s.abortTxn o x 5 := by
  have hne : (o.strobed x).2 ≠ 0 := by omega
  unfold endTxn
  dsimp only
  rw [← hx, hfails]
  dsimp only
  rw [if_neg hne]
  exact if_pos (by simp [hlack, hne, hready, hlate])

/-- Without any byte a transaction that waits for some fails for the first that is missing (R159). -/
theorem endTxn_silent {y : State} {o : OpenAccess} {x0 x : Txn}
    (hx : x = x0.foresee y.mem y.d (mrdyBound y.applied.window.ctl) y.now) (hok : x.mrdyFails y.d (mrdyBound y.applied.window.ctl) = none)
    (hsum : 0 < (o.strobed x).1 + (o.strobed x).2) :
    y.endTxn o x0 0 [] = y.atEdge (Txn.late y.d (if (o.strobed x).1 = 0 then x.cycleAt y.d x.cycles
      else x.endBefore y.d (if (o.strobed x).2 = 0 then x.cycles else x.cycles - 1))) fun o s => s.abortTxn o x 5 := by
  by_cases hdata : (o.strobed x).1 = 0
  · rw [if_pos hdata]
    exact endTxn_late hx hok (by rw [hdata]; exact Nat.zero_le _) (.inl hsum)
  · rw [if_neg hdata]
    exact endTxn_lacks hx hok (Nat.pos_of_ne_zero hdata)

/-! ### Failures on the arbitration edge -/

theorem startAccess_unmatched {s : State} {a : Access} (hm : s.matching a.anchor = []) :
    s.startAccess a = (s.takeRequest a).memFailure 3 0 a.addr false a := by
  have hm' : (s.takeRequest a).matching a.anchor = [] := by
    obtain ⟨r, j, hreq⟩ := s.takeRequest_eq a
    rw [hreq]
    exact hm
  unfold startAccess
  dsimp only
  rw [hm']

theorem mayArbitrate_idle {s : State} (h : s.mayArbitrate = true) : s.mem.cur = none ∧ s.mem.txn = none := by
  unfold mayArbitrate at h
  simp only [Bool.and_eq_true, Option.isNone_iff_eq_none] at h
  exact ⟨h.1.1.1.2, h.1.1.2⟩

end State

theorem Txn.foresee_kind (t : Txn) (m : MemPort) (d bound e : Nat) : (t.foresee m d bound e).kind = t.kind := by
  unfold Txn.foresee
  dsimp only
  repeat' split
  all_goals rfl

theorem exec_mrdyStretchTimeout {s y : State} {dt e : Nat} {mrdy : List Bool} {o : OpenAccess} {x : Txn}
    (h : meets s dt (mrdy ++ [false]) y o x) (hfails : x.mrdyFails y.d (mrdyBound y.applied.window.ctl) = some e) :
    ∃ x0, exec (.mrdyStretchTimeout ⟨dt, mrdy⟩) s = .next (y.atEdge e fun o s => s.abortTxn o x0 1).settle := by
  obtain ⟨ht, hy, hcur, x0, hx0, hx⟩ := h
  refine ⟨x0, ?_⟩
  show execMrdyStretchTimeout _ s = _
  unfold execMrdyStretchTimeout
  refine event_body ?_
  dsimp only
  rw [ht, if_neg (by decide), ← hy, hcur, hx0]
  dsimp only
  rw [← hx, hfails]

theorem exec_mdqsTimeout {s y : State} {dt : Nat} {mrdy : List Bool} {o : OpenAccess} {x : Txn} (h : meets s dt mrdy y o x)
    (huses : usesMdqs o x.kind = true) :
    ∃ x0, x = x0.foresee y.mem y.d (mrdyBound y.applied.window.ctl) y.now ∧
      exec (.mdqsTimeout ⟨dt, mrdy⟩) s = .next (y.endTxn o x0 0 []).settle := by
  obtain ⟨ht, hy, hcur, x0, hx0, hx⟩ := h
  refine ⟨x0, hx, ?_⟩
  rw [hx, Txn.foresee_kind] at huses
  show execMdqsTimeout _ s = _
  unfold execMdqsTimeout
  refine event_body ?_
  dsimp only
  rw [ht, if_neg (by decide), ← hy, hcur, hx0]
  exact if_pos huses

/-! ### A failed fetch (R135, R224) -/

theorem fetchFailure_cause (s : State) (n : RingNo) : bitOf (s.fetchFailure n).cause (20 + n.val) = true := by
  obtain ⟨e, k, g, o, r, m, j, heq, -, hk⟩ := s.fetchFailure_halts n
  rw [heq]
  exact hk _ (setCause_bit s (by omega))

theorem fetchFailure_soft {s : State} {n : RingNo} (h : s.rings[n].hard = false) :
    (s.fetchFailure n).rings[n].enabled = false ∧ (s.fetchFailure n).rings[n].fetched = [] ∧ (s.fetchFailure n).rings[n].barrier = none := by
  let x := (((s.setCause (bitMask (20 + n.val))).onRing n fun r => { r with ctl := r.ctl &&& ~~~(1#36) }).onEdge
      fun e => { e with enableCleared := e.enableCleared ||| ringBit n })
  have hstop : s.fetchFailure n = x.stopRing n := if_neg (Bool.eq_false_iff.mp h)
  obtain ⟨w, b, hrings⟩ := x.stopRing_rings n
  have hctl : x.rings[n].ctl = s.rings[n].ctl &&& ~~~(1#36) :=
    congrArg Ring.ctl ((s.setCause (bitMask (20 + n.val))).onRing_same n fun r => { r with ctl := r.ctl &&& ~~~(1#36) })
  rw [hstop]
  refine ⟨?_, by simp [hrings], by simp [hrings]⟩
  rw [Ring.enabled, x.stopRing_ctl n, hctl]
  simp [bitOf]

theorem fetchFailure_hard {s : State} {n : RingNo} (h : s.rings[n].hard = true) :
    (s.fetchFailure n).rings[n].stalled = true ∧ (s.fetchFailure n).rings[n].enabled = s.rings[n].enabled ∧
      (s.fetchFailure n).rings[n].fetched = s.rings[n].fetched ∧ (s.fetchFailure n).rings[n].fetching = .none ∧
      (∀ o, (s.fetchFailure n).mem.cur = some o → o.acc.ring = n → o.acc.asker.isNextRead = true → o.drop = true) := by
  let x := (s.setCause (bitMask (20 + n.val))).onRing n fun r => { r with stalled := true, fetching := .none, probe := false }
  have hstall : s.fetchFailure n = x.dropReads n Asker.isNextRead := if_pos h
  have hring : x.rings[n] = { s.rings[n] with stalled := true, fetching := .none, probe := false } :=
    (s.setCause (bitMask (20 + n.val))).onRing_same n fun r => { r with stalled := true, fetching := .none, probe := false }
  have hdrop : Dropped n Asker.isNextRead (x.dropReads n Asker.isNextRead) := State.dropReads_dropped x n _
  rw [hstall, show (x.dropReads n Asker.isNextRead).rings[n] = _ from hring]
  exact ⟨rfl, rfl, rfl, rfl, hdrop⟩

end Sys2Proof.Machine

/-! SUPPORT. The proof of O36: failures on the arbitration edge, what a failure leaves, failed fetches, failing transactions. -/

namespace Sys2Proof.Machine

open Sys2Proof.Safety

/-- Edges pass while a transaction is open that a command meets. -/
theorem meets_ticking {s y : State} {dt : Nat} {mrdy : List Bool} {o : OpenAccess} {x : Txn} (h : meets s dt mrdy y o x) : y.ticking = true := by
  obtain ⟨ht, hy, -⟩ := h
  rw [hy, State.runMrdy_ticking]
  exact ht

/-- What the failure of an access on its arbitration edge leaves: the port is free, and MEM_FAIL names the code and the window. -/
theorem arbitration_fails {s : State} {dt : Nat} {a : Access} (hmay : (s.arrive dt).mayArbitrate = true)
    (harb : (s.arrive dt).edge.arbitrated = false) (hrise : (s.arrive dt).mem.rise ≤ (s.arrive dt).now)
    (hc : (s.arrive dt).choice = some (.inr a)) {y : State} (hy : y.mem = (s.arrive dt).mem) {code win : Nat} (hcode : code < 16)
    (hwin : win < 8) (c : Access)
    (hfails : ((s.arrive dt).onEdge fun e => { e with arbitrated := true }).startAccess a = y.memFailure code win a.addr false c) :
    ∃ b : State, exec (.memArbitrate dt) s = .next b.settle ∧ b.mem.txn = none ∧ b.mem.cur = none ∧ fld b.mem.fail 0 4 = code ∧
      fld b.mem.fail 4 3 = win ∧ b.mem.failAddr = put (a.addr % 2 ^ 32) 0 := by
  have hrun := exec_memArbitrate hmay harb hrise
  obtain ⟨hcur, htxn⟩ := State.mayArbitrate_idle hmay
  rw [State.arbitrate_new hc, hfails] at hrun
  rw [← hy] at hcur htxn
  obtain ⟨h1, h2, h3, h4, h5⟩ := State.memFailure_idle hcur htxn code win a.addr false c hcode
  exact ⟨_, hrun, h1, h2, h3, h4.trans (Nat.mod_eq_of_lt hwin), h5⟩

theorem arbitration_failures (s : State) (dt : Nat) (a : Access) (hmay : (s.arrive dt).mayArbitrate = true)
    (harb : (s.arrive dt).edge.arbitrated = false) (hrise : (s.arrive dt).mem.rise ≤ (s.arrive dt).now)
    (hc : (s.arrive dt).choice = some (.inr a)) :
    ((s.arrive dt).matching a.anchor = [] →
      ∃ b : State, exec (.memArbitrate dt) s = .next b.settle ∧ b.mem.txn = none ∧ b.mem.cur = none ∧ fld b.mem.fail 0 4 = 3 ∧
        b.mem.failAddr = put (a.addr % 2 ^ 32) 0) ∧
      (∀ (n : Fin 8) (more : List (Fin 8)) (w : Win), (s.arrive dt).matching a.anchor = n :: more →
        w = (s.arrive dt).applied.window.win[n] →
        (w.last < a.addr + (a.clip w).len - 1 →
          ∃ b : State, exec (.memArbitrate dt) s = .next b.settle ∧ b.mem.txn = none ∧ b.mem.cur = none ∧ fld b.mem.fail 0 4 = 7 ∧
            fld b.mem.fail 4 3 = n.val ∧ b.mem.failAddr = put (a.addr % 2 ^ 32) 0) ∧
        (a.addr + (a.clip w).len - 1 ≤ w.last → a.write = true → w.writable = false →
          ∃ b : State, exec (.memArbitrate dt) s = .next b.settle ∧ b.mem.txn = none ∧ b.mem.cur = none ∧ fld b.mem.fail 0 4 = 4 ∧
            fld b.mem.fail 4 3 = n.val ∧ b.mem.failAddr = put (a.addr % 2 ^ 32) 0)) := by
  obtain ⟨y, hreq, hmem, happ⟩ : ∃ y : State, ((s.arrive dt).onEdge fun e => { e with arbitrated := true }).takeRequest a = y ∧
      y.mem = (s.arrive dt).mem ∧ y.applied = (s.arrive dt).applied := by
    obtain ⟨r, j, hreq⟩ := ((s.arrive dt).onEdge fun e => { e with arbitrated := true }).takeRequest_eq a
    exact ⟨_, hreq, rfl, rfl⟩
  refine ⟨fun hm => ?_, fun n more w hm hw => ?_⟩
  · have hstart := State.startAccess_unmatched (s := (s.arrive dt).onEdge fun e => { e with arbitrated := true }) hm
    rw [hreq] at hstart
    obtain ⟨b, hrun, htxn, hcur, hcode, -, haddr⟩ := arbitration_fails hmay harb hrise hc hmem (by decide) (by decide) a hstart
    exact ⟨b, hrun, htxn, hcur, hcode, haddr⟩
  · have hmatch : y.matching a.anchor = n :: more := by
      rw [← hm]
      unfold State.matching
      rw [happ]
    obtain ⟨e, e', hstart⟩ := State.startAccess_resolved (w := w) hreq hmatch (by rw [hw, happ])
    refine ⟨fun hlong => ?_, fun hfits hwr hro => ?_⟩
    · rw [if_pos hlong] at hstart
      exact arbitration_fails hmay harb hrise hc (y := { y with wild := e }) hmem (by decide) n.isLt _ hstart
    · rw [if_neg (by omega), if_pos (by rw [hwr, hro]; rfl)] at hstart
      exact arbitration_fails hmay harb hrise hc (y := { y with wild := e }) hmem (by decide) n.isLt _ hstart

/-- What a failure leaves, whatever the unit answers (R131). -/
theorem memFailure_marks (s : State) (code win addr : Nat) (drop : Bool) (a : Access) (hcode : code < 16) (hwin : win < 8) {t : State}
    (ht : t = s.memFailure code win addr drop a) :
    fld t.mem.fail 0 4 = code ∧ fld t.mem.fail 4 3 = win ∧ bitOf t.mem.fail 7 = a.write ∧ fld t.mem.fail 8 3 = a.user.toNat ∧
      fld t.mem.fail 11 2 = a.ring.val ∧ t.mem.failAddr = put (addr % 2 ^ 32) 0 ∧
      t.cnt.memFail = satAdd 0xFFFF s.cnt.memFail 1 ∧ bitOf t.cause 6 = true ∧ (a.asker.isJournal = true → bitOf t.cause 7 = true) ∧
      (s.log.length < 16 → ∃ e, t.log[s.log.length]? = some e ∧ fld e.a 0 8 = (failureLog a).1 ∧ fld e.a 8 8 = fld t.mem.fail 0 8 ∧
        fld e.a 16 2 = (failureLog a).2.1.val ∧ fld e.a 18 16 = (failureLog a).2.2) := by
  subst ht
  obtain ⟨-, -, -, hfail, haddr⟩ := s.memFailure_fields code win addr drop a
  obtain ⟨-, -, hcnt, hcause, hjnl, hlog⟩ := s.failNoted_fields code win addr a
  obtain ⟨-, hcnt', hlog', -, hkeep⟩ := s.memFailure_reacts code win addr drop a
  obtain ⟨hwrite, huser, hring⟩ := failWord_access code win a hcode hwin
  rw [hfail, hlog']
  refine ⟨failWord_code _ _ _ hcode, (failWord_window _ _ _ hcode).trans (Nat.mod_eq_of_lt hwin), hwrite, huser, hring, haddr, ?_, hkeep 6 hcause,
    fun h => hkeep 7 (hjnl h), hlog⟩
  rw [hcnt', hcnt]
  rfl

/-- The entry that the log takes of a failure (Table 7.25). -/
theorem failureLog_cases (a : Access) :
    (a.asker = .tail ∨ a.asker = .probe ∨ a.asker = .entry → failureLog a = (0x10, a.ring, a.index.toNat)) ∧
      (a.asker.isUpdateRead = true ∨ a.asker = .table → failureLog a = (0x11, a.ring, a.index.toNat)) ∧
      (a.asker = .intent ∨ a.asker = .erase ∨ a.asker = .close ∨ a.asker = .tomb → failureLog a = (0x12, a.ring, a.index.toNat)) ∧
      (a.asker = .scan ∨ a.asker.isReplay = true → failureLog a = (0x13, 0, 0)) ∧
      (∀ v, a.asker = .head v → failureLog a = (0x14, a.ring, v.toNat)) := by
  unfold failureLog
  cases a.asker <;> simp [Asker.isUpdateRead, Asker.isReplay]

/-- Settles O36: an access that fails before any transaction by `arbitration_failures`, the registers by `memFailure_marks`, a failed fetch
by `fetchFailure_soft` and `fetchFailure_hard`, a transaction by `atEdge_fails` on the edge of each of its failures. -/
theorem memoryFailures : Obligations.MemoryFailures := by
  unfold Obligations.MemoryFailures
  refine ⟨⟨arbitration_failures, fun s t code win addr drop a hcode hwin ht => memFailure_marks s code win addr drop a hcode hwin ht,
      failureLog_cases, ?_⟩, ?_, ?_, ?_, ?_, ?_⟩
  · rintro s t n rfl
    exact ⟨fetchFailure_cause s n, fetchFailure_soft, fetchFailure_hard⟩
  · intro s y w dt wait mrdy bytes o q x hmeets hok hq
    obtain ⟨x0, hx, hrun⟩ := exec_memTransactionEnd (wait := wait) (bytes := bytes) hmeets
    have ht := meets_ticking hmeets
    refine ⟨fun ha hw hk hbusy hpoll => ?_, fun e he hw hlack => ?_, fun e he hw hdata hlate => ?_,
      fun e he hw hlen hwait hstat hbad => ?_⟩
    · rw [State.endTxn_answered hx hok ha hw hq, State.txnEnd_busy hk hbusy, if_pos hpoll] at hrun
      exact ⟨_, hrun, State.txnFails_risen q x (by decide)⟩
    · subst he
      obtain ⟨htxn, hcur, hcode, -, hrise⟩ := State.atEdge_fails ht hw hq x (by decide) (State.endTxn_lacks hx hok hlack)
      exact ⟨_, hrun, htxn, hcur, hcode, hrise⟩
    · subst he
      obtain ⟨htxn, hcur, hcode, -, hrise⟩ := State.atEdge_fails ht hw hq x (by decide) (State.endTxn_late hx hok hdata hlate)
      exact ⟨_, hrun, htxn, hcur, hcode, hrise⟩
    · subst he
      obtain ⟨htxn, hcur, hcode, -, hrise⟩ :=
        State.atEdge_fails ht hw hq x (by decide) (State.endTxn_refused hx hok hlen hwait hstat hbad)
      exact ⟨_, hrun, htxn, hcur, hcode, hrise⟩
  · intro s y w dt e mrdy o q x hmeets hfails hw hq
    obtain ⟨x0, hrun⟩ := exec_mrdyStretchTimeout hmeets hfails
    have ht := meets_ticking hmeets
    exact ⟨_, hrun, State.atEdge_fails ht hw hq x0 (by decide) rfl⟩
  · intro x d bound k hk
    unfold Txn.mrdyFails
    rw [hk]
    rfl
  · intro s y w dt e mrdy o q x hmeets huses hok hsum he hw hq
    obtain ⟨x0, hx, hrun⟩ := exec_mdqsTimeout hmeets huses
    have ht := meets_ticking hmeets
    subst he
    obtain ⟨htxn, hcur, hcode, -, hrise⟩ := State.atEdge_fails ht hw hq x (by decide) (State.endTxn_silent hx hok hsum)
    exact ⟨_, hrun, htxn, hcur, hcode, hrise⟩
  · intro s y w dt wait e f mrdy bytes o q x hmeets hfails hlack hstat hready hf hfe hw hq
    obtain ⟨x0, hx, hrun⟩ := exec_memTransactionEnd (wait := wait) (bytes := bytes) hmeets
    have ht := meets_ticking hmeets
    subst hf
    obtain ⟨htxn, hcur, hcode, -, hrise⟩ :=
      State.atEdge_fails ht hw hq x (by decide) (State.endTxn_stretched hx hfails hlack hstat hready hfe)
    exact ⟨_, hrun, htxn, hcur, hcode, hrise⟩

end Sys2Proof.Machine
